-- ==== Sys2Proof/Word.lean ====
section
/-! DEFINITION. The machine's units of data: bytes and the word widths the manual uses (00_scope R6-R8). -/
namespace Sys2Proof

abbrev Byte := BitVec 8
abbrev W16 := BitVec 16
abbrev W32 := BitVec 32
abbrev W64 := BitVec 64

/-- Rounded-up quotient, the manual's ⌈a / b⌉. -/
abbrev ceilDiv (a b : Nat) : Nat := (a + b - 1) / b

end Sys2Proof
end

