-- ==== Sys2Proof/Config.lean ====
section
/-! DEFINITION. What an implementation fixes and the values the manual leaves open.
Every `opaque` here is a free value: nothing in Lean can evaluate it (notes/assumptions/12.md, 10.md, 14.md). -/
namespace Sys2Proof

/-- The four variants of Table 0-2. -/
inductive Variant where
  | m20 | m10 | p384 | m00
deriving DecidableEq, Repr

namespace Config

/-- DESIGN CHOICE (entry 12). The n-th 16-bit draw of a die's generator (03 R91, 04 R104). -/
opaque draw16 : Nat → Nat → BitVec 16
/-- DESIGN CHOICE (entry 12). The n-th 32-bit random word (session IDs, 13 R341; suggested seeds, 04 R119). -/
opaque random32 : Nat → BitVec 32
/-- DESIGN CHOICE (entry 12). The n-th 32 random bytes (challenges, 13 R340). -/
opaque random256 : Nat → BitVec 256
/-- DESIGN CHOICE (entry 10). Signature-block bytes over a message: purpose number and the message's SHA-384 (13 R337). -/
opaque signature : Nat → BitVec 384 → List Byte
/-- DESIGN CHOICE (entry 10). The device identity key record, 1,984 bytes (13 R338). -/
opaque deviceKey : List Byte
/-- DESIGN CHOICE (entry 14). The counter that a counter ID's name number (31:20) stands for, by its position (13 R357). -/
opaque counterName : Nat → Nat
/-- DESIGN CHOICE (entry 14). A counter name of the catalogue the model does not keep counts Den descriptor work, per interface (13 R358). -/
opaque descriptorWork : Nat → Bool
/-- DESIGN CHOICE (entry 14). A catalogue entry, as bytes: name number, instance kind, count and name (13 R357). -/
opaque catalogEntry : Nat → List Byte
/-- DESIGN CHOICE (entry 14). Result code of maker test n (13 Table 13-2). -/
opaque mfgResult : Nat → BitVec 8
/-- DESIGN CHOICE (entry 22). What a reserved choice the manual does not state yields, where an instruction goes on. -/
opaque unstated : Nat → BitVec 64

/-- DESIGN CHOICE (entry 49). What the servo's filter makes of its last value and a new offset, in 2^-16 ns (13 R363). -/
opaque servoFilter : Int → Int → Int

end Config

namespace Variant

/-- PARTNO fuse value (15 Table 15-2). -/
def partno : Variant → BitVec 16
  | m20 => 1 | m10 => 2 | p384 => 3 | m00 => 4

def ofPartno (p : BitVec 16) : Variant :=
  if p = 2 then .m10 else if p = 3 then .p384 else if p = 4 then .m00 else .m20

/-- Physical ports that exist (00 R4). -/
def ports : Variant → Nat
  | p384 => 384 | _ => 512

/-- Fitted optical engines (Table 0-2). -/
def engines : Variant → Nat
  | p384 => 6 | _ => 8

/-- Laser cartridges (Table 0-2). -/
def cartridges : Variant → Nat
  | p384 => 12 | _ => 16

/-- Bypass groups (Table 0-2). -/
def groups : Variant → Nat
  | p384 => 48 | _ => 64

/-- FITTED_HBM of the variant (01 R13). -/
def fittedHbm : Variant → BitVec 20
  | m10 => 0xA94B5 | m00 => 0 | _ => 0xFFFFF

/-- FITTED_OE of the variant (00 R4). -/
def fittedOe : Variant → BitVec 8
  | p384 => 0x3F | _ => 0xFF

/-- HBM capacity in GB (Table 0-2). -/
def hbmGB : Variant → Nat
  | m10 => 720 | m00 => 0 | _ => 1440

def nStacks : Variant → Nat
  | m10 => 10 | m00 => 0 | _ => 20

/-- P_FIXED in W at the input (10 Table 10-5). -/
def pFixed : Variant → Nat
  | p384 => 1864 | _ => 2177

def hasFmem : Variant → Bool
  | m00 => false | _ => true

end Variant
end Sys2Proof
end

