-- ==== Sys2Proof/Syntax.lean ====
section
/-! DEFINITION. The commands the block takes, one constructor per row of spec/opcode_table.json, and their operands. -/
namespace Sys2Proof

/-- A fetched descriptor: interface, command ring and index (11 R286, R290). -/
structure CmdRef where
  iface : Fin 2
  ring : Fin 64
  idx : BitVec 32
deriving DecidableEq, Repr

/-- A mailbox: BAR0 of an interface, or a management-port peer address and port (13 R343). -/
inductive MbRef where
  | hif (i : Fin 2)
  | mgmt (addr : BitVec 128) (port : BitVec 16)
deriving DecidableEq, Repr

/-- Base header of an ALP frame (02 Table 2-4). -/
structure Hdr where
  dst : W32
  src : W32
  ver : BitVec 4 := 3
  opc : BitVec 4
  vl : BitVec 3
  spec : Bool := false
  ce : Bool := false
  colour : BitVec 2 := 0
  ext : Bool
  ackreq : Bool := false
  retx : Bool := false
  first : Bool := false
  last : Bool := false
  len : BitVec 11
  tag : W16
  hcrc : W16
deriving DecidableEq, Repr

/-- What follows header and extension: payload words, reduce tail extension, tail (02 Tables 2-10, 2-11). -/
structure Rest where
  payload : List W64
  redS : W64 := 0
  redA : W64 := 0
  crc : W32
  status : Byte := 0
deriving DecidableEq, Repr

/-- A UDP datagram for the ALP-over-UDP port of a gateway port group (02 Tables 2-17 to 2-19). -/
structure Udp where
  v4 : Bool
  srcMac : BitVec 48
  srcIp : BitVec 128
  dstIp : BitVec 128
  dstPort : W16
  fragOrOptions : Bool
  csumOk : Bool
  ecnCe : Bool
  sver : BitVec 4
  hall : BitVec 24
  bytes : Nat
  hdr : Hdr
  ext : BitVec 128
  rest : Rest
deriving DecidableEq, Repr

/-- A native Ethernet frame on a gateway port: addresses, tag, IP ECN (none: not IP), bytes with FCS (02 R53, 04 R117). -/
structure Eth where
  dstMac : BitVec 48
  srcMac : BitVec 48
  vid : BitVec 12
  pcp : Option (BitVec 3)
  ecn : Option (BitVec 2)
  bytes : Nat
  data : List Byte
deriving DecidableEq, Repr

/-- A completion, event or telemetry ring of an interface (16 Table 16-5). -/
inductive CqSel where
  | cq (q : Fin 64)
  | evt
  | tel
deriving DecidableEq, Repr

/-- What one read of the doorbell area and of the command rings returns (11 Table 11-3, R288). -/
structure DbView where
  pi : List (Fin 64 × W32) := []
  descs : List (Fin 64 × List (BitVec 512)) := []
  cplCi : List (Fin 64 × W32) := []
  evtCi : Option W32 := none
  telCi : Option W32 := none
  ringFail : List (Fin 64) := []
  /-- completion rings, event and telemetry ring whose memory cannot be reached (11 R285) -/
  cqFail : List CqSel := []
  areaFail : Bool := false
deriving DecidableEq, Repr

/-- A context or one chunk stage of it: group address, OPSEQ, chunk (08). -/
structure CtxKey where
  g : W32
  opseq : W32
deriving DecidableEq, Repr

structure StageKey where
  ctx : CtxKey
  chunk : Nat
deriving DecidableEq, Repr

/-- Metadata of a window as the survivor of a join copies it (09 Table 9-2, R245). -/
structure WindowMeta where
  update : Bool := false
  rdonly : Bool := false
  rule : BitVec 3 := 0
  group : BitVec 26 := 0
  planemask : Byte := 0xFF
  podlo : BitVec 9 := 0
  podhi : BitVec 9 := 510
  size : BitVec 48 := 0
  rp : BitVec 22 := 0
  nregion : BitVec 24 := 0
  lastStep : W64 := 0
deriving DecidableEq, Repr

/-- What the survivor that a JOIN = 1 MIRROR names says of its window: STATE_LOST with LAST_STEP, or its metadata (11 R294). -/
inductive Survivor where
  | lost (lastStep : W64)
  | serves (m : WindowMeta)
deriving DecidableEq, Repr

/-- Where words arrive on an ALP link: the port, and the group they lie in (02 R54, R60). -/
structure RxPlace where
  port : Fin 2048
  group : BitVec 12
deriving DecidableEq, Repr

/-- A control word as it comes, and whether idle codewords carry it (02 R57, R59). -/
structure CtlWord where
  word : BitVec 144
  idle : Bool
deriving DecidableEq, Repr

/-- A launch that runs dry: its port, and the payload words that had come before (03 R82). -/
structure DryLaunch where
  port : Fin 2048
  sent : List W64
deriving DecidableEq, Repr

/-- The end of a join's copy, with the LAST_STEP and the region steps that came (09 R245). -/
structure JoinEnd where
  wid : Fin 1024
  lastStep : W64
  steps : List W64
deriving DecidableEq, Repr

/-- A SOLO_DENY frame; `lost`: the witness reports that no copy of the pair holds SOLO or PRIMARY (09 R248). -/
structure Denial where
  fid : Nat
  lost : Bool
deriving DecidableEq, Repr

/-- A window whose SOLO_REQ went unanswered; `lost` as in a Denial (09 R248). -/
structure NoGrant where
  wid : Fin 1024
  lost : Bool
deriving DecidableEq, Repr

/-- The unit that makes a fatal stop, and whether the IOD still runs (06 Table 6-7). -/
structure DeadUnit where
  unit : Byte
  iodRuns : Bool
deriving DecidableEq, Repr

/-- One request part on the management port (13 R343, 16 R410). -/
structure MbPart where
  session : W32
  op : Byte
  first : Bool
  last : Bool
  data : List Byte
deriving DecidableEq, Repr

/-- Answer to a page request (11 R297). -/
inductive PriAnswer where
  | success | invalid | failure
deriving DecidableEq, Repr

/-- A unit of the budget (10 R270). -/
inductive BudgetUnit where
  | sett (n : Fin 20)
  | hbm (n : Fin 20)
deriving DecidableEq, Repr

/-- A unit with a junction temperature (10 Table 10-11). -/
inductive HotUnit where
  | die (n : Fin 6)
  | engine (n : Fin 8)
  | stack (n : Fin 20)
  | sett (n : Fin 20)
deriving DecidableEq, Repr

/-- A plane of the module (01 Table 1-4). -/
inductive Plane where
  | data | control | management
deriving DecidableEq, Repr

/-- What a bring-up phase finds in the hardware around the IOD (15 R389-R396): everything that is not state. -/
structure Findings where
  /-- a signature of slot (image, slot) does not verify (13 R352) -/
  sigBad : List (Fin 4 × Fin 2) := []
  /-- dies none of whose IOD blocks trains -/
  unreachable : List (Fin 4) := []
  /-- engines none of whose blocks trains -/
  enginesDark : List (Fin 8) := []
  /-- Ridgepole blocks (die, block) that fail to train -/
  blocksDown : List (Fin 4 × Fin 192) := []
  /-- stacks whose own ID differs from STACKID, or are not there -/
  idBad : List (Fin 20) := []
  /-- stacks that fail training -/
  trainBad : List (Fin 20) := []
  /-- cartridges declared failed when P4 ends -/
  cartsFailed : List (Fin 16) := []
deriving DecidableEq, Repr

/-- What the period that ends has measured: the highest bandwidth each HBM controller was asked for in the last four periods,
per mille, and temperatures that have changed, in °C (10 R272, R279). -/
structure PeriodView where
  asked : List (Fin 20 × Nat) := []
  hot : List (HotUnit × Nat) := []
deriving DecidableEq, Repr

/-- Measurements of one saturation evaluation over SAT_T (10 Table 10-3): frames toward a peer that waited for
credit, and controllers at their cap, per mille. -/
structure SatView where
  peerWait : List (Fin 1024 × Nat) := []
  hbmAtCap : List (Fin 20 × Nat) := []
deriving DecidableEq, Repr

/-- The commands: one constructor per row of the opcode table, in its order. -/
inductive Instr where
  -- host ring commands (11 Table 11-5); `data` is what DMA delivers of the host buffers
  | tableWrite (r : CmdRef) (data : List Byte)
  | tableBulkLoad (r : CmdRef) (data : List Byte)
  | tableFlip (r : CmdRef)
  | groupCreate (r : CmdRef) (data : List Byte)
  | groupExtend (r : CmdRef) (data : List Byte)
  | groupFence (r : CmdRef) (data : List Byte)
  | groupUnfence (r : CmdRef) (data : List Byte)
  | groupDestroy (r : CmdRef)
  | ctxPolicySlot (r : CmdRef) (data : List Byte)
  | ctxPolicyOpen (r : CmdRef)
  | ctxAbort (r : CmdRef)
  | fmemCreate (r : CmdRef)
  | fmemMirror (r : CmdRef) (survivor : Survivor)
  | fmemDestroy (r : CmdRef)
  | fmemRestore (r : CmdRef) (data : List Byte)
  | fmemSave (r : CmdRef) (units : Nat)
  | portMode (r : CmdRef)
  | portAdmin (r : CmdRef)
  | portBypassSet (r : CmdRef) (data : List Byte)
  | portPrepareRemoveCartridge (r : CmdRef)
  | portPrepareRemoveModule (r : CmdRef)
  | portHold (r : CmdRef) (data : List Byte)
  | portRelease (r : CmdRef) (data : List Byte)
  | powerSetCap (r : CmdRef)
  | teleCounters (r : CmdRef) (units : Nat)
  | teleHwm (r : CmdRef) (units : Nat)
  | teleStream (r : CmdRef) (data : List Byte)
  | secChallenge (r : CmdRef)
  | secOpen (r : CmdRef) (data : List Byte) (sigOk : Bool)
  | secBind (r : CmdRef)
  | secElevate (r : CmdRef) (data : List Byte) (sigOk : Bool)
  | secClose (r : CmdRef)
  | secTakeover (r : CmdRef)
  | secRelease (r : CmdRef)
  | fwStage (r : CmdRef) (data : List Byte)
  | fwActivate (r : CmdRef) (sigOk : Bool)
  | fwActivated (ok : Bool)
  | diagRead (r : CmdRef) (units : Nat)
  | diagRestartDataplane (r : CmdRef)
  -- mailbox operations (13 Table 13-2)
  | mailboxChallenge (m : MbRef)
  | mailboxOpen (m : MbRef) (sigOk : Bool)
  | mailboxElevate (m : MbRef) (sigOk : Bool)
  | mailboxClose (m : MbRef)
  | attest (m : MbRef)
  | cert (m : MbRef)
  | catalog (m : MbRef)
  | auditRead (m : MbRef)
  | claim (m : MbRef)
  | enroll (m : MbRef)
  | revoke (m : MbRef)
  | profileWrite (m : MbRef)
  | profileRead (m : MbRef)
  | fwApprove (m : MbRef) (sigOk : Bool)
  | svnCommit (m : MbRef)
  | fuse (m : MbRef)
  | mfgTest (m : MbRef)
  | clearQuarantine (m : MbRef)
  | mailboxGo (i : Fin 2) (v : W64)
  | mailboxNext (i : Fin 2) (v : W64)
  | mailboxAbort (i : Fin 2) (v : W64)
  | mgmtPortDatagram (addr : BitVec 128) (port : W16) (part : MbPart)
  -- register writes and the ring engine (11, 16)
  | commandRingEnable (i : Fin 2) (r : Fin 64) (v : W64)
  | commandRingDisable (i : Fin 2) (r : Fin 64) (v : W64)
  | completionRingEnable (i : Fin 2) (c : CqSel) (v : W64)
  | completionRingDisable (i : Fin 2) (q : Fin 64) (v : W64)
  | eventRingDisable (i : Fin 2) (tel : Bool) (v : W64)
  | nudge (i : Fin 2) (off : BitVec 12) (view : DbView)
  | registerWrite (i : Fin 2) (off : BitVec 26) (v : W64) (four : Bool)
  | doorbellPoll (i : Fin 2) (view : DbView)
  | descriptorPreempt (i : Fin 2)
  | descriptorResume (r : CmdRef)
  | pageRequestResponse (r : CmdRef) (a : PriAnswer)
  | priTimeout (r : CmdRef)
  | invalidation (i : Fin 2) (pages : List Nat)
  | interfaceReset (i : Fin 2)
  | hifLinkLost (i : Fin 2)
  -- links (02, 06)
  | pcsLock (l : Fin 2048)
  | lightArrival (l : Fin 2048)
  | version (l : Fin 2048) (src : W32) (w0 : W64)
  | versionAck (l : Fin 2048) (src : W32) (w0 : W64)
  | linkUp (l : Fin 2048)
  | groupTransmit (l : Fin 2048)
  | controlWord (l : Fin 2048) (cw : CtlWord)
  | codewordDecodeFailure (l : Fin 2048) (g : BitVec 12)
  | pcsLockLostTimeout (l : Fin 2048)
  | controlWordTimeout (l : Fin 2048)
  | timeReqSend (l : Fin 2048)
  | timeReq (l : Fin 2048) (w0 t1 : W64) (f1 : W16) (t2 : W64) (f2 : W16)
  | timeResp (l : Fin 2048) (w : List W64) (t4 : W64) (f4 : W16)
  -- frames (03, 04, 05)
  | frameArrival (p : RxPlace) (h : Hdr) (x : BitVec 128)
  | frameTailArrival (p : RxPlace) (r : Rest)
  | frameLaunch (l : Fin 2048)
  | cutUnderrun (d : DryLaunch)
  | limiterCreditUpdate (die : Fin 4)
  | loadPublish (die : Fin 4)
  | alpOverUdpDatagram (l : Fin 2048) (u : Udp)
  | ethernetFrameArrival (l : Fin 2048) (e : Eth)
  | encap (fid : Nat)
  | agingVisit (typ : Byte) (key : BitVec 320)
  -- collectives (08)
  | rputArrival (fid : Nat)
  | rresArrival (fid : Nat)
  | confArrival (fid : Nat)
  | admitRecord (fid : Nat)
  | openRecord (fid : Nat)
  | closeRecord (fid : Nat)
  | answerArrival (fid : Nat)
  -- fabric memory (09)
  | fmemPut (fid : Nat)
  | fmemGet (fid : Nat)
  | fmemAtomic (fid : Nat)
  | gradientPut (fid : Nat)
  | digestPut (fid : Nat)
  | joinCopyComplete (j : JoinEnd)
  | duplicateFilterExpiry (src : W32) (tag : W16) (wid : W16) (off : BitVec 48)
  -- management frames (13 R356)
  | feature (fid : Nat)
  | buddyHb (fid : Nat)
  | buddyHeartbeatSend (wid : Fin 1024)
  | buddyTimeout (wid : Fin 1024)
  | soloReq (fid : Nat)
  | soloGrant (fid : Nat)
  | soloDeny (d : Denial)
  | soloReqTimeout (n : NoGrant)
  | pairReset (fid : Nat)
  | expressReq (fid : Nat)
  | expressAns (fid : Nat)
  | expressRel (fid : Nat)
  | expressMeasurement (peer : Fin 1024)
  -- optics and Portage (06)
  | drainComplete (l : Fin 2048)
  | drainTimeout (l : Fin 2048)
  | portageCellWriteComplete (g : Fin 64) (readBackOk : Bool)
  | laserDegraded (c : Fin 16) (w k : Fin 4)
  | laserFailed (c : Fin 16) (w k : Fin 4)
  | cartridgeRemoved (c : Fin 16)
  | cartridgeInserted (c : Fin 16)
  | cartridgeAtPower (c : Fin 16)
  | holdLimitExpiry (l : Fin 2048)
  -- Setts, checks and admission (07, 08, 10, 12)
  | settDispatch (n : Fin 20)
  | checkVerdict (k : StageKey) (faulty : Bool)
  | arbitrationComplete (k : StageKey) (differs checkOk : Bool)
  | duplicateCompare (k : StageKey) (differs checkOk : Bool)
  | specTimeout (k : StageKey)
  | partialResend (k : StageKey)
  | reservationGrant
  | admissionWindowExpiry (c : CtxKey)
  | admitWaitExpiry (c : CtxKey)
  | contextDeadline (c : CtxKey)
  | contextScrub
  -- budget and thermal (10, 14)
  | demand (v : PeriodView)
  | energyGrant
  | tokenLapse (u : BudgetUnit)
  | powerMeasurement (watts : Nat) (overMax : Bool)
  | thermalEmergency (e : Fin 8) (tj : Byte)
  | thermalClear (e : Fin 8) (tj : Byte)
  | thermalStop (u : HotUnit)
  | saturationEvaluation (view : SatView)
  -- live test and faults (12)
  | testRotation (die : Fin 4)
  | settTestStart (n : Fin 20)
  | settTestComplete (n : Fin 20) (pass : Bool) (pattern : W16)
  | testBudgetDefer (n : Fin 20)
  | denHeartbeatLoss
  | denTestStart
  | denTestComplete (pass : Bool)
  | stackLost (n : Fin 20)
  | stackDrainStart (n : Fin 20)
  | stackDrainCopyComplete (n : Fin 20)
  | stackTestComplete (n : Fin 20) (pass : Bool)
  | stackCopyBackComplete (n : Fin 20)
  | ridgepoleLaneFault (die : Fin 4) (blk : Fin 192) (lane : Fin 64)
  | probeCell (die : Fin 4) (port : Fin 512)
  | probeFail (die : Fin 4) (port : Fin 512)
  | memberSuspect (g : W32) (rank : BitVec 18) (missing : Bool)
  | fatalStop (subsys : Fin 13) (u : DeadUnit)
  | dataplaneFault
  | managementPlaneFault
  -- security and audit timers (13)
  | challengeExpiry (p : MbRef) (ring : Option (Fin 64))
  | sessionExpiry (id : W32)
  | lockoutExpiry (i : Fin 2)
  | checkpoint
  | checkpointSignatureReady
  | telemetrySample (i : Fin 2)
  -- hall time (13)
  | parentChange
  | holdoverExpiry
  | ptpMessage (port : Option (Fin 2048)) (domain : Byte) (slave : Bool) (offset : Option Int)
  | ppsPulse
  -- power, pins, bring-up (14, 15, 17)
  | presentDebounce (mv : Nat)
  | powerGood
  | presentBreak
  | supplySag
  | sagSaveComplete
  | sagRestart (mv : Nat) (gone : Bool)
  | overvoltage
  | overcurrent (again : Bool)
  | controllerRestart (mv : Nat)
  | lowLineEntry
  | lowLineExit
  | moduleReset
  | moduleResetRelease
  | ppContactAssert
  | ppContactRelease
  | bringupPhase (f : Findings)
  | phaseTimeout
  | removalDrainStart
  | readyToRemove
  | controlPlaneRestart
  | planeRestartComplete (p : Plane)
  | dmaUnitComplete (i : Fin 2) (data : List Byte)
  | atsTranslationComplete (i : Fin 2) (page : Nat) (granted : Bool)
  | hifLinkUp (i : Fin 2)
  | bankExhausted
  | expressDwellExpiry (g : Fin 64)
  | activationStepEnd (ok : Bool)
deriving DecidableEq, Repr

end Sys2Proof
end

