-- ==== Sys2Proof/Machine/Bits.lean ====
section
/-! DEFINITION. Bytes, bit fields, finite maps and the cyclic redundancy checks of the manual
(00_scope R6-R8, 02 R39, R47, R57). Nothing here knows the machine's state. -/
namespace Sys2Proof.Machine

/-- A finite map from numbers, kept strictly rising by key. -/
abbrev Map (α : Type) := List (Nat × α)

/-- The entry of a key. -/
def mget {α : Type} : Map α → Nat → Option α
  | [], _ => none
  | (i, v) :: t, k => if i = k then some v else mget t k

/-- The entry of a key, or a default. -/
def mgetD {α : Type} (m : Map α) (k : Nat) (d : α) : α := (mget m k).getD d

/-- Insert or replace, keeping the keys rising. -/
def mset {α : Type} : Map α → Nat → α → Map α
  | [], k, v => [(k, v)]
  | (i, w) :: t, k, v =>
    if i = k then (k, v) :: t
    else if k < i then (k, v) :: (i, w) :: t
    else (i, w) :: mset t k v

/-- Remove a key. -/
def mdel {α : Type} : Map α → Nat → Map α
  | [], _ => []
  | (i, w) :: t, k => if i = k then t else (i, w) :: mdel t k

/-- The i-th element, or a default. -/
def nth {α : Type} (l : List α) (i : Nat) (d : α) : α := (l[i]?).getD d

/-- Replace the i-th element. -/
def setNth {α : Type} (l : List α) (i : Nat) (v : α) : List α := l.set i v

/-- Bits [hi:lo] of a word, bit 0 the least significant (00 R8). -/
def bits {n : Nat} (w : BitVec n) (hi lo : Nat) : BitVec (hi - lo + 1) := w.extractLsb hi lo

/-- The field at [hi:lo] as a number. -/
def fld {n : Nat} (w : BitVec n) (hi lo : Nat) : Nat := (w.toNat >>> lo) % 2 ^ (hi - lo + 1)

/-- One bit of a word. -/
def bit {n : Nat} (w : BitVec n) (i : Nat) : Bool := w.getLsbD i

/-- `w` with the field [hi:lo] replaced. -/
def setFld {n : Nat} (w : BitVec n) (hi lo v : Nat) : BitVec n :=
  let m : Nat := (2 ^ (hi - lo + 1) - 1) <<< lo
  (w &&& ~~~ BitVec.ofNat n m) ||| BitVec.ofNat n ((v % 2 ^ (hi - lo + 1)) <<< lo)

/-- `v` placed at bit `lo` of an otherwise zero number. -/
def put (v lo : Nat) : Nat := v <<< lo

/-- Bytes of a number, least significant first (00 R7). -/
def leBytes : Nat → Nat → List Byte
  | 0, _ => []
  | n + 1, v => BitVec.ofNat 8 v :: leBytes n (v / 256)

/-- A number from bytes, least significant first. -/
def leNat : List Byte → Nat
  | [] => 0
  | b :: t => b.toNat + 256 * leNat t

/-- Bytes of a number, most significant first (00 R6). -/
def beBytes (n v : Nat) : List Byte := (leBytes n v).reverse

/-- A number from bytes, most significant first. -/
def beNat (l : List Byte) : Nat := l.foldl (fun a b => a * 256 + b.toNat) 0

/-- The n bytes at an offset, as a little-endian number. -/
def leAt (l : List Byte) (off n : Nat) : Nat := leNat ((l.drop off).take n)

/-- Cut a list into pieces of n, at most `fuel` of them. -/
def pieces {α : Type} (n : Nat) : Nat → List α → List (List α)
  | 0, _ => []
  | f + 1, l => if l.isEmpty then [] else l.take n :: pieces n f (l.drop n)

/-- The ASCII bytes of a tag. -/
def ascii (s : String) : List Byte := s.toList.map fun c => BitVec.ofNat 8 c.toNat

def bitStep (f : Nat → Nat) : Nat → Nat → Nat
  | 0, c => c
  | n + 1, c => bitStep f n (f c)

/-- CRC-16, polynomial 0x1021, initial 0xFFFF, not reflected, no final XOR (02 R39). -/
def crc16 (l : List Byte) : Nat :=
  l.foldl (fun c b =>
    bitStep (fun c => if c &&& 0x8000 = 0 then (c <<< 1) &&& 0xFFFF else ((c <<< 1) ^^^ 0x1021) &&& 0xFFFF)
      8 (c ^^^ (b.toNat <<< 8))) 0xFFFF

/-- CRC-8, polynomial 0x07, initial 0 (02 R57). -/
def crc8 (l : List Byte) : Nat :=
  l.foldl (fun c b =>
    bitStep (fun c => if c &&& 0x80 = 0 then (c <<< 1) &&& 0xFF else ((c <<< 1) ^^^ 0x07) &&& 0xFF)
      8 (c ^^^ b.toNat)) 0

/-- The CRC-32C engine started at `init`, reflected, before the final XOR (02 R47; seeds in 04 R110). -/
def crc32cRaw (init : Nat) (l : List Byte) : Nat :=
  l.foldl (fun c b =>
    bitStep (fun c => if c &&& 1 = 0 then c >>> 1 else (c >>> 1) ^^^ 0x82F63B78) 8 (c ^^^ b.toNat)) init

/-- CRC-32C from a given start with the final XOR of R47. -/
def crc32cFrom (init : Nat) (l : List Byte) : Nat := crc32cRaw init l ^^^ 0xFFFFFFFF

/-- CRC-32C of 02 R47. -/
def crc32c (l : List Byte) : Nat := crc32cFrom 0xFFFFFFFF l

/-- Insertion sort of numbers, ascending. -/
def sortNat : List Nat → List Nat
  | [] => []
  | a :: t => ins a (sortNat t)
where ins (a : Nat) : List Nat → List Nat
  | [] => [a]
  | b :: t => if a ≤ b then a :: b :: t else b :: ins a t

/-- Insertion sort by a `before` test, stable. -/
def sortBy {α : Type} (lt : α → α → Bool) : List α → List α
  | [] => []
  | a :: t => ins a (sortBy lt t)
where ins (a : α) : List α → List α
  | [] => [a]
  | b :: t => if lt b a then b :: ins a t else a :: b :: t

/-- The first element that no other stands before. -/
def best {α : Type} (lt : α → α → Bool) : List α → Option α
  | [] => none
  | a :: t => match best lt t with
    | none => some a
    | some b => if lt b a then some b else some a

def dedupNat (l : List Nat) : List Nat := l.foldl (fun acc a => if acc.contains a then acc else acc ++ [a]) []

/-- Numbers of the set bits below `n`, ascending. -/
def setBits {w : Nat} (n : Nat) (v : BitVec w) : List Nat := (List.range n).filter fun i => v.getLsbD i

end Sys2Proof.Machine
end

