-- ==== Sys2Proof/Machine/State.lean ====
section
/-! DEFINITION. The state of the module as plain data: everything the manual gives the machine (INVENTORY.md, "State").
Reset values are those of the Reset columns at P0 from power-off (00 R11); values the manual does not give are named
in notes/assumptions. -/
namespace Sys2Proof.Machine

/-- Events on hardware the manual says is absent on the variant (00 R4, Table 0-2). Safe: the model stops. -/
inductive Fault where
  /-- raised by a frame, light or link event on a logical port whose physical port the variant does not have; safe -/
  | absentPort (l : Nat)
  /-- raised by an event on a laser or cartridge whose bay is blanked on the variant (17 R417); safe -/
  | absentCartridge (c : Nat)
  /-- raised by an event on an optical engine the variant does not fit; safe -/
  | absentEngine (e : Nat)
  /-- raised by an event on an HBM stack the module does not fit; safe -/
  | absentStack (n : Nat)
  /-- raised by an event on a bypass group the variant does not have; safe -/
  | absentGroup (g : Nat)
deriving DecidableEq, Repr

/-- Why a command has no meaning. -/
inductive Refusal where
  /-- raised by an arm of `exec` that is not modelled yet; safe -/
  | notModelled (mnemonic : String)
deriving DecidableEq, Repr

/-- Counters the manual names (13 R357). -/
inductive Ctr where
  | hdrBadSrc | unsolicitedResp | hdrBadShape | opcReserved | hdrBadVer | redBadEnc | encapTooLong | lctrlReserved
  | udpBadIp | udpBadCsum | udpBadShim | udpBadLen | udpAdmitDrop | ethAdmitDrop | origPoolWait | cutUnderrun
  | framePoisoned | hdrBadHcrc | specHoldHops | specTimeout | congMark | congDrop | hdrBadDst | groupBadOpc
  | groupMiss | routeNone | sprayStandby | routeDeadEnd | resprayFrames | ingressCut | gwNoNexthop | gwSrcMismatch
  | gwMiss | gwLearnDrop | gwLearnNoRoom | gwAged | streamPoolFull | streamEarlyReclaim | orderWait
  | policeRecolour | policeDrop | holdBackpressure | drainTimeout | redMxAlign | redFmtMismatch | redRopMismatch
  | rputNoPolicy | rputGroupState | rputOpseqRange | rputClosed | rputStale | rputEpochAhead | admitEpochSkew
  | ctxrecBad | rputFenced | replFenced | rputUnexpected | rputDup | rputAliasLost | rputWindow | ctxSpilled
  | fmemDup | fmemDupEvict | fmemPoisonIn | joinMismatch | rootMismatch | expressRefused | budgetFloorPeriods
  | tokenLapse | powerOverCap | powerOverMax | arbLogFull | testAborted | arbUnresolved | arbNoArbiter | arbOriginal
  | arbInput | arbChecker | testSkipped | testBudgetDefer | holdLost | probeStarved | probeFail | fuseRepairParity
  | mgmtUntimed | mgmtReject | sampleDrop | tdSlots | tdPending | tdRetired | tdWasted | tdFront | tdBack
deriving DecidableEq, Repr

/-! ### Power and bring-up (14, 15) -/

/-- Table 14-3. -/
inductive PowerState where
  | unpowered | precharge | bringup | operational | inReset | removing | ready | stopped | saving
deriving DecidableEq, Repr

/-- Which FET opening waits for its restart (14 R368). -/
inductive FetWait where
  | none | overcurrent | overvoltage
deriving DecidableEq, Repr

structure Power where
  state : PowerState := .bringup
  phase : Nat := 0
  thermalStop : Bool := false
  /-- the IOD no longer runs after a fatal stop (06 Table 6-7) -/
  iodStopped : Bool := false
  inputMv : Nat := 48000
  lowLine : Bool := false
  fetOn : Bool := true
  /-- an overcurrent opening has been, and the second within 60 s has latched the FET (14 R368) -/
  ocOpened : Bool := false
  fetLatched : Bool := false
  fetWait : FetWait := .none
  present : Bool := true
  resetLow : Bool := false
  ppContact : Bool := false
  removeCmd : Option CmdRef := none
  /-- the ports drain for the removal (14 R377, step 4) -/
  draining : Bool := false
  /-- bring-up fell back once at P3 (15 R395) -/
  refallen : Bool := false
deriving DecidableEq, Repr

/-- The Lantern page (16 Table 16-2); POWER_STATE, PHASE and LOW_LINE are read from `Power`. -/
structure Lantern where
  gen : W32 := 0
  stopPhase : Byte := 0
  stopCause : Byte := 0
  featureLevel : BitVec 4 := 0xF
  die : Byte := 0xFF
  stack : Byte := 0xFF
  subsys : Byte := 0
  partno : W16 := 0
  stepping : BitVec 24 := 0xFFFFFF
  serial : BitVec 128 := 0
  oeMissing : Byte := 0
  stacksLost : BitVec 20 := 0
  fittedOe : Byte := 0
  fittedHbm : BitVec 20 := 0
  profileStatus : Byte := 0
  inForce : BitVec 2 := 0
  countersRestored : Bool := false
  saveComplete : Bool := false
  ridgepoleBelow : Bool := false
  slotFallback : BitVec 4 := 0
  portageInconsistent : W64 := 0
  release : W64 := 0
  slot : BitVec 4 := 0
  infra : W32 := 0
deriving DecidableEq, Repr

/-! ### Events, audit, counters (13) -/

/-- An event record's code and payload words (13 Table 13-9). -/
structure Ev where
  code : W16
  p : List W64 := []
  time : W64 := 0
deriving DecidableEq, Repr

/-- Roles of sessions (13 Table 13-1). -/
inductive Role where
  | none | operator | installer | maker | module
deriving DecidableEq, Repr

/-- An audit record: bytes 0-79 as one little-endian number, and CHAIN (13 Table 13-4). -/
structure AuditRec where
  body : BitVec 640
  chain : BitVec 384
deriving DecidableEq, Repr

structure Audit where
  chain : BitVec 384 := 0
  seq : W64 := 0
  ring : List AuditRec := []
  blocks : List (W64 × List Byte) := []
  since : Nat := 0
  lastCheckpoint : W64 := 0
  unsigned : List AuditRec := []
  buffered : List (BitVec 640) := []
  lost : Nat := 0
deriving DecidableEq, Repr

/-! ### Host interfaces (11, 16) -/

/-- A completion as the module makes it, before PHASE is set (11 Table 11-7). -/
structure Compl where
  status : Byte
  ring : Fin 64
  iface : Fin 2
  idx : W32
  cookie : W64
  d0 : W64 := 0
  d1 : W64 := 0
  irq : Bool := false
deriving DecidableEq, Repr

/-- Descriptor states (11 Table 11-9); a DONE descriptor leaves the list. -/
inductive DState where
  | queued | running | preempted | parked | ready | waiting | done
deriving DecidableEq, Repr

/-- A fetched descriptor: index, 512 bits, state, role it started under, host bytes that have arrived,
bytes done, entries written and refused, LAST_STEP at start, faulting page. -/
structure Desc where
  idx : W32
  w : BitVec 512
  st : DState := .queued
  role : Role := .none
  session : W32 := 0
  buf : List Byte := []
  done : Nat := 0
  written : Nat := 0
  noRoom : Nat := 0
  step0 : W64 := 0
  page : Nat := 0
  reqSent : Bool := false
  /-- a Success response has come for the faulting page (11 R297) -/
  retried : Bool := false
  /-- a streamed record was refused (04 R100, 11 R293) -/
  bad : Bool := false
  aux : Nat := 0
  /-- the interface was reset: no entry is written (14 R374) -/
  mute : Bool := false
  /-- completion ring of a takeover: interface and ring (11 R302) -/
  dest : Option (Fin 2 × Nat) := none
  /-- done, its completion behind those of the old ring before it (11 R302) -/
  ended : Option Compl := none
deriving DecidableEq, Repr

/-- Command-ring states (16 Table 16-4). -/
inductive RState where
  | disabled | enabled | draining | stopped | released | takenOver
deriving DecidableEq, Repr

structure CmdRing where
  base : BitVec 52 := 0
  enable : Bool := false
  prio : BitVec 2 := 0
  log2 : BitVec 5 := 6
  state : RState := .disabled
  cause : BitVec 4 := 0
  fetch : W32 := 0
  session : W32 := 0
  descs : List Desc := []
deriving DecidableEq, Repr

structure CqRing where
  base : BitVec 52 := 0
  enable : Bool := false
  format : Bool := false
  log2 : BitVec 5 := 6
  state : RState := .disabled
  cause : BitVec 4 := 0
  pi : W32 := 0
  ci : W32 := 0
  held : List Compl := []
deriving DecidableEq, Repr

structure Msix where
  mask : Bool := true
  data : W32 := 0
  addr : BitVec 62 := 0
  pending : Bool := false
deriving DecidableEq, Repr

/-- Mailbox states (16 Table 16-7). -/
inductive MbState where
  | idle | receiving | running | answer
deriving DecidableEq, Repr

structure Mailbox where
  session : W32 := 0
  op : Byte := 0
  first : Bool := false
  last : Bool := false
  partLen : BitVec 12 := 0
  state : MbState := .idle
  status : Byte := 0
  refused : Byte := 0
  part : Nat := 0
  data : List Byte := []
  req : List Byte := []
  reqSession : W32 := 0
  reqOp : Byte := 0
  ans : List Byte := []
  dropAnswer : Bool := false
  tooLong : Bool := false
  /-- role and contact as they were when the operation started to run (17 Table 17-9) -/
  reqRole : Role := .none
  reqContact : Bool := false
deriving DecidableEq, Repr

/-- A running TELE STREAM (11 R303, 13 R358). -/
structure TStream where
  period : Nat
  list : List W64
  seq : W32 := 0
deriving DecidableEq, Repr

structure Iface where
  pollT : BitVec 17 := 1000
  priTimeout : BitVec 14 := 100
  regReject : Bool := false
  telError : Bool := false
  evtError : Bool := false
  dbError : Bool := false
  crError : W64 := 0
  cqError : W64 := 0
  errMask : BitVec 6 := 0
  rejectCode : Byte := 0
  rejectOffset : W32 := 0
  dbBase : BitVec 53 := 0
  rings : Map CmdRing := []
  cqs : Map CqRing := []
  evt : CqRing := { log2 := 10 }
  tel : CqRing := { log2 := 10 }
  msix : Map Msix := []
  mailbox : Mailbox := {}
  linkUp : Bool := false
  /-- PRI Enable of the function's configuration space (entry 3) -/
  priEnabled : Bool := true
  tcache : List Nat := []
  /-- invalidations whose completion waits for a unit in transfer (11 R296) -/
  invHeld : Nat := 0
  pageReqs : List CmdRef := []
  running : Option CmdRef := none
  lastRing : Nat := 0
  evtSeq : W32 := 0
  /-- entries written since the last signal of vectors 64 and 65 (16 R408) -/
  evtOwed : Bool := false
  telOwed : Bool := false
  stream : Option TStream := none
  /-- hall times of failed openings that may still count (13 R341) -/
  failures : List Nat := []
  lockout : Bool := false
deriving DecidableEq, Repr

/-! ### Security (13) -/

structure Session where
  id : W32
  role : Role
  key : W16
  /-- role of the key it was opened with -/
  opened : Role
  /-- the mailbox it was opened through; none for a ring -/
  path : Option MbRef
deriving DecidableEq, Repr

/-- An outstanding challenge of a ring (some r) or of a mailbox (none) (13 R340). -/
structure Challenge where
  owner : MbRef
  /-- command ring, none for a mailbox -/
  ring : Option (Fin 64)
  bytes : List Byte
deriving DecidableEq, Repr

structure KeyRec where
  id : W16
  record : List Byte
deriving DecidableEq, Repr

/-- A firmware slot: what its image header and body give (13 Table 13-5, R349, R350). -/
structure FwSlot where
  filled : Bool := false
  release : W16 := 0
  svn : W32 := 0
  hiMinor : Byte := 2
  loMinor : Byte := 1
  lowStep : Byte := 0
  digest : BitVec 384 := 0
  bodyOk : Bool := false
deriving DecidableEq, Repr

structure FwImage where
  slotA : FwSlot := { filled := true, release := 1, bodyOk := true }
  slotB : FwSlot := {}
  active : Bool := false
  floor : W32 := 0
  approvals : List (BitVec 384) := []
deriving DecidableEq, Repr

/-- A running activation: image, slot, steps ended, the command (13 R351). -/
structure Activation where
  image : Nat
  slot : Bool
  step : Nat := 0
  cmd : CmdRef
deriving DecidableEq, Repr

structure Sec where
  sessions : List Session := []
  challenges : List Challenge := []
  operKeys : List KeyRec := []
  instKeys : List KeyRec := []
  plane0 : Option (List Byte) := none
  plane1 : Option (List Byte) := none
  mgmtBoxes : List (MbRef × Mailbox) := []
  fw : List FwImage := [{}, {}, {}, {}]
  activation : Option Activation := none
  /-- measurement 6 of Table 13-7, taken at P2 and at every fuse write -/
  fuseDigest : BitVec 384 := 0
  audit : Audit := {}
deriving DecidableEq, Repr

/-! ### Tables (03, 04, 05, 10) -/

/-- A shadow bank as it stood before the running bulk load, put back when a record is BAD_DESC (04 R100, 05 R131):
contents, dirty flag, indices written again, the kept weights of 10 R280, and the flags of 03 R427. -/
structure LoadUndo (n : Nat) where
  shadow : Map (BitVec n)
  dirty : Bool
  rewritten : List Nat
  kept : List (Nat × Nat × BitVec 2048)
  congMark : List Nat := []
deriving DecidableEq, Repr

/-- A two-bank table of entries by index; entries not listed hold the table's reset value (01 R19, R20). -/
structure Banked (n : Nat) where
  a : Map (BitVec n) := []
  b : Map (BitVec n) := []
  active : Bool := false
  dirty : Bool := false
  /-- indices of the dirty shadow bank written again (01 R20) -/
  rewritten : List Nat := []
  /-- the command whose shadow-bank write is running (bulk load, rehash), 01 R20 -/
  writer : Option CmdRef := none
  undo : Option (LoadUndo n) := none
deriving DecidableEq, Repr

/-- One bank of an exact-match table: seed, entries by 4 × bucket + slot, overflow store by position (04 Table 4-6). -/
structure HashBank (n : Nat) where
  seed : W32 := 0
  slots : Map (BitVec n) := []
  store : Map (BitVec n) := []
deriving DecidableEq, Repr

structure Hashed (n : Nat) where
  a : HashBank n := {}
  b : HashBank n := {}
  active : Bool := false
  dirty : Bool := false
  writer : Option CmdRef := none
deriving DecidableEq, Repr

/-- Port-table entries (01 R21). -/
structure LpEntry where
  enable : Bool := false
  hold : Bool := false
  drain : Bool := false
deriving DecidableEq, Repr

/-- Kind of a port group: ALP or a gateway PMD (06 R148), as numbered in Table 16-11. -/
structure PhysEntry where
  split : Nat := 0
  gkind : Nat := 0
  blank : Bool := false
deriving DecidableEq, Repr

structure PortBank where
  lp : Map LpEntry := []
  phys : Map PhysEntry := []
deriving DecidableEq, Repr

/-- A change CLP makes to the Pod and local-attach tables (10 R267, R269, R280). -/
inductive ClpChange where
  | thermal
  | expressOn (l peer : Nat)
  | expressOff (l : Nat)
deriving DecidableEq, Repr

/-- What an entry of bank `tbl` (2 × table + bank) held for an express port: membership, weight, KIND. -/
structure ExpSave where
  tbl : Nat
  idx : Nat
  port : Nat
  member : Bool
  weight : Nat
  kind : Nat
deriving DecidableEq, Repr

structure Tables where
  pod : Banked 2624 := {}
  rack : Banked 576 := {}
  loc : Banked 2624 := {}
  group : Hashed 128 := {}
  gw : Hashed 512 := {}
  settSel : Banked 8 := {}
  portNode : Banked 256 := {}
  classNode : Banked 256 := {}
  pcpMap : Banked 64 := {}
  streamMap : Banked 32 := {}
  profile : Banked 256 := {}
  cong : Banked 256 := {}
  /-- profiles whose DROP acts as MARK until they are rewritten, by 2 × index + bank (03 R427) -/
  congMark : List Nat := []
  portA : PortBank := {}
  portB : PortBank := {}
  portActive : Bool := false
  /-- TABLE commands that wait for a bulk load, rehash or CLP change, oldest first (11 R291) -/
  waiting : List CmdRef := []
  /-- host-written weights kept while an engine's emergency holds: (2 × table + bank, index, WEIGHT) (10 R280) -/
  kept : List (Nat × Nat × BitVec 2048) := []
  /-- entries as they were before an express link changed them (10 R267) -/
  expSaved : List ExpSave := []
  /-- CLP changes that wait for a bulk load of their table (10 R269) -/
  clpOwed : List (Nat × ClpChange) := []
  /-- hall time of the last REHASH_REQUEST of a table (04 R119) -/
  rehashAt : Map Nat := []
  /-- learning events per die in a microsecond of hall time: microsecond and count (04 R118) -/
  learned : Map (Nat × Nat) := []
deriving DecidableEq, Repr

/-! ### Portage (06) -/

/-- One cell write: side (true: transmit), row, column, on or off (06 R160). -/
structure CellWrite where
  tx : Bool
  row : Nat
  col : Nat
  on : Bool
deriving DecidableEq, Repr

/-- Who asked OCB for a transition: a host command, CLP for a peer's express request, CLP on its own account, fallback. -/
inductive OcbSource where
  | host (r : CmdRef)
  | peer (acting peerIdx : Nat) (g p q : Nat)
  | clp
  | fallback
deriving DecidableEq, Repr

/-- A running transition of one group (06 R160, R161). -/
structure Transition where
  target : W32
  before : BitVec 128
  draining : List Nat
  todo : List CellWrite
  tries : Nat := 0
  back : Bool := false
  src : OcbSource
  /-- ports that leave through or return to it, physical numbers -/
  changing : List Nat
deriving DecidableEq, Repr

structure BypassEntry where
  partner : W32 := 0x76543210
  gen : W32 := 0
deriving DecidableEq, Repr

structure Portage where
  mapA : Map BypassEntry := []
  mapB : Map BypassEntry := []
  active : Bool := false
  cells : Map (BitVec 128) := []
  wear : Map Nat := []
  inconsistent : W64 := 0
  trans : Map Transition := []
  fallback : Map (W32 × Bool) := []
  dwell : List Nat := []
  deferred : List (Nat × W32) := []
  /-- groups left to finish, per host request -/
  open_ : List (CmdRef × List Nat × Bool) := []
  /-- PORT commands that wait for their ports (06 R149, R151, R156; 09 R249) -/
  portCmds : List CmdRef := []
deriving DecidableEq, Repr

/-! ### Ports and links (02, 06) -/

/-- Table 6-4. -/
inductive PState where
  | disabled | training | version | versionMismatch | up | draining | failed | circuit | noLightSource
deriving DecidableEq, Repr

inductive PReport where
  | none | versionMismatch | linkIdClash
deriving DecidableEq, Repr

/-- Why a port drains (06 R151). -/
inductive DrainCause where
  | mode | portage | laser | cartridge | remove | hold | admin | engine
deriving DecidableEq, Repr

/-- A copy of a buffered frame: the frame, the replication entry it was made for (04 R99, R107), and the CE and COLOUR
that this copy leaves with (02 R40). -/
structure Copy where
  fid : Nat
  repl : Option (Nat × W32) := none
  ce : Bool := false
  colour : BitVec 2 := 0
deriving DecidableEq, Repr

/-- A launched frame on its way to the fibre: the copy (none: an LCTRL frame), wire bytes, bytes already in groups (02 R57). -/
structure TxFrame where
  copy : Option Copy
  bytes : Nat
  sent : Nat := 0
deriving DecidableEq, Repr

/-- A group in the replay buffer: frames whose header lies in it, frames whose tail does, words of LCTRL frames in it, and
the idle words that fill it (02 R35, R61). -/
structure TxGroup where
  gseq : BitVec 12
  heads : List Copy := []
  tails : List Nat := []
  lctrl : Nat := 0
  idle : Nat := 0
deriving DecidableEq, Repr

/-- Bivouac hold of a port: allotted reserve bytes, used bytes, left UP during the hold, waiting for the drain's end. -/
structure Hold where
  allot : Nat
  used : Nat := 0
  leftUp : Bool := false
  entering : Bool := true
deriving DecidableEq, Repr

structure LPort where
  state : PState := .disabled
  report : PReport := .none
  light : Bool := false
  lock : Bool := false
  minor : Nat := 2
  peerId : W32 := 0
  chosen : Option Nat := none
  applyGseq : BitVec 12 := 0
  lstateOut : BitVec 4 := 0
  peerDraining : Bool := false
  gseq : BitVec 12 := 0
  replay : List TxGroup := []
  tx : List TxFrame := []
  rot : Nat := 0
  /-- group last asked for again, hall times of its requests, and its replay not over (02 R61, R62) -/
  reqSeq : BitVec 12 := 0
  reqTimes : List Nat := []
  replaying : Bool := false
  rxNext : BitVec 12 := 0
  ackSeq : BitVec 12 := 0xFFF
  retry : Option (BitVec 12) := none
  /-- a header of the group now arriving failed HCRC (02 R60) -/
  badGroup : Bool := false
  /-- frames whose header, and frames whose tail, came in the group now arriving (02 R60) -/
  rxHere : List Nat := []
  rxTails : List Nat := []
  /-- headers of a discarded group by their order in it: the frame, when it had already left, none when it was withdrawn -/
  rxSeen : List (Option Nat) := []
  limitOut : List Nat := [0, 0, 0, 0, 0, 0, 0, 0]
  received : List Nat := [0, 0, 0, 0, 0, 0, 0, 0]
  limitIn : List Nat := [0, 0, 0, 0, 0, 0, 0, 0]
  sent : List Nat := [0, 0, 0, 0, 0, 0, 0, 0]
  occ : List Nat := [0, 0, 0, 0, 0, 0, 0, 0]
  drain : Option DrainCause := none
  hold : Option Hold := none
  /-- Bivouac bytes still allotted after the hold, until the reserve is empty (09 R251) -/
  allotLeft : Nat := 0
  rxFid : Option Nat := none
  launch : Option Nat := none
  launchCopy : Option Copy := none
  /-- next-hop MAC and remote IP of the datagram in launch, looked up at its launch (04 R112, R115) -/
  launchHop : Option (Nat × Nat) := none
  timeId : Byte := 0
  timeOut : Option (Byte × W64 × W16) := none
  express : Option Nat := none
  pfcOff : List Nat := []
  uncred : List Nat := [0, 0, 0, 0, 0, 0, 0, 0]
deriving DecidableEq, Repr

inductive CartState where
  | absent | inserted | atPower | prepared
deriving DecidableEq, Repr

inductive LaserState where
  | ok | degraded | spared | lost
deriving DecidableEq, Repr

structure Cart where
  state : CartState := .inserted
  /-- lasers by 4 × wavelength + k -/
  lasers : Map LaserState := []
  /-- the laser that a wavelength's spare stands in for, or is being switched to stand in for -/
  spare : Map Nat := []
  cmd : Option CmdRef := none
deriving DecidableEq, Repr

/-! ### Forwarding core and traffic manager (03, 05) -/

/-- Where a buffered frame came from (03 R73, R77). -/
inductive Origin where
  | alp (l : Nat) (vl : Nat)
  | udp (l : Nat)
  | eth (l cls : Nat)
  /-- by the Sett named, or by a memory controller or the IOD -/
  | own (die : Nat) (fromShared : Bool) (sett : Option Nat)
deriving DecidableEq, Repr

/-- Local function a frame is for (02 Table 2-2, 08). -/
inductive Local where
  | fmem | mgmt | answer
  | sett (ctx : CtxKey)
  | encap (l : Nat)
deriving DecidableEq, Repr

/-- A frame in the cell buffer (03 R72, R79). -/
structure BufFrame where
  fid : Nat
  origin : Origin
  die : Nat
  hdr : Hdr
  ext : BitVec 128 := 0
  rest : Option Rest := none
  eth : Option Eth := none
  cells : Nat
  /-- copies not yet launched, or taken by the local function -/
  copies : Nat := 0
  here : Option Local := none
  /-- verdict of the chunk's CONF, written into a LATE tail for a 3.1 or 3.0 link (02 R48) -/
  verdict : Option Byte := none
  /-- copies that an underrun ended before the tail: their part of the cells goes with the tail (03 R82) -/
  under : Nat := 0
deriving DecidableEq, Repr

/-- A queue entry: copy, egress logical port, class, stream key and profile, arrival order, ingress key (port × 8 + lane),
rate condition of R81 failed, in the Bivouac reserve, hall time of entry. -/
structure QEntry where
  copy : Copy
  lport : Nat
  cls : Nat
  stream : Nat
  sprof : Nat := 0
  seq : Nat := 0
  ingress : Option Nat := none
  slow : Bool := false
  held : Bool := false
  at_ : Nat := 0
  /-- its wait under R128 has been counted -/
  waited : Bool := false
deriving DecidableEq, Repr

/-- A limiter's levels in 1/256 byte: C (or K) and P (05 R132, R133, R136), and what additions have left over, in 1/CCLK of
that unit. -/
structure Limiter where
  c : Int := 0
  p : Int := 0
  cRem : Nat := 0
  pRem : Nat := 0
deriving DecidableEq, Repr

/-- Table 5-5. -/
structure Hwm where
  occ : Nat := 0
  occAt : W64 := 0
  soj : Nat := 0
  sojAt : W64 := 0
  nOver : Nat := 0
deriving DecidableEq, Repr

/-- A stream queue's descriptor: egress port, class, stream key, profile (05 R126, R127). -/
structure Stream where
  lport : Nat
  cls : Nat
  key : Nat
  prof : Nat
  lim : Limiter := {}
  deficit : Nat := 0
  hwm : Hwm := {}
deriving DecidableEq, Repr

/-- One die's cell pools (03 R73). -/
structure Pools where
  shared : Nat := 0
  orig : Nat := 4096
  replay : Nat := 0
  laneReserve : Nat := 0
deriving DecidableEq, Repr

/-- A frame that its originator holds until cells are free: the Sett, or 20 + the die of the controller, the frame, the copies
to make, and whether its wait for cells has been counted (03 R73). -/
structure OrigWait where
  key : Nat
  frame : BufFrame
  to_ : List (Option (Nat × W32))
  counted : Bool := false
deriving DecidableEq, Repr

structure Fwc where
  pools : List Pools := [{}, {}, {}, {}]
  frames : List BufFrame := []
  nextFid : Nat := 0
  /-- frames held by their originators, oldest first -/
  origWait : List OrigWait := []
  load : Map Nat := []
  drawIdx : List Nat := [0, 0, 0, 0]
deriving DecidableEq, Repr

structure Tms where
  queue : List QEntry := []
  nextSeq : Nat := 0
  avg : Map Nat := []
  portLim : Map Limiter := []
  classLim : Map Limiter := []
  classDef : Map Nat := []
  /-- child served last of each PRIO: by 4 × port + PRIO, and by 4 × (8 × port + class) + PRIO -/
  lastClass : Map Nat := []
  lastStream : Map Nat := []
  streams : List Stream := []
  classHwm : Map Hwm := []
  profHwm : Map Hwm := []
  /-- unallotted Bivouac reserve per die, bytes (09 R251) -/
  reserve : List Nat := [0, 0, 0, 0]
deriving DecidableEq, Repr

/-! ### Setts (07, 08, 10, 12) -/

inductive SettState where
  | inService | spare | subject | duplicate | quarantined
deriving DecidableEq, Repr

/-- What a SPARE serves as, or a Sett stands in for (12 R311, R315, R316). -/
inductive SettUse where
  | none | arbiter | partner (of : Nat) | standIn (of : Nat)
deriving DecidableEq, Repr

inductive TestPhase where
  | none | waiting | running
deriving DecidableEq, Repr

/-- A grant for a unit's next period: SCLK in MHz or cap in per cent, and the energy, pJ (01 R23). -/
structure Grant where
  step : Nat
  energy : Nat
deriving DecidableEq, Repr

structure Sett where
  state : SettState := .inService
  use : SettUse := .none
  /-- the Sett that stands in for this quarantined one (12 R316) -/
  heir : Option Nat := none
  sclk : Nat := 600
  /-- energy left in this period, pJ -/
  energy : Nat := 0
  /-- a grant that has arrived and takes effect at the next period boundary (01 R23) -/
  next : Option Grant := none
  /-- a lower SCLK that waits for the tail of the Sett's result frame in launch (03 R81) -/
  lower : Option Nat := none
  tj : Nat := 25
  ceil : Nat := 2100
  slots : Nat := 384
  resident : Nat := 256
  log : Nat := 0
  /-- CHK_DEGRADED: hall times, in ns, of its CHECKER_FAULT verdicts (12 R315) -/
  degraded : List Nat := []
  test : TestPhase := .none
  /-- periods since an input frame was accepted that still count, 4 down to 0 (10 R272) -/
  recent : Nat := 0
  /-- stream slots since the last evaluation, those of them that held work or were back-starved, and the share of the last
  100 us, in 10^-12 (10 R258) -/
  loadSlots : Nat := 0
  loadWork : Nat := 0
  loadAll : Nat := 0
deriving DecidableEq, Repr

/-- Index of a stage input (08 R216): a rank, a PRE pod by its lowest rank, a MODULE entry by its index. -/
inductive InIdx where
  | rank (r : Nat)
  | pod (lowest : Nat)
  | module (m : Nat)
deriving DecidableEq, Repr

/-- One accepted frame of an input's chunk, retained as it came (12 R308): position, element offset, header, extension,
payload, S, A, tail status; whether it has been accumulated; arrival order in the stage. -/
structure InFrame where
  k : Nat
  off : Nat
  hdr : Hdr
  ext : BitVec 128
  payload : List W64
  s : W64
  a : W64
  status : Nat
  added : Bool := false
  order : Nat := 0
deriving DecidableEq, Repr

/-- One input of a chunk stage: index, from the alias, its sender, frames, position of its CLAST frame, COMPLETE, confirmed
(02 R50), lost to its alias (08 R217), SPEC_WINDOW passed (03 R88). -/
structure Input where
  idx : InIdx
  alias_ : Bool := false
  src : W32 := 0
  frames : List InFrame := []
  last : Option Nat := none
  complete : Bool := false
  confirmed : Bool := false
  lost : Bool := false
  /-- a CONF with verdict GOOD came for it (02 R50) -/
  confGood : Bool := false
deriving DecidableEq, Repr

/-- A floating-point value: ±m × 2^e, an infinity or NaN. -/
inductive Num where
  | fin (neg : Bool) (m : Nat) (e : Int)
  | inf (neg : Bool)
  | nan
deriving DecidableEq, Repr

/-- An accumulator (07 Table 7-5): a float; a saturating integer with its wrapping copy (07 R194), whose pattern the bitwise
operators use; an EXACT fixed-point or 96-bit integer with its special state (07 R426: 0 none, 1 +Inf, 2 -Inf, 3 NaN);
a MINLOC or MAXLOC pair as value and location bits. -/
inductive Acc where
  | num (x : Num)
  | int (v : Int) (wrap : W64)
  | fixed (v : Int) (sp : Nat)
  | pair (v loc : W64)
deriving DecidableEq, Repr

inductive Verdict where
  | pending | good | chkfail
deriving DecidableEq, Repr

/-- A result frame of a stage, by position: its first element, payload, S and A. -/
structure OutFrame where
  k : Nat
  off : Nat
  payload : List W64
  s : W64
  a : W64
deriving DecidableEq, Repr

/-- One chunk stage at its Sett. -/
structure Stage where
  key : StageKey
  inputs : List Input := []
  /-- accumulators by element, those of projected partials after them; empty: nothing added yet -/
  acc : List (Option Acc) := []
  /-- ranges already summed in ORDERED -/
  ordDone : Nat := 0
  /-- projected accumulators, once the PROJECT pass has run (07 R185) -/
  proj : List (Option Acc) := []
  /-- arrival log: passes, each the (input, position) pairs in row order (12 R308) -/
  log : List (List (InIdx × Nat)) := []
  nextOrder : Nat := 0
  out : List OutFrame := []
  verdict : Verdict := .pending
  /-- the CLAST frame has been handed on, and the buffered frame that carries it -/
  clastSent : Bool := false
  clastFid : Nat := 0
  /-- result frames handed on, so that a discarded result can be withdrawn (03 R89) -/
  sentFids : List Nat := []
  confSent : Bool := false
  /-- members answered with the result before its verdict: the DST, and the buffered CLAST frame sent there (08 R219) -/
  askers : List (W32 × Nat) := []
  confirmed : Bool := false
  /-- Sett that recomputes the stage (12 R311) -/
  arb : Option Nat := none
  /-- the result was released by an arbitration (12 R314) -/
  released : Bool := false
  /-- result frames are sent again with RETX = 1 (03 R89) -/
  resend : Bool := false
  /-- its wait for SPECHOPS has been counted (03 R87) -/
  hopsHeld : Bool := false
  /-- place in the order in which stages became complete (08 R221) -/
  doneSeq : Option Nat := none
  /-- work slots that await the chunk's verdict, and the front-starved and back-starved slots of the same units (13 R359) -/
  pendingSlots : Nat := 0
  frontSlots : Nat := 0
  backSlots : Nat := 0
  /-- new state staged by UPDATE, element by element (07 R189) -/
  newState : List W32 := []
  /-- held back under GUARD, or read from a window that already has this step (07 R190, R191) -/
  noWrite : Bool := false
  /-- the region's new state is written, or owed to the buddy's acknowledgement (09 R244) -/
  written : Bool := false
  owed : Bool := false
deriving DecidableEq, Repr

/-! ### Collectives (08) -/

structure Member where
  ep : W32
  alias_ : W32 := 0
  fenced : Bool := false
  aliasv : Bool := false
  suspect : Bool := false
  /-- SUSPECT because its pod has no live candidate (12 R319) -/
  noPath : Bool := false
  fepoch : W32 := 0
deriving DecidableEq, Repr

/-- Table 8-4: kind 0 POD, 1 ENDPOINT, 2 MODULE. -/
structure Repl where
  kind : Nat
  pre : Bool := false
  live : Nat := 0
  target : W32
deriving DecidableEq, Repr

/-- A policy slot: the 128-byte record, weights, projection, step descriptor (08 R203). -/
structure Policy where
  params : BitVec 1024
  weights : List W32 := []
  proj : List W32 := []
  step : BitVec 512 := 0
deriving DecidableEq, Repr

inductive GState where
  | creating | active | destroying
deriving DecidableEq, Repr

structure Group where
  addr : W32
  state : GState := .active
  epoch : W32
  members : List Member
  repl : List Repl
  policies : Map Policy := []
  oplow : Nat := 0
deriving DecidableEq, Repr

/-- Table 8-7. -/
inductive CState where
  | admitting | waitOpen | running | passThrough | closed
deriving DecidableEq, Repr

/-- A chunk's result on its way down (03 R86): positions whose frames arrived good, that of its CLAST frame, whether that was
LATE, and whether a CONF with verdict GOOD came for it. -/
structure Down where
  chunk : Nat
  ks : List Nat := []
  last : Option Nat := none
  late : Bool := false
  conf : Bool := false
deriving DecidableEq, Repr

/-- A context: key, state, and the fields of Table 8-6 that are not its (P) record. -/
structure Ctx where
  key : CtxKey
  st : CState := .admitting
  valid : Bool := false
  /-- the policy record whose (P) fields the descriptor copies -/
  pol : BitVec 1024
  weights : List W32 := []
  proj : List W32 := []
  step : BitVec 512 := 0
  epoch : W32
  alg : Nat := 0
  levelc : Bool := false
  nchunk : Nat := 1
  nin : Nat := 0
  rootmod : Nat := 0
  sett : Nat := 0
  chunklog : Nat := 12
  depth : Nat := 1
  prio : Nat := 0
  sprof : Nat := 0
  deadline : Nat := 10000
  ownn : Nat := 0
  expect : List InIdx := []
  /-- reservation: step of R223 (0 none), SRAM slots, spill slots -/
  grant : Nat := 0
  sram : Nat := 0
  spill : Nat := 0
  /-- slots that the predecessor of a trim still names (10 R261): SRAM, spill -/
  trim : Nat × Nat := (0, 0)
  succ : Option Nat := none
  /-- SPROF, PRIO and DEADLINE of the successor, until the Sett moves to it (08 R205, 01 R22) -/
  nextPol : Option (Nat × Nat × Nat) := none
  /-- DEPTH and ALG of the successor, where they differ (01 R22) -/
  nextDepth : Option Nat := none
  nextAlg : Option Nat := none
  /-- the group's aliased ranks and replication list at open (08 R202) -/
  aliases : List Nat := []
  repl : List Repl := []
  opened : W64 := 0
  /-- ADMIT records received: module, REDUCED, DEPTH -/
  admits : List (Nat × Bool × Nat) := []
  fencedSince : List Nat := []
  /-- PRE pods whose LIVE fell to 0 since open, by lowest rank (08 R214) -/
  podsGone : List Nat := []
  flags : BitVec 6 := 0
  confirmed : List Nat := []
  passed : List Nat := []
  /-- chunks whose result is on its way down and not confirmed -/
  down : List Down := []
  /-- senders of an aliased rank that lost a chunk to the other: chunk, rank, from the alias (08 R217) -/
  losers : List (Nat × Nat × Bool) := []
  /-- RPUT frames that wait in the cell buffer (08 R207) -/
  waiting : List Nat := []
  started : List Nat := []
  /-- the step descriptor has gone to the other copy (09 R244) -/
  slotSent : Bool := false
  since : W64 := 0
deriving DecidableEq, Repr

structure Coll where
  /-- group descriptors by index -/
  groups : Map Group := []
  ctxs : List Ctx := []
  stages : List Stage := []
  closed : List (CtxKey × Byte) := []
  spillFree : Nat := 0
  /-- stages that have become complete -/
  doneSeq : Nat := 0
  /-- regions of closed contexts and groups waiting for their scrub: spill slots, table bytes (10 R281) -/
  scrub : List (Nat × Nat) := []
  createWait : List CmdRef := []
  features : Map Nat := []
deriving DecidableEq, Repr

/-! ### Fabric memory (09) -/

/-- Table 9-3. -/
inductive WState where
  | active | primary | secondary | solo | syncing | shadow | stateLost | detached
deriving DecidableEq, Repr

structure Join where
  peer : Nat
  /-- regions written since they were copied (survivor), and the copy complete -/
  dirty : List Nat := []
  shadow : Bool := false
  matches_ : Nat := 0
  mismatches : Nat := 0
  /-- last step that had begun when the copy ended (survivor) -/
  after : W64 := 0
  /-- step under comparison, its regions whose digests have matched, and the last step of which all matched -/
  step : W64 := 0
  seen : List Nat := []
  full : Option W64 := none
deriving DecidableEq, Repr

/-- Window descriptor (09 Table 9-2) with its step slots and region steps. -/
structure Window where
  state : WState := .active
  update : Bool := false
  rdonly : Bool := false
  rule : Nat := 0
  group : Nat := 0
  bplane : Nat := 0
  buddy : Nat := 0
  wplane : Nat := 0
  witness : Nat := 0
  planemask : Byte := 0xFF
  podlo : Nat := 0
  podhi : Nat := 510
  size : Nat := 0
  base : Nat := 0
  units : Nat := 0
  rp : Nat := 0
  nregion : Nat := 0
  lastStep : W64 := 0
  slots : Map (BitVec 512) := []
  regionStep : Map W64 := []
  joining : Option Join := none
  soloAsked : Bool := false
  /-- gradient words of regions still arriving at a buddy's copy, and acknowledgements they owe: SRC and TAG by region -/
  grad : Map W32 := []
  gradAck : Map (W32 × W16) := []
  /-- a stack loss took units of it: its memory is not operational (12 R326) -/
  damaged : Bool := false
  /-- step slot that holds the descriptor of the buddy's step -/
  lastSlot : Option Nat := none
deriving DecidableEq, Repr

/-- What a live duplicate-filter entry answers (09 R234). -/
structure DupEntry where
  src : W32
  tag : W16
  wid : Nat
  off : Nat
  atomic : Bool
  old : W64 := 0
deriving DecidableEq, Repr

/-- A frame the module originated and whose answer it waits for (02 R32). -/
inductive Sent where
  /-- mirror write: window, offset, bytes, requester's answer (SRC, TAG, kind: 0 none, 1 ACK, 2 ATOMRESP, old value) -/
  | mirror (wid off len : Nat) (src : W32) (tag : W16) (kind : Nat) (old : W64)
  | stepSlot (wid : Nat)
  | gradient (wid region : Nat) (step : W64)
  | join (wid : Nat)
  | digest (wid region : Nat) (step : W64)
deriving DecidableEq, Repr

/-- A mirror write that waits for its 64-byte line's earlier one (09 R237): window, offset, words, requester's answer. -/
structure LaterWrite where
  wid : Nat
  off : Nat
  words : List W64
  src : W32
  tag : W16
  kind : Nat
  old : W64
deriving DecidableEq, Repr

structure Mss where
  windows : Map Window := []
  mem : List Host.Cell := []
  dup : List DupEntry := []
  sent : List (W16 × Sent) := []
  /-- mirror writes that wait for their line's acknowledgement -/
  later : List LaterWrite := []
  nextTag : W16 := 0
  /-- pairs (window, copy index) the witness granted SOLO, and pairs it knows -/
  granted : List (Nat × Nat) := []
  partGB : List Nat := [0, 0, 0, 0, 0, 0]
  fmemUnits : Nat := 0
deriving DecidableEq, Repr

/-! ### Integrity (12) -/

inductive DenState where
  | active | standby | testing | loading | failed
deriving DecidableEq, Repr

inductive StackState where
  | service | draining | testing | copyBack | lost | retired | absent
deriving DecidableEq, Repr

structure Integ where
  denA : DenState := .active
  denB : DenState := .standby
  stackSt : Map StackState := []
  ce : Map Nat := []
  headroomUsed : Bool := false
  lastSubject : Map Nat := []
  /-- SUBJECT that borrows a neighbour die's SPARE, and that SPARE (12 R328) -/
  borrowed : List (Nat × Nat) := []
  probeSeq : W64 := 0
  /-- hall time of the last probe, and of the last failed one, of path 512 × die + port (12 R332, R333) -/
  probeAt : Map Nat := []
  probeFails : Map Nat := []
  xbarBad : List Nat := []
  /-- Ridgepole block 192 × die + block: lanes mapped to its spares; blocks out of service, and those out when P2 set the roles -/
  blockLanes : Map (List Nat) := []
  bootDown : List Nat := []
  blockDown : List Nat := []
  arbTestNext : List Nat := []
deriving DecidableEq, Repr

/-! ### Budget and thermal (10, 14) -/

structure Budget where
  cap : Nat := 3000
  settDemand : Map Nat := []
  hbmDemand : Map Nat := []
  hbmCap : Map Nat := []
  /-- energy of the HBM controllers' grants in force, pJ, and their next grants (01 R23) -/
  hbmEnergy : Map Nat := []
  hbmNext : Map Grant := []
  hbmCeil : Map Nat := []
  hbmTemp : Map Nat := []
  lastRaised : Nat := 39
  belowFloor : Bool := false
  excess : Nat := 0
  maxLeft : Nat := 0
  oeTemp : Map Nat := []
  emergency : List Nat := []
  /-- Level C bytes since the last measurement, per peer (10 R265) -/
  levelC : Map Nat := []
  above : Map Nat := []
  below : Map Nat := []
  /-- express request to a peer: 1, 2 candidate asked; 3, 4 circuit through it stands (10 R265) -/
  tried : Map Nat := []
  /-- measurements left before a pair is tried again -/
  expWait : Map Nat := []
  satPeers : List Nat := []
  /-- hall times of PLACEMENT_HINT by 512 × group address + pod (10 R263) -/
  hintAt : Map Nat := []
  satDies : List Nat := []
  satHbm : List Nat := []
deriving DecidableEq, Repr

/-! ### Hall time (13) -/

inductive ClkState where
  | free | locked | holdover
deriving DecidableEq, Repr

structure Clock where
  ns : W64 := 0
  frac : W16 := 0
  state : ClkState := .free
  dist : Byte := 255
  /-- logical port of the parent, 0xFFFF for the management port -/
  parent : Option Nat := none
  firstLock : Bool := false
  /-- filtered offset still to be slewed, in 2^-16 ns, and the hall time since which it has stayed within 5 ns -/
  offset : Int := 0
  settled : Option Nat := none
  /-- DIST that each candidate offers -/
  cands : Map Nat := []
deriving DecidableEq, Repr

/-! ### The installer profile (16) -/

structure Profile where
  homePlane : Nat := 0
  moduleIndex : Nat := 0
  hallId : Nat := 0
  cclk : Nat := 2000
  sclkMax : Nat := 1800
  cap : Nat := 3000
  portageOwner : W64 := 0
  contextStore : Nat := 16
  tablesMembers : Nat := 8
  logs : Nat := 1
  bivouac : Nat := 256
  spill : Nat := 64
  headroom : Nat := 72
  ridgepole : List Nat := [0x382020, 0x382020, 0x382020, 0x382020]
  alpha : Int := -2
  sharedCap : Nat := 8192
  uncreditedFloor : Nat := 32768
  pfcXoff : Nat := 2048
  pfcXon : Nat := 1024
  specWindow : Nat := 200
  holdCellCap : Nat := 65536
  agingT : Nat := 300
  tree1Max : Nat := 262144
  chunkDefault : Nat := 18
  depthDefault : Nat := 8
  admitWindow : Nat := 50
  resendT : Nat := 100
  satLoad : Nat := 900
  satT : Nat := 1000
  urgentT : Nat := 2000
  suspectT : Nat := 2000
  dupwin : Nat := 1000
  buddyTimeout : Nat := 1000
  copyRate : Nat := 400
  joinK : Nat := 8
  holdLimit : Nat := 20
  expressRate : Nat := 400
  expressHold : Nat := 100
  expressHoldSat : Nat := 10
  expressDwell : Nat := 1000
  testPeriod : Nat := 10
  denTestPeriod : Nat := 24
  stackTestPeriod : Nat := 7
  ceLimit : Nat := 1000
  drainRate : Nat := 200
  sessionLife : Nat := 720
  mgmtUdp : Nat := 0x5A48
  maxDist : Nat := 7
  holdoverLimit : Nat := 60
  ptpDomain : Nat := 0
  ptpPrio1 : Nat := 128
  ptpPrio2 : Nat := 128
  /-- sections of Table 16-10, entries not listed at their default -/
  portMap : Map W64 := []
  gateway : Map (BitVec 512) := []
  expressPlan : List W64 := []
  fallback : Map (BitVec 128) := []
  mgmtPort : BitVec 256 := 0
deriving DecidableEq, Repr

structure Profiles where
  inForce : Profile := {}
  inForceRaw : List Byte := []
  /-- the last profile accepted (15 R395) -/
  last : Option (Profile × List Byte) := none
  staged : Option (Profile × List Byte) := none
  refused : Bool := false
deriving DecidableEq, Repr

/-! ### Facts that MRAM keeps across power loss (14, 12, 13) -/

structure Mram where
  saveComplete : Bool := false
  /-- hall time in the SAVE_COMPLETE marker (14 Table 14-7) -/
  saveTime : W64 := 0
  epochFloors : List (W32 × W32) := []
  counterSnapshot : Option (List (Ctr × Nat × Nat)) := none
  eventLog : List Ev := []
  quarantine : List Nat := []
  laneMap : Map (List Nat) := []
  gapOwed : Bool := false
  bootCount : W64 := 0
deriving DecidableEq, Repr

/-- What waits for the control plane: a command, a management frame, an admission window that has passed, a change of CLP's own
(01 Table 1-5). -/
inductive CtlItem where
  | cmd (r : CmdRef)
  | frame (fid : Nat)
  | window (c : CtxKey)
  /-- EXPRESS_DWELL has passed for a bypass group -/
  | dwell (g : Nat)
  | clp (t : Nat) (c : ClpChange)
  /-- the Sett-selection table is to be flipped for Setts that have left or come back -/
  | select
deriving DecidableEq, Repr

structure Planes where
  dataRestart : Bool := false
  controlRestart : Bool := false
  mgmtRestart : Bool := false
  ctlQueue : List CtlItem := []
deriving DecidableEq, Repr

/-- What the module puts on its fibres, host links, management port (the model's own record, entry 11). -/
inductive Out where
  /-- a group: the control slices of its 16 codewords, frames whose header and whose tail lie in it, words of LCTRL frames and
  idle words in it; `idle`: unbuffered idle codewords -/
  | group (l : Nat) (slices : List (BitVec 10)) (heads tails : List Nat) (lctrl fill : Nat) (idle : Bool)
  | frame (l : Nat) (h : Hdr) (x : BitVec 128) (r : Option Rest)
  | lctrl (l : Nat) (src : W32) (words : List W64)
  | udp (l : Nat) (dstMac : BitVec 48) (dstIp : BitVec 128) (ce : Bool) (h : Hdr) (x : BitVec 128) (r : Option Rest)
  | eth (l : Nat) (e : Eth)
  | pfc (l cls : Nat) (xoff : Bool)
  | compl (i : Fin 2) (addr : Nat) (e : BitVec 256)
  | compl2 (i : Fin 2) (addr : Nat) (e : BitVec 128)
  | record (i : Fin 2) (tel : Bool) (addr : Nat) (e : BitVec 512)
  | host (i : Fin 2) (addr : Nat) (bytes : List Byte)
  | msi (i : Fin 2) (addr : Nat) (data : W32)
  | pageRequest (i : Fin 2) (page : Nat)
  | atsRequest (i : Fin 2) (page : Nat)
  | invDone (i : Fin 2)
  | mgmt (addr : BitVec 128) (port : W16) (status : Byte) (bytes : List Byte)
  | ptp (port : Option Nat) (cls : Nat)
  | pps
  /-- a survivor's metadata and region steps to the joining copy (09 R245) -/
  | joinMeta (plane idx wid : Nat) (m : WindowMeta) (steps : List W64)
deriving DecidableEq, Repr

/-- The module, but for its fuses and the queue of waiting commands. -/
structure Body where
  power : Power := {}
  lantern : Lantern := {}
  hifA : Iface := {}
  hifB : Iface := {}
  sec : Sec := {}
  tables : Tables := {}
  portage : Portage := {}
  lports : Map LPort := []
  carts : Map Cart := []
  fwc : Fwc := {}
  tms : Tms := {}
  setts : Map Sett := []
  coll : Coll := {}
  mss : Mss := {}
  integ : Integ := {}
  budget : Budget := {}
  clock : Clock := {}
  profiles : Profiles := {}
  mram : Mram := {}
  planes : Planes := {}
  counters : List (Ctr × Nat × Nat) := []
  /-- hall time of the last SAMPLE of a unit: Sett n, or 20 + interface (13 R358) -/
  sampleAt : Map Nat := []
  /-- events held until the event rings are served (15 Table 15-6) -/
  events : List Ev := []
  /-- the latest 8,192 events (14 Table 14-7) -/
  evlog : List Ev := []
  out : List Out := []
  free : Nat := 0
deriving DecidableEq, Repr

/-- The whole machine: the body, the fuse blocks of Table 15-2 in the order of R387, and the queue. -/
structure State extends Body where
  fuses : List (BitVec 8192) := []
  pending : List Instr := []
deriving DecidableEq, Repr

/-- A fuse block of Table 15-2 from its fields, sealed, with its CRC (15 R386). -/
def fuseBlock (role position stepping serial hbm oe partno : Nat) (ids : Nat) : BitVec 8192 :=
  let body : Nat := put 1 8159 + put 1 8144 + put role 8142 + put position 8140 + put stepping 8136 + put serial 8008
    + put ids 7688 + put hbm 7668 + put oe 7660 + put partno 7644
  let v := BitVec.ofNat 8192 body
  BitVec.ofNat 8192 (put (crc32c (beBytes 252 (fld v 8159 6144))) 8160 + body)

/-- DESIGN CHOICE (entry 1). The fuses of an assembled GRN-SH512-M20, all dies at stepping B, serial 0, stack n with ID n + 1. -/
def resetFuses : List (BitVec 8192) :=
  ((List.range 4).map fun n =>
    fuseBlock 0 n 1 0 0 0 0 ((List.range 5).foldl (fun a k => a * 2 ^ 64 + (5 * n + k + 1)) 0))
  ++ [fuseBlock 1 0 1 0 0xFFFFF 0xFF 1 0, fuseBlock 2 0 1 0 0 0 0 0]

/-- The module as it enters P0 from power-off (00 R11; entries 1-5). -/
def State.reset : State := { toBody := {}, fuses := resetFuses }

end Sys2Proof.Machine
end

