-- ==== Sys2Proof/Machine/Ops.lean ====
section
/-! DEFINITION. The shared operations of the module over its state: counters, MSI-X, events, the audit chain,
completions, and the accessors the families use (11, 13, 16). -/
namespace Sys2Proof.Machine

/-- The answer of a command that has an effect. -/
abbrev Ans := Host.Outcome State Fault Refusal

/-- An effect on the body: the fuses and the queue stay as they are. -/
def onBody (s : State) (f : Body → Body) : Ans := .next { s with toBody := f s.toBody }

/-! ### Variant and serving -/

/-- The variant, as P2 read it from the IOD fuses (16 Table 16-2). -/
def Body.variant (s : Body) : Variant := Variant.ofPartno s.lantern.partno

/-- The variant the IOD fuses name (15 Table 15-2). -/
def State.hw (s : State) : Variant := Variant.ofPartno (bits (nth s.fuses 4 0) 7659 7644)

/-- IOD stepping A, as P2 read it (15 Table 15-4). -/
def Body.iodA (s : Body) : Bool := fld s.lantern.stepping 7 4 == 0

/-- Rings per interface (15 Table 15-5). -/
def Body.nRings (s : Body) : Nat := if s.iodA then 32 else 64

/-- The 16 bytes of the module serial (16 Table 16-2). -/
def Body.serialBytes (s : Body) : List Byte := leBytes 16 s.lantern.serial.toNat

/-- The states in which the control and management planes serve rings (11 R284, 14 R377). -/
def Body.serves (s : Body) : Bool :=
  s.power.phase == 5 && (s.power.state == .operational || s.power.state == .removing)

/-- Ring service is running (01 Table 1-5). -/
def Body.ringsRun (s : Body) : Bool := s.serves && !s.planes.mgmtRestart

/-- The data plane runs (01 Table 1-5; 14 Table 14-3). -/
def Body.dataRuns (s : Body) : Bool := s.serves && !s.planes.dataRestart

/-- Ports are lit and links run: from bring-up phase P4 on (15 Table 15-6), through a restart of any plane (01 Table 1-5). -/
def Body.linksRun (s : Body) : Bool := s.serves || (s.power.state == .bringup && s.power.phase == 4)

/-! ### Counters (13 R357) -/

def bumpIn (l : List (Ctr × Nat × Nat)) (c : Ctr) (i n : Nat) : List (Ctr × Nat × Nat) :=
  match l with
  | [] => [(c, i, n % 2 ^ 64)]
  | (c', i', v) :: t => if c' = c ∧ i' = i then (c', i', (v + n) % 2 ^ 64) :: t else (c', i', v) :: bumpIn t c i n

def countIn (l : List (Ctr × Nat × Nat)) (c : Ctr) (i : Nat) : Nat :=
  match l with
  | [] => 0
  | (c', i', v) :: t => if c' = c ∧ i' = i then v else countIn t c i

def Body.count (s : Body) (c : Ctr) (i : Nat) : Nat := countIn s.counters c i

/-! ### Interfaces -/

def Body.ifc (s : Body) (i : Fin 2) : Iface := if i = 0 then s.hifA else s.hifB

def Body.setIfc (s : Body) (i : Fin 2) (f : Iface) : Body :=
  if i = 0 then { s with hifA := f } else { s with hifB := f }

def Body.modIfc (s : Body) (i : Fin 2) (g : Iface → Iface) : Body := s.setIfc i (g (s.ifc i))

def Iface.ring (f : Iface) (r : Nat) : CmdRing := mgetD f.rings r {}

def Iface.cq (f : Iface) (q : Nat) : CqRing := mgetD f.cqs q {}

def Iface.setRing (f : Iface) (r : Nat) (x : CmdRing) : Iface := { f with rings := mset f.rings r x }

def Iface.setCq (f : Iface) (q : Nat) (x : CqRing) : Iface := { f with cqs := mset f.cqs q x }

def Body.ringOf (s : Body) (r : CmdRef) : CmdRing := (s.ifc r.iface).ring r.ring.val

def Body.setRing (s : Body) (r : CmdRef) (x : CmdRing) : Body :=
  s.modIfc r.iface fun f => f.setRing r.ring.val x

def Body.putOut (s : Body) (o : Out) : Body := { s with out := s.out ++ [o] }

/-! ### MSI-X and error status (16 R404, R409) -/

/-- Signal a vector: a masked one sets its pending bit (16 Table 16-6); a link that is down carries no message. -/
def Body.signal (s : Body) (i : Fin 2) (v : Nat) : Body :=
  let f := s.ifc i
  let x := mgetD f.msix v {}
  if !f.linkUp then s
  else if x.mask then s.setIfc i { f with msix := mset f.msix v { x with pending := true } }
  else s.putOut (.msi i (x.addr.toNat * 4) x.data)

/-- Bits of ERR_STATUS (16 Table 16-3). -/
inductive Err where
  | cr (r : Nat)
  | cq (q : Nat)
  | db
  | evt
  | tel
  | reg
deriving DecidableEq, Repr

def Err.maskBit : Err → Nat
  | .cr _ => 0 | .cq _ => 1 | .db => 2 | .evt => 3 | .tel => 4 | .reg => 5

def Iface.hasErr (f : Iface) : Err → Bool
  | .cr r => f.crError.getLsbD r
  | .cq q => f.cqError.getLsbD q
  | .db => f.dbError | .evt => f.evtError | .tel => f.telError | .reg => f.regReject

def Iface.setErr (f : Iface) : Err → Iface
  | .cr r => { f with crError := f.crError ||| (1 <<< r) }
  | .cq q => { f with cqError := f.cqError ||| (1 <<< q) }
  | .db => { f with dbError := true }
  | .evt => { f with evtError := true }
  | .tel => { f with telError := true }
  | .reg => { f with regReject := true }

/-- Set an error bit; a bit that goes from 0 to 1 with its MASK bit clear signals vector 66 (16 R404). -/
def Body.raise (s : Body) (i : Fin 2) (e : Err) : Body :=
  let f := s.ifc i
  if f.hasErr e then s
  else
    let s := s.setIfc i (f.setErr e)
    if f.errMask.getLsbD e.maskBit then s else s.signal i 66

/-! ### Module-written rings (11 R286, R303) -/

/-- Room for one more entry (11 R286, R288). -/
def CqRing.hasRoom (q : CqRing) : Bool := (q.pi - q.ci).toNat < 2 ^ q.log2.toNat

/-- PHASE of entry i: 1 on even passes (11 R286). -/
def phaseOf (pi : W32) (log2 : Nat) : Nat := if (pi.toNat / 2 ^ log2) % 2 = 0 then 1 else 0

/-- Host address of entry i of a ring with entries of `n` bytes. -/
def CqRing.slot (q : CqRing) (n : Nat) : Nat := q.base.toNat * 4096 + (q.pi.toNat % 2 ^ q.log2.toNat) * n

/-- A record of the event or telemetry ring (11 Table 11-10). -/
def recordEntry (ph code seq : Nat) (time : W64) (p : List W64) : BitVec 512 :=
  BitVec.ofNat 512 (put (leNat ((p.take 6).flatMap fun w => leBytes 8 w.toNat)) 128 + put time.toNat 64 + put ph 63
    + put code 32 + seq)

/-- Write one event to one interface: SEQ rises whether or not it is written (11 R303). -/
def Body.eventTo (s : Body) (i : Fin 2) (e : Ev) : Body :=
  let f := s.ifc i
  let q := f.evt
  let f1 := { f with evtSeq := f.evtSeq + 1 }
  if q.state = .enabled ∧ q.hasRoom ∧ f.linkUp then
    let w := recordEntry (phaseOf q.pi q.log2.toNat) e.code.toNat f.evtSeq.toNat e.time e.p
    (s.setIfc i { f1 with evt := { q with pi := q.pi + 1 }, evtOwed := true }).putOut (.record i false (q.slot 64) w)
  else s.setIfc i f1

def Body.eventOut (s : Body) (e : Ev) : Body := (s.eventTo 0 e).eventTo 1 e

/-- Place an event: on the rings while they are served, held otherwise (11 R303; 15 Table 15-6). -/
def Body.emit (s : Body) (code : Nat) (p : List Nat) : Body :=
  let e : Ev := { code := BitVec.ofNat 16 code, p := p.map (BitVec.ofNat 64), time := s.clock.ns }
  let s := { s with evlog := (s.evlog ++ [e]).drop (s.evlog.length + 1 - 8192) }
  if s.ringsRun then s.eventOut e else { s with events := s.events ++ [e] }

/-- Write the held events in order. -/
def Body.flushEvents (s : Body) : Body :=
  s.events.foldl (fun s e => s.eventOut e) { s with events := [] }

/-! ### Counting and sampling (13 R357, R358) -/

/-- The counters the manual names, in the order of the model's catalogue (entry 14). -/
def Ctr.all : List Ctr :=
  [.hdrBadSrc, .unsolicitedResp, .hdrBadShape, .opcReserved, .hdrBadVer, .redBadEnc, .encapTooLong, .lctrlReserved] ++
  [.udpBadIp, .udpBadCsum, .udpBadShim, .udpBadLen, .udpAdmitDrop, .ethAdmitDrop, .origPoolWait, .cutUnderrun] ++
  [.framePoisoned, .hdrBadHcrc, .specHoldHops, .specTimeout, .congMark, .congDrop, .hdrBadDst, .groupBadOpc] ++
  [.groupMiss, .routeNone, .sprayStandby, .routeDeadEnd, .resprayFrames, .ingressCut, .gwNoNexthop, .gwSrcMismatch] ++
  [.gwMiss, .gwLearnDrop, .gwLearnNoRoom, .gwAged, .streamPoolFull, .streamEarlyReclaim, .orderWait] ++
  [.policeRecolour, .policeDrop, .holdBackpressure, .drainTimeout, .redMxAlign, .redFmtMismatch, .redRopMismatch] ++
  [.rputNoPolicy, .rputGroupState, .rputOpseqRange, .rputClosed, .rputStale, .rputEpochAhead, .admitEpochSkew] ++
  [.ctxrecBad, .rputFenced, .replFenced, .rputUnexpected, .rputDup, .rputAliasLost, .rputWindow, .ctxSpilled] ++
  [.fmemDup, .fmemDupEvict, .fmemPoisonIn, .joinMismatch, .rootMismatch, .expressRefused, .budgetFloorPeriods] ++
  [.tokenLapse, .powerOverCap, .powerOverMax, .arbLogFull, .testAborted, .arbUnresolved, .arbNoArbiter, .arbOriginal] ++
  [.arbInput, .arbChecker, .testSkipped, .testBudgetDefer, .holdLost, .probeStarved, .probeFail, .fuseRepairParity] ++
  [.mgmtUntimed, .mgmtReject, .sampleDrop, .tdSlots, .tdPending, .tdRetired, .tdWasted, .tdFront, .tdBack]

/-- The instance kind is Sett (entry 14). -/
def Ctr.perSett : Ctr → Bool
  | .tdSlots | .tdPending | .tdRetired | .tdWasted | .tdFront | .tdBack | .specHoldHops | .specTimeout | .arbLogFull
  | .arbUnresolved | .arbNoArbiter | .arbOriginal | .arbInput | .arbChecker | .testAborted | .rputNoPolicy | .rputGroupState
  | .rputOpseqRange | .rputClosed | .rputStale | .rputEpochAhead | .rputFenced | .rputUnexpected | .rputDup
  | .rputAliasLost | .rputWindow => true
  | _ => false

/-- The counter and instance of a counter ID, when it is one the model keeps (13 R357). -/
def ctrOfId (id : Nat) : Option (Ctr × Nat) :=
  match Ctr.all[Config.counterName (id / 2 ^ 20 % 4096)]? with
  | some c => some (c, id % 2 ^ 20)
  | none => none

/-- Units whose counters can be sampled: Sett n, and 20 + interface for Den descriptor work (13 R358). -/
def sampleUnit (id : Nat) : Option Nat :=
  match ctrOfId id with
  | some (c, i) => if c.perSett then some i else none
  | none => if Config.descriptorWork (id / 2 ^ 20 % 4096) then some (20 + id % 2 ^ 20 % 2) else none

def Body.plainBump (s : Body) (c : Ctr) (i n : Nat) : Body := { s with counters := bumpIn s.counters c i n }

/-- One sample of a unit, at most one in 10 µs; the work it describes may be later work, so that is free (13 R358). -/
def Body.sampleNow (s : Body) (u id : Nat) (value : Nat) : Body :=
  let skip : Bool := match mget s.sampleAt u with
    | some t => Nat.blt s.clock.ns.toNat (t + 10000)
    | none => false
  if skip then s.plainBump .sampleDrop u 1
  else
    let w := fun n => (Config.unstated (5000000 + 2 * s.free + n)).toNat
    ({ s with sampleAt := mset s.sampleAt u s.clock.ns.toNat, free := s.free + 1 }).emit 0x700
      ([id, value] ++ (if u < 20 then [w 0, w 1 % 2 ^ 28] else [(u - 20) + put (w 0 % 64) 1 + put (w 1 % 2 ^ 32) 32]))

/-- The counter-ID list entries of running streams. -/
def Body.watched (s : Body) : List W64 :=
  (match s.hifA.stream with | some x => x.list | none => []) ++ (match s.hifB.stream with | some x => x.list | none => [])

/-- Samples due when a counter has gone from `old` to `new` (13 R358). -/
def Body.sample (s : Body) (c : Ctr) (i old new : Nat) : Body :=
  s.watched.foldl (fun s w =>
    let p := fld w 63 32
    if p = 0 ∨ old / p = new / p then s
    else if ctrOfId (fld w 31 0) = some (c, i) then s.sampleNow i (fld w 31 0) new else s) s

/-- Add n to instance i of a counter; counters are 64 bits and wrap (13 R357). -/
def Body.bumpBy (s : Body) (c : Ctr) (i n : Nat) : Body :=
  if c.perSett then
    let old := countIn s.counters c i
    (s.plainBump c i n).sample c i old ((old + n) % 2 ^ 64)
  else s.plainBump c i n

def Body.bump (s : Body) (c : Ctr) (i : Nat) : Body := s.bumpBy c i 1

/-! ### Audit (13 R344-R348, Table 13-4) -/

/-- Fields of an audit record before SEQ is given. -/
structure AuditArgs where
  kind : Nat
  role : Nat := 0
  session : Nat := 0
  path : Nat := 0
  iface : Nat := 0
  ring : Nat := 0
  cls : Nat := 0
  op : Nat := 0
  status : Nat := 0
  index : Nat := 0
  object : Nat := 0
  cookie : Nat := 0
  digest : List Byte := []
  data1 : Nat := 0

/-- Bits [639:0] of the record, SEQ 0 (13 Table 13-4). -/
def AuditArgs.body (a : AuditArgs) (time : W64) : BitVec 640 :=
  let dg := if a.digest.isEmpty then 0 else leNat ((digestBytes (sha384 a.digest)).take 24)
  BitVec.ofNat 640 (put (a.data1 % 2 ^ 64) 576 + put dg 384 + put (a.cookie % 2 ^ 64) 320 + put (a.object % 2 ^ 64) 256
    + put (a.index % 2 ^ 32) 224 + put (a.cls % 16) 200 + put (a.op % 256) 192 + put (a.status % 256) 184
    + put (a.path % 4) 182 + put (a.iface % 2) 181 + put (a.ring % 64) 175 + put a.kind 164 + put a.role 160
    + put (a.session % 2 ^ 32) 128 + put time.toNat 64)

def auditBytes (b : BitVec 640) : List Byte := leBytes 80 b.toNat

/-- Export one record as AUDIT_0, AUDIT_1 and AUDIT_2 (13 R348). -/
def Body.exportAudit (s : Body) (r : AuditRec) : Body :=
  let bs := auditBytes r.body ++ digestBytes r.chain
  let w := (pieces 8 16 bs).map leNat
  ((s.emit 1 (w.take 6)).emit 2 ((w.drop 6).take 6)).emit 3 (w.drop 12)

/-- Chain one record: SEQ, CHAIN, the MRAM ring of 122,880 records, the export (13 R345, R348). -/
def Body.chainOne (s : Body) (body : BitVec 640) : Body :=
  let a := s.sec.audit
  let b := setFld body 63 0 a.seq.toNat
  let c := sha384 (digestBytes a.chain ++ auditBytes b)
  let r : AuditRec := ⟨b, c⟩
  let s := { s with sec := { s.sec with audit := { a with
    chain := c, seq := a.seq + 1, since := a.since + 1, ring := (a.ring ++ [r]).drop (a.ring.length + 1 - 122880) } } }
  s.exportAudit r

/-- The GAP record owed after a sag without SAVE_COMPLETE (14 R384). -/
def Body.payGap (s : Body) : Body :=
  if s.mram.gapOwed then
    ({ s with mram := { s.mram with gapOwed := false } }).chainOne
      (({ kind := 6, role := 4, path := 3, data1 := 2 ^ 64 - 1 } : AuditArgs).body s.clock.ns)
  else s

/-- Chain a record, or buffer it during a management-plane restart (13 R346; 01 Table 1-5). -/
def Body.audit (s : Body) (a : AuditArgs) : Body :=
  let b := a.body s.clock.ns
  if s.planes.mgmtRestart then
    let x := s.sec.audit
    let x := if x.buffered.length < 65536 then { x with buffered := x.buffered ++ [b] } else { x with lost := x.lost + 1 }
    { s with sec := { s.sec with audit := x } }
  else (s.payGap).chainOne b

/-- A change the module makes on its own account (13 R344): KIND MODULE, PATH 3, ROLE 4. -/
def Body.auditModule (s : Body) (cls op object status : Nat) : Body :=
  s.audit { kind := 5, role := 4, path := 3, cls, op, object, status }

def roleCode : Role → Nat
  | .none => 0 | .operator => 1 | .installer => 2 | .maker => 3 | .module => 4

/-! ### Completions (11 R295, R301, Table 11-7) -/

/-- A completion entry in 32-byte format. -/
def Compl.entry (c : Compl) (ph : Nat) : BitVec 256 :=
  BitVec.ofNat 256 (put c.d1.toNat 192 + put c.d0.toNat 128 + put c.cookie.toNat 64 + put ph 63 + put c.status.toNat 48
    + put c.ring.val 42 + put c.iface.val 41 + c.idx.toNat % 65536)

/-- A completion entry in 16-byte format (11 R301). -/
def Compl.entry2 (c : Compl) (ph : Nat) : BitVec 128 :=
  BitVec.ofNat 128 (put (c.cookie.toNat % 2 ^ 32) 96 + put (c.d0.toNat % 2 ^ 32) 64 + put ph 63 + put c.status.toNat 48
    + put c.ring.val 42 + put c.iface.val 41 + c.idx.toNat % 65536)

/-- Write a completion to ring q of an interface now. -/
def Body.writeCompl (s : Body) (i : Fin 2) (q : Nat) (c : Compl) : Body :=
  let f := s.ifc i
  let x := f.cq q
  let ph := phaseOf x.pi x.log2.toNat
  let o := if x.format then Out.compl2 i (x.slot 16) (c.entry2 ph) else Out.compl i (x.slot 32) (c.entry ph)
  let s := (s.setIfc i (f.setCq q { x with pi := x.pi + 1 })).putOut o
  if c.irq then s.signal i q else s

/-- A completion ring takes an entry now: enabled, room, link up, ring service running (11 R288; 16 R407; 01 Table 1-5). -/
def Body.cqOpen (s : Body) (i : Fin 2) (q : Nat) : Bool :=
  let f := s.ifc i
  let x := f.cq q
  x.state == .enabled && x.hasRoom && f.linkUp && !s.planes.mgmtRestart

/-- Post a completion: written, or held in order of completion. -/
def Body.postCompl (s : Body) (i : Fin 2) (q : Nat) (c : Compl) : Body :=
  let f := s.ifc i
  let x := f.cq q
  if x.held.isEmpty && s.cqOpen i q then s.writeCompl i q c
  else s.setIfc i (f.setCq q { x with held := x.held ++ [c] })

/-- Write held completions while there is room; `n` bounds how many. -/
def Body.drainHeld (s : Body) (i : Fin 2) (q : Nat) : Nat → Body
  | 0 => s
  | n + 1 =>
    let f := s.ifc i
    let x := f.cq q
    match x.held with
    | [] => s
    | c :: t =>
      if s.cqOpen i q then
        ((s.setIfc i (f.setCq q { x with held := t })).writeCompl i q c).drainHeld i q n
      else s

/-- Write what every completion ring of an interface holds, as room allows. -/
def Body.drainIfc (s : Body) (i : Fin 2) : Body :=
  ((s.ifc i).cqs.map fun x => (x.1, x.2.held.length)).foldl (fun s x => s.drainHeld i x.1 x.2) s

/-! ### Sessions -/

def Body.session (s : Body) (id : W32) : Option Session := s.sec.sessions.find? fun x => x.id == id

/-- Role of a session, none for one that is not open. -/
def Body.roleOf (s : Body) (id : W32) : Role :=
  if id = 0 then .none else match s.session id with | some x => x.role | none => .none

/-! ### Ports, Setts, groups -/

def Body.lp (s : Body) (l : Nat) : LPort := mgetD s.lports l {}

def Body.setLp (s : Body) (l : Nat) (x : LPort) : Body := { s with lports := mset s.lports l x }

def Body.modLp (s : Body) (l : Nat) (g : LPort → LPort) : Body := s.setLp l (g (s.lp l))

/-- Reset Sett n: the last of each die's five is SPARE (DESIGN CHOICE, entry 19). -/
def settDefault (n : Nat) : Sett := { state := if n % 5 = 4 then .spare else .inService }

def Body.sett (s : Body) (n : Nat) : Sett := mgetD s.setts n (settDefault n)

def Body.setSett (s : Body) (n : Nat) (x : Sett) : Body := { s with setts := mset s.setts n x }

def Body.modSett (s : Body) (n : Nat) (g : Sett → Sett) : Body := s.setSett n (g (s.sett n))

/-- The Sett that serves contexts placed on Sett n: itself, or the stand-in of a quarantined one (12 R316). -/
def Body.servingSett (s : Body) : Nat → Nat → Nat
  | 0, n => n
  | k + 1, n => match (s.sett n).heir with | some h => s.servingSett k h | none => n

def Body.cart (s : Body) (c : Nat) : Cart := mgetD s.carts c {}

def Body.setCart (s : Body) (c : Nat) (x : Cart) : Body := { s with carts := mset s.carts c x }

/-- The active bank of a banked table. -/
def Banked.act {n : Nat} (t : Banked n) : Map (BitVec n) := if t.active then t.b else t.a

def Banked.shadow {n : Nat} (t : Banked n) : Map (BitVec n) := if t.active then t.a else t.b

def Banked.setShadow {n : Nat} (t : Banked n) (m : Map (BitVec n)) : Banked n :=
  if t.active then { t with a := m } else { t with b := m }

def Banked.flip {n : Nat} (t : Banked n) : Banked n := { t with active := !t.active }

def Hashed.act {n : Nat} (t : Hashed n) : HashBank n := if t.active then t.b else t.a

def Hashed.shadow {n : Nat} (t : Hashed n) : HashBank n := if t.active then t.a else t.b

def Hashed.setShadow {n : Nat} (t : Hashed n) (m : HashBank n) : Hashed n :=
  if t.active then { t with a := m } else { t with b := m }

def Hashed.setAct {n : Nat} (t : Hashed n) (m : HashBank n) : Hashed n :=
  if t.active then { t with b := m } else { t with a := m }

def Hashed.flip {n : Nat} (t : Hashed n) : Hashed n := { t with active := !t.active }

/-! ### The port table (01 R21) -/

def Body.portAct (s : Body) : PortBank := if s.tables.portActive then s.tables.portB else s.tables.portA

def Body.lpe (s : Body) (l : Nat) : LpEntry := mgetD s.portAct.lp l {}

def Body.phys (s : Body) (p : Nat) : PhysEntry := mgetD s.portAct.phys p {}

/-- Write the port table's shadow bank (a copy of the active bank with the change) and flip (01 R21). -/
def Body.portFlip (s : Body) (g : PortBank → PortBank) : Body :=
  let b := g s.portAct
  let t := s.tables
  { s with tables := if t.portActive then { t with portA := b, portActive := false }
                     else { t with portB := b, portActive := true } }

def Body.setLpe (s : Body) (l : Nat) (g : LpEntry → LpEntry) : Body :=
  s.portFlip fun b => { b with lp := mset b.lp l (g (mgetD b.lp l {})) }

def Body.setPhys (s : Body) (p : Nat) (g : PhysEntry → PhysEntry) : Body :=
  s.portFlip fun b => { b with phys := mset b.phys p (g (mgetD b.phys p {})) }

/-! ### The Lantern page (16 R402) -/

/-- A change of the page: GEN ends even and one step past its former even value. -/
def Body.lanternPut (s : Body) (g : Lantern → Lantern) : Body :=
  { s with lantern := { g s.lantern with gen := s.lantern.gen + 2 } }

/-! ### The module's addresses (02 R30) -/

def Body.homePlane (s : Body) : Nat := s.profiles.inForce.homePlane

def Body.moduleIndex (s : Body) : Nat := s.profiles.inForce.moduleIndex

/-! ### Firmware in force (13 R350, R354; 02 R65) -/

/-- The active slot of an image kind. -/
def Body.activeSlot (s : Body) (k : Nat) : FwSlot :=
  let i := nth s.sec.fw k {}
  if i.active then i.slotB else i.slotA

/-- Minors the ports speak: those of the engine firmware's header (DEDUCED, entry 36). -/
def Body.hiMinor (s : Body) : Nat := (s.activeSlot 2).hiMinor.toNat
def Body.loMinor (s : Body) : Nat := (s.activeSlot 2).loMinor.toNat

/-! ### The clock's reports (13 R361) -/

def clkCode : ClkState → Nat
  | .free => 0 | .locked => 1 | .holdover => 2

/-- TIME_STATE (13 Table 13-9); the manual gives no parent port for a module that has none. -/
def Body.timeEvent (s : Body) : Body :=
  let p := match s.clock.parent with | some p => p | none => (Config.unstated 54).toNat % 65536
  s.emit 0x703 [clkCode s.clock.state + put s.clock.dist.toNat 8 + put p 16]

/-! ### Random values (entry 12) -/

/-- The next 32-bit random word. -/
def Body.rand32 (s : Body) : W32 × Body := (Config.random32 s.free, { s with free := s.free + 1 })

/-- The next 32 random bytes. -/
def Body.rand256 (s : Body) : List Byte × Body :=
  (leBytes 32 (Config.random256 s.free).toNat, { s with free := s.free + 1 })

end Sys2Proof.Machine
end

