-- ==== Sys2Proof/Machine/Operands.lean ====
section
/-! DEFINITION. Operand forms: the fields of host descriptors (11 Tables 11-4 to 11-6, R300) and of host records. -/
namespace Sys2Proof.Machine

/-- Field [hi:lo] of word k of a descriptor (11 "Descriptors"). -/
def Desc.f (d : Desc) (k hi lo : Nat) : Nat := fld d.w (64 * k + hi) (64 * k + lo)

def Desc.ver (d : Desc) : Nat := d.f 0 63 60
def Desc.cls (d : Desc) : Nat := d.f 0 59 56
def Desc.op (d : Desc) : Nat := d.f 0 55 48
def Desc.cirq (d : Desc) : Bool := d.f 0 47 47 == 1
/-- Every v2 descriptor behaves as ORDER = 1 (11 R300). -/
def Desc.order (d : Desc) : Bool := d.ver == 2 || d.f 0 46 46 == 1
def Desc.cqn (d : Desc) : Nat := d.f 0 37 32
/-- COOKIE: word 1, or word 0 [31:0] in v2 (11 Table 11-4, R300). -/
def Desc.cookie (d : Desc) : Nat := if d.ver = 2 then d.f 0 31 0 else d.f 1 63 0
/-- Word k of the body. -/
def Desc.word (d : Desc) (k : Nat) : Nat := d.f k 63 0

/-- CLASS and OP pairs of Table 11-5, by the number of OPs of each class. -/
def opsOf : Nat → Nat
  | 0 => 3 | 1 => 5 | 2 => 3 | 3 => 5 | 4 => 6 | 5 => 1 | 6 => 3 | 7 => 7 | 8 => 2 | 9 => 2 | _ => 0

/-- What v2 accepts (11 R300). -/
def v2Allows (cls op : Nat) : Bool :=
  cls == 0 || cls == 1 || cls == 2 || cls == 6 || cls == 9 || (cls == 4 && (op == 1 || op == 2 || op == 3))

/-- VER, CLASS and OP are not reserved, v2 accepts the command, and a v3 descriptor's CQ has the 32-byte format
(11 Table 11-8, R300, R301). -/
def Desc.headerOk (d : Desc) (fmt16 : Bool) : Bool :=
  (d.ver == 3 || d.ver == 2) && (1 ≤ d.op && d.op ≤ opsOf d.cls) && (d.ver == 3 || v2Allows d.cls d.op)
    && !(d.ver == 3 && fmt16)

/-- State-changing commands, which are audited whatever their status (11 R291, 13 R344). TELE HWM with CLEAR and
TELE STREAM change state (DEDUCED, entry 26). -/
def Desc.changes (d : Desc) : Bool :=
  match d.cls, d.op with
  | 3, 5 => false
  | 6, 1 => false
  | 6, 2 => d.f 2 1 1 == 1
  | 7, 1 => false
  | 9, 1 => false
  | _, _ => true

/-- KIND of the command's audit record: session openings, elevations and ends are SESSION (13 Table 13-4). -/
def Desc.auditKind (d : Desc) : Nat := if d.cls = 7 ∧ (d.op = 2 ∨ d.op = 4 ∨ d.op = 5) then 3 else 1

/-- OBJECT of the audit record, as the class names (13 Table 13-4). -/
def Desc.object (d : Desc) : Nat :=
  match d.cls, d.op with
  | 0, 3 => d.word 2
  | 0, _ => d.f 2 7 0
  | 1, _ => d.f 2 31 0
  | 2, _ => d.f 2 31 0
  | 3, _ => d.f 2 9 0
  | 4, 1 => d.f 2 8 0
  | 4, 2 => d.f 2 10 0
  | 8, _ => d.f 2 3 0
  | _, _ => 0

/-- Commands that stream their data (11 R293). -/
def Desc.streams (d : Desc) : Bool :=
  (d.cls == 0 && d.op == 2) || (d.cls == 3 && (d.op == 4 || d.op == 5)) || (d.cls == 8 && d.op == 1)
    || (d.cls == 6 && (d.op == 1 || d.op == 2)) || (d.cls == 9 && d.op == 1)

/-- Commands accepted while the module is REMOVING, or that change nothing (14 R377). -/
def Desc.inRemoving (d : Desc) : Bool :=
  !d.changes || d.cls == 1 || (d.cls == 2 && d.op == 3) || d.cls == 6 || d.cls == 7

/-! ### Rights (13 Table 13-1): bit 0 operator, 1 installer, 2 maker -/

def roleBit : Role → Nat
  | .operator => 1 | .installer => 2 | .maker => 4 | _ => 0

/-- Rank of a role (13 R336). -/
def roleRank : Role → Nat
  | .operator => 1 | .installer => 2 | .maker => 3 | _ => 0

/-- Roles that may run the command; none needed for CHALLENGE and OPEN, any session for own-session rows and TAKEOVER. -/
def Desc.rights (d : Desc) : Nat :=
  match d.cls, d.op with
  | 0, _ => 2
  | 1, _ => 1
  | 2, _ => 1
  | 3, _ => 1
  | 4, 4 => 6
  | 4, _ => 2
  | 5, _ => 2
  | 6, _ => 7
  | 7, _ => 7
  | 8, _ => 6
  | 9, 1 => if d.f 2 7 0 == 2 || d.f 2 7 0 == 3 || d.f 2 7 0 == 7 || d.f 2 7 0 == 8 then 7 else 6
  | 9, 2 => 2
  | _, _ => 0

/-- Rows marked "none" (13 R335). -/
def Desc.needsNoRole (d : Desc) : Bool := d.cls == 7 && (d.op == 1 || d.op == 2)

/-- The role has the command's right (13 R335). -/
def Desc.allowed (d : Desc) (r : Role) : Bool := d.needsNoRole || (d.rights &&& roleBit r) != 0

/-! ### Host records (11 Table 11-6) -/

/-- A member record: EP, ALIAS, ALIASV, rank. -/
structure MemberRec where
  ep : W32
  alias_ : W32
  aliasv : Bool
  rank : Nat

def memberRec (l : List Byte) : MemberRec :=
  let v := leNat (l.take 16)
  { ep := BitVec.ofNat 32 (v >>> 96), alias_ := BitVec.ofNat 32 (v >>> 64), aliasv := v.testBit 62, rank := v % 2 ^ 18 }

/-- A replication record (08 Table 8-4 with LIVE ignored). -/
def u64s (l : List Byte) : List Nat := (pieces 8 (l.length / 8) l).map leNat

def u32s (l : List Byte) : List Nat := (pieces 4 (l.length / 4) l).map leNat

def u16s (l : List Byte) : List Nat := (pieces 2 (l.length / 2) l).map leNat

/-! ### Ports and subports (06 R145) -/

/-- Physical port of a logical port. -/
def physOf (l : Nat) : Nat := l / 4

/-- Fabric die of a physical port (06 R145). -/
def dieOfPort (p : Nat) : Nat := p / 128

def dieOf (l : Nat) : Nat := l / 512

end Sys2Proof.Machine
end

