-- ==== Sys2Proof/Machine/Host.lean ====
section
/-! DEFINITION. The shared course of a host command: start under R290, statuses in the order of Table 11-8, host data,
the audit record and the completion (11 R290-R301). Families supply what is their own in a `CmdSpec`. -/
namespace Sys2Proof.Machine

/-- What a command's own effect answers: state, status of Table 11-8, DATA0, DATA1; `later` when another step completes it. -/
structure HostRes where
  s : Body
  status : Nat := 0
  d0 : Nat := 0
  d1 : Nat := 0
  later : Bool := false

namespace HostRes

/-- Refused with a status, no effect. -/
def no (s : Body) (status : Nat) : HostRes := { s, status }

end HostRes

/-- Status codes of Table 11-8 that families answer. -/
abbrev stIllegal : Nat := 1
abbrev stNoRoom : Nat := 2
abbrev stDenied : Nat := 3
abbrev stBadDesc : Nat := 4
abbrev stFaulted : Nat := 5
abbrev stPreempted : Nat := 6
abbrev stTimeout : Nat := 7
abbrev stStale : Nat := 8
abbrev stNotReady : Nat := 9
abbrev stStateLost : Nat := 10

/-- How a command moves host data (11 R293). -/
inductive CmdMode where
  /-- reads `need` bytes, checks them (`bad1`: BAD_DESC), then takes its whole effect -/
  | atomic (need : Desc → Nat) (bad1 : Body → Desc → List Byte → Bool) (run : Body → CmdRef → Desc → List Byte → HostRes)
  /-- reads until `isDone`, taking effect as records become complete; `feed` sets the bytes done -/
  | input (isDone : Desc → Bool) (feed : Body → CmdRef → Desc → List Byte → Body × Desc) (finish : Body → CmdRef → Desc → HostRes)
  /-- writes `total` bytes to host memory at `dest` -/
  | output (total dest : Desc → Nat) (make : Body → Desc → Nat → Nat → Body × List Byte) (finish : Body → CmdRef → Desc → HostRes)

/-- A command of Table 11-5. -/
structure CmdSpec where
  cls : Nat
  op : Nat
  /-- BAD_DESC from the descriptor and the configuration alone -/
  bad0 : Body → CmdRef → Desc → Bool := fun _ _ _ => false
  /-- statuses after ROLE_DENIED that need no host data; 0 when none applies -/
  pre : Body → CmdRef → Desc → Nat := fun _ _ _ => 0
  /-- waits for a bulk load, rehash or CLP change of its table (11 R291) -/
  wait : Body → Desc → Bool := fun _ _ => false
  /-- what the descriptor remembers of its start: LAST_STEP of the window it names (11 Table 11-5) -/
  begin : Body → CmdRef → Desc → W64 := fun _ _ _ => 0
  /-- carried out by the control plane, so queued while it restarts (01 Table 1-5) -/
  control : Bool := false
  /-- the command has begun its effect on a table, which a restart of the control plane interrupts (01 R20) -/
  begun : Body → CmdRef → Desc → Bool := fun _ _ _ => false
  mode : CmdMode

/-! ### Descriptors of a ring -/

def Body.desc (s : Body) (r : CmdRef) : Option Desc := (s.ringOf r).descs.find? fun d => d.idx == r.idx

def Body.putDesc (s : Body) (r : CmdRef) (d : Desc) : Body :=
  let x := s.ringOf r
  s.setRing r { x with descs := x.descs.map fun e => if e.idx = d.idx then d else e }

/-- Another descriptor has the engine's next turn before this one: one PREEMPTED at its priority or above, or one READY above it
(11 R298: the engine moves on within a priority only at descriptor ends). -/
def Body.outranked (s : Body) (r : CmdRef) : Bool :=
  let p := (s.ringOf r).prio.toNat
  (s.ifc r.iface).rings.any fun x => x.2.descs.any fun d =>
    !(x.1 == r.ring.val && d.idx == r.idx) &&
      ((d.st == .preempted && p ≤ x.2.prio.toNat) || (d.st == .ready && p < x.2.prio.toNat))

/-- The engine of the interface is with this descriptor, or with none and this one may have it (11 R298). -/
def Body.engineFree (s : Body) (r : CmdRef) : Bool :=
  match (s.ifc r.iface).running with
  | none => !s.outranked r
  | some x => x == r

def Body.setEngine (s : Body) (i : Fin 2) (r : Option CmdRef) : Body := s.modIfc i fun f => { f with running := r }

def Body.releaseEngine (s : Body) (r : CmdRef) : Body :=
  if (s.ifc r.iface).running = some r then
    s.modIfc r.iface fun f => { f with running := none, lastRing := r.ring.val }
  else s

/-- The unit in transfer has ended: invalidations that waited for it are completed (11 R296). -/
def Body.invEnd (s : Body) (i : Fin 2) : Body :=
  let n := (s.ifc i).invHeld
  (List.range n).foldl (fun s _ => s.putOut (.invDone i)) (s.modIfc i fun f => { f with invHeld := 0 })

/-- During a management-plane restart a RUNNING descriptor is held as PREEMPTED (11 Table 11-9). -/
def Body.holdEngine (s : Body) (i : Fin 2) : Body :=
  match (s.ifc i).running with
  | none => s
  | some r => match s.desc r with
    | none => s.setEngine i none
    | some d => ((s.putDesc r { d with st := .preempted }).setEngine i none).invEnd i

/-- Descriptors fetched before this one and not completed. -/
def Body.before (s : Body) (r : CmdRef) : List Desc := (s.ringOf r).descs.takeWhile fun d => d.idx != r.idx

/-- Start allowed under R290: QUEUED, every earlier descriptor started, none left when ORDER is set. -/
def Body.startable (s : Body) (r : CmdRef) : Bool :=
  s.ringsRun && (s.ifc r.iface).linkUp &&
  match s.desc r with
  | none => false
  | some d => d.st == .queued && !d.mute &&
      (let e := s.before r
       e.all (fun x => x.st != .queued) && (!d.order || e.isEmpty))

/-! ### Completion -/

/-- Remove the descriptor; a ring whose ENABLE is 0 ends DISABLED with its last one (16 Table 16-8). -/
def Body.dropDesc (s : Body) (r : CmdRef) : Body :=
  let x := s.ringOf r
  let ds := x.descs.filter fun d => d.idx != r.idx
  s.setRing r (if ds.isEmpty && !x.enable && x.state != .disabled
    then { x with descs := ds, state := .disabled, cause := 0 } else { x with descs := ds })

/-- The audit record of a completed command (13 R344, R346). -/
def Body.auditCmd (s : Body) (r : CmdRef) (d : Desc) (status d1 : Nat) : Body :=
  if d.changes || status = 3 || status = 1 then
    s.audit { kind := d.auditKind, role := roleCode d.role, session := d.session.toNat, path := 0, iface := r.iface.val,
              ring := r.ring.val, cls := d.cls, op := d.op, status, index := d.idx.toNat, object := d.object,
              cookie := d.cookie, data1 := d1,
              digest := leBytes 64 d.w.toNat ++ (if d.streams then [] else d.buf) }
  else s

/-- Completions of a ring taken over go out in index order: those that waited behind one that has ended (11 R302). -/
def Body.postEnded (s : Body) (i : Fin 2) (g : Fin 64) : Nat → Body
  | 0 => s
  | n + 1 =>
    match ((s.ifc i).ring g.val).descs with
    | [] => s
    | d :: _ => match d.ended, d.dest with
      | some c, some (j, q) => ((s.dropDesc ⟨i, g, d.idx⟩).postCompl j q c).postEnded i g n
      | _, _ => s

/-- Audit, post the completion and forget the descriptor (11 R295, 13 R346). -/
def Body.completeOne (s : Body) (r : CmdRef) (d : Desc) (status d0 d1 : Nat) : Body :=
  let s := s.auditCmd r d status d1
  let c : Compl := { status := BitVec.ofNat 8 status, ring := r.ring, iface := r.iface, idx := d.idx,
                     cookie := BitVec.ofNat 64 d.cookie, d0 := BitVec.ofNat 64 d0, d1 := BitVec.ofNat 64 d1, irq := d.cirq }
  let s := s.releaseEngine r
  match d.dest with
  | some (i, q) =>
    if (s.before r).isEmpty then ((s.dropDesc r).postCompl i q c).postEnded r.iface r.ring (s.ringOf r).descs.length
    else s.putDesc r { d with st := .done, ended := some c }
  | none => if d.mute then s.dropDesc r else (s.dropDesc r).postCompl r.iface d.cqn c

/-- Descriptors whose VER, CLASS, OP or format is refused complete BAD_DESC as soon as they may start (11 R295, R301). -/
def Body.settleRing (s : Body) (i : Fin 2) (g : Fin 64) : Nat → Body
  | 0 => s
  | n + 1 =>
    match ((s.ifc i).ring g.val).descs.find? fun d => d.st == .queued with
    | none => s
    | some d =>
      let r : CmdRef := ⟨i, g, d.idx⟩
      if s.startable r && !d.headerOk ((s.ifc i).cq d.cqn).format then
        (s.completeOne r { d with session := (s.ringOf r).session, role := s.roleOf (s.ringOf r).session } 4 0 0).settleRing i g n
      else s

def Body.settle (s : Body) (r : CmdRef) : Body := s.settleRing r.iface r.ring ((s.ringOf r).descs.length + 1)

/-- Complete a descriptor by its place; nothing when it has gone (a reset dropped it). -/
def Body.completeRef (s : Body) (r : CmdRef) (status d0 d1 : Nat) : Body :=
  match s.desc r with
  | none => s
  | some d => (s.completeOne r d status d0 d1).settle r

/-- End a command with its answer, or leave it for another step to complete. -/
def concludeRes (r : CmdRef) (res : HostRes) : Body :=
  if res.later then res.s
  else
    match res.s.desc r with
    | none => res.s
    | some d => (res.s.completeOne r d res.status res.d0 res.d1).settle r

/-! ### The course of a command -/

/-- Bytes up to the end of the u-th next 4 KiB unit of a buffer at `addr`, from `off` (11 "Translation and page faults"). -/
def unitsEnd (addr off u total : Nat) : Nat :=
  if u = 0 then off else min total (((addr + off) / 4096 + u) * 4096 - addr)

/-- The removal rule, then the statuses that need no host data (11 Table 11-8; 14 R377); 0 when none applies. -/
def Body.preStatus (s : Body) (sp : CmdSpec) (r : CmdRef) (d : Desc) : Nat :=
  if s.power.state == .removing && !d.inRemoving then 1 else sp.pre s r d

/-- DATA1 of a refused command: LAST_STEP with STATE_LOST, which the descriptor holds. -/
def refusedData1 (d : Desc) (status : Nat) : Nat := if status = 10 then d.step0.toNat else 0

/-- Hold a descriptor back until its table's writer ends (11 R291). -/
def Body.holdTable (s : Body) (r : CmdRef) (d : Desc) : Body :=
  let s := s.putDesc r { d with st := .waiting }
  { s with tables := { s.tables with waiting := s.tables.waiting ++ [r] } }

/-- Queue a descriptor until the control plane serves again (01 Table 1-5). -/
def Body.holdControl (s : Body) (r : CmdRef) (d : Desc) : Body :=
  let s := s.putDesc r { d with st := .waiting }
  { s with planes := { s.planes with ctlQueue := s.planes.ctlQueue ++ [.cmd r] } }

/-- All host data is here: the statuses in table order, then the whole effect (11 R293, R295). -/
def Body.decide (s : Body) (sp : CmdSpec) (r : CmdRef) (d : Desc) (bad : Bool) (run : Body → HostRes) : Body :=
  if sp.control && s.planes.controlRestart then s.holdControl r d
  else if bad then s.completeRef r 4 0 0
  else if s.preStatus sp r d != 0 then s.completeRef r (s.preStatus sp r d) 0 (refusedData1 d (s.preStatus sp r d))
  else if sp.wait s d then s.holdTable r d
  else concludeRes r (run s)

/-- More units are to come: the engine stays with the descriptor, or the descriptor is ready for it. -/
def Body.moreUnits (s : Body) (r : CmdRef) (d : Desc) : Body :=
  if s.engineFree r then (s.putDesc r { d with st := .running }).setEngine r.iface (some r)
  else s.putDesc r { d with st := .ready }

/-- Move on with a started descriptor: new host bytes, or `units` written units; `fresh` when it has not begun its effect. -/
def Body.advance (s : Body) (sp : CmdSpec) (r : CmdRef) (d : Desc) (data : List Byte) (units : Nat) (fresh : Bool) : Body :=
  match sp.mode with
  | .atomic need bad1 run =>
    let buf := (d.buf ++ data).take (need d)
    let d := { d with buf, done := buf.length }
    if buf.length < need d then s.moreUnits r d
    else
      let d := { d with st := .waiting }
      ((s.releaseEngine r).putDesc r d).decide sp r d (bad1 s d buf) fun s => run s r d buf
  | .input isDone feed finish =>
    if sp.control && s.planes.controlRestart then (s.releaseEngine r).holdControl r { d with buf := d.buf ++ data }
    else if fresh && s.preStatus sp r d != 0 then
      s.completeRef r (s.preStatus sp r d) 0 (refusedData1 d (s.preStatus sp r d))
    else if fresh && sp.wait s d then s.holdTable r { d with buf := d.buf ++ data }
    else
      let p := feed (s.putDesc r d) r d data
      let s := p.1.putDesc r p.2
      if !isDone p.2 then s.moreUnits r p.2
      else concludeRes r (finish (s.releaseEngine r) r p.2)
  | .output total dest make finish =>
    if fresh && s.preStatus sp r d != 0 then
      s.completeRef r (s.preStatus sp r d) 0 (refusedData1 d (s.preStatus sp r d))
    else
      let e := unitsEnd (dest d) d.done units (total d)
      let p := make s d d.done (e - d.done)
      let n := e - d.done
      let s := if n = 0 then s else p.1.putOut (.host r.iface (dest d + d.done) (p.2.take n))
      let d := { d with done := e, buf := if n = 0 then d.buf else p.2.drop n }
      let s := s.putDesc r d
      if e < total d then s.moreUnits r d
      else concludeRes r (finish (s.releaseEngine r) r d)

/-- The command carries host data, so it needs the interface's engine (11 R298). -/
def CmdSpec.needsEngine (sp : CmdSpec) (d : Desc) : Bool :=
  match sp.mode with
  | .atomic need _ _ => need d != 0
  | .input isDone _ _ => !isDone d
  | .output total _ _ _ => total d != 0

/-- Start a fetched descriptor of this command (11 R290, R295). Nothing happens when the place holds no such descriptor,
its start is not allowed, or the engine it needs is with another. -/
def hostCmd (sp : CmdSpec) (s : Body) (r : CmdRef) (data : List Byte) (units : Nat) : Body :=
  match s.desc r with
  | none => s
  | some d =>
    if d.cls ≠ sp.cls ∨ d.op ≠ sp.op ∨ !s.startable r then s
    else
      let x := s.ringOf r
      let d := { d with st := .running, session := x.session, role := s.roleOf x.session }
      if !d.headerOk ((s.ifc r.iface).cq d.cqn).format then s
      else if sp.bad0 s r d then (s.putDesc r d).completeRef r 4 0 0
      else if !d.allowed d.role then (s.putDesc r d).completeRef r 3 0 0
      else if sp.needsEngine d && !s.engineFree r then s
      else
        let d := { d with step0 := sp.begin s r d }
        (s.putDesc r d).advance sp r d data units true

/-- Go on with a descriptor that waited for its table or for the control plane. -/
def Body.goOn (s : Body) (sp : CmdSpec) (r : CmdRef) : Body :=
  match s.desc r with
  | none => s
  | some d =>
    if d.st ≠ .waiting then s
    else match sp.mode with
      | .atomic .. => s.advance sp r d [] 0 false
      | _ =>
        if sp.begun s r d then s.advance sp r { d with buf := [] } d.buf 0 false
        else s.advance sp r { d with buf := [], done := 0 } d.buf 0 true

end Sys2Proof.Machine
end

