-- ==== Sys2Proof/Machine/Routes.lean ====
section
/-! DEFINITION. The route tables, exact-match tables and TMS tables: entries, defaults, refusals, insertion, lookup, learning,
CLP's own changes (04, 03 R427, 05 R131, 10 R269, R280). -/
namespace Sys2Proof.Machine

/-! ### Path-set entries (04 Table 4-3) -/

abbrev PathEntry := BitVec 2624

def peKind (e : PathEntry) : Nat := fld e 2623 2622
def peIpv4 (e : PathEntry) : Bool := bit e 2621
def peGw (e : PathEntry) : Nat := fld e 2620 2615
def peBase4 (e : PathEntry) : Nat := fld e 2591 2560
def peHas (e : PathEntry) (p : Nat) : Bool := bit e (2048 + p)
def peWeight (e : PathEntry) (p : Nat) : Nat := fld e (4 * p + 3) (4 * p)
def peWeights (e : PathEntry) : BitVec 2048 := BitVec.ofNat 2048 e.toNat

def peClear (e : PathEntry) (p : Nat) : PathEntry := setFld (setFld e (2048 + p) (2048 + p) 0) (4 * p + 3) (4 * p) 0

def peSetMember (e : PathEntry) (p : Nat) (m : Bool) (w : Nat) : PathEntry :=
  setFld (setFld e (2048 + p) (2048 + p) (if m then 1 else 0)) (4 * p + 3) (4 * p) w

def peSetKind (e : PathEntry) (k : Nat) : PathEntry := setFld e 2623 2622 k

def peSetWeights (e : PathEntry) (w : BitVec 2048) : PathEntry := setFld e 2047 0 w.toNat

/-- Gateway PMD in force on a physical port's group (06 R148). -/
def Body.isGateway (s : Body) (p : Nat) : Bool := (s.phys p).gkind != 0

/-- PORTS as a list of ports. -/
def pePorts (e : PathEntry) : List Nat := (List.range 512).filter (peHas e)

/-- A port breaks the conditions of R100 in this entry. -/
def peBreaks (s : Body) (e : PathEntry) (p : Nat) : Bool :=
  peHas e p && (p ≥ s.variant.ports
    || (peKind e != 2 && peKind e != 0 && s.isGateway p)
    || (peKind e == 2 && p / 8 != peGw e))

/-- KIND 2 of a local-attach entry is EXPRESS, of a Pod entry GATEWAY: the conditions of R100 for one port. -/
def localBreaks (s : Body) (e : PathEntry) (p : Nat) : Bool :=
  peHas e p && (p ≥ s.variant.ports || (peKind e != 0 && s.isGateway p))

/-- R100 refuses a Pod entry; reserved KINDs and groups the variant lacks are values out of range. -/
def podBad (s : Body) (e : PathEntry) : Bool :=
  peKind e == 3 || (List.range 512).any (peBreaks s e)
    || (peKind e == 2 && (peGw e ≥ s.variant.groups || (peIpv4 e && peBase4 e % 16384 != 0)))

/-- R100 refuses a local-attach entry. -/
def localBad (s : Body) (e : PathEntry) : Bool := peKind e == 3 || (List.range 512).any (localBreaks s e)

/-! ### TMS entries (05 Table 5-3, 03 Table 3-10) -/

/-- Fields of a node descriptor. -/
structure Node where
  mode : Nat
  police : Bool
  caware : Bool
  exceed : Bool
  prio : Nat
  weight : Nat
  overhead : Int
  rate1 : Nat
  rate2 : Nat
  size1 : Nat
  size2 : Nat
  sojAlarm : Nat

def nodeOf (w : BitVec 256) : Node :=
  { mode := fld w 255 254, police := bit w 253, caware := bit w 252, exceed := bit w 251, prio := fld w 249 248
    weight := fld w 247 240, overhead := (bits w 239 232).toInt, rate1 := fld w 231 212, rate2 := fld w 211 192
    size1 := fld w 191 168, size2 := fld w 167 144, sojAlarm := fld w 143 112 }

/-- R131: what a node descriptor may not hold; `port` for a port node, `alpClass` for a class node of an ALP port. -/
def nodeBad (w : BitVec 256) (port alpClass : Bool) : Bool :=
  let n := nodeOf w
  n.mode == 3 || n.weight == 0 || n.overhead < -32 || (n.mode == 1 && n.rate2 < n.rate1) || (n.mode == 2 && n.rate1 == 0)
    || (n.police && port) || (n.exceed && alpClass)

/-- A default node: PRIO, WEIGHT, SOJ_ALARM, CAWARE = 1 (05 Tables 5-2, 5-3). -/
def nodeDefault (prio weight soj : Nat) : BitVec 256 :=
  BitVec.ofNat 256 (put 1 252 + put prio 248 + put weight 240 + put soj 112)

/-- Default class node (05 Table 5-2). -/
def classDefault (c : Nat) : BitVec 256 :=
  match c with
  | 0 => nodeDefault 3 1 100000
  | 7 => nodeDefault 3 1 100000
  | 1 => nodeDefault 2 4 100000
  | 2 => nodeDefault 2 4 100000
  | 3 => nodeDefault 1 2 100000
  | 4 => nodeDefault 1 2 100000
  | _ => nodeDefault 0 1 100000

/-- Part of a congestion profile for one colour (03 Table 3-6). -/
structure Cong where
  minTh : Nat
  maxTh : Nat
  qmax : Nat
  pmax : Nat
  w : Nat
  drop : Bool

def congOf (e : BitVec 256) (c : Nat) : Cong :=
  { minTh := fld e (80 * c + 69) (80 * c + 51), maxTh := fld e (80 * c + 50) (80 * c + 32)
    qmax := fld e (80 * c + 31) (80 * c + 13), pmax := fld e (80 * c + 12) (80 * c + 5), w := fld e (80 * c + 4) (80 * c + 1)
    drop := bit e (80 * c) }

/-- One colour's part as bits. -/
def congPart (c minTh maxTh qmax pmax drop : Nat) : Nat :=
  put minTh (80 * c + 51) + put maxTh (80 * c + 32) + put qmax (80 * c + 13) + put pmax (80 * c + 5) + put drop (80 * c)

/-- Default profiles (03 Table 3-7). -/
def congDefault (gateway : Bool) : BitVec 256 :=
  BitVec.ofNat 256 (congPart 0 2048 8192 16384 26 0 + congPart 1 1024 4096 8192 64 0
    + congPart 2 256 1024 2048 255 (if gateway then 1 else 0))

/-- R427, R92: what a congestion profile may not hold. -/
def congBad (e : BitVec 256) (alp : Bool) : Bool :=
  (List.range 3).any fun c =>
    let x := congOf e c
    x.minTh > 393216 || x.maxTh > 393216 || x.qmax > 393216 || x.maxTh < x.minTh || (x.drop && alp)

/-- Default PCP map: PCP p to class p, byte p of the 8-byte map (DESIGN CHOICE, entry 27). -/
def pcpDefault : BitVec 64 := BitVec.ofNat 64 (leNat ((List.range 8).map (BitVec.ofNat 8)))

/-! ### Reading the active banks -/

def Body.podEntry (s : Body) (plane pod : Nat) : PathEntry := mgetD s.tables.pod.act (plane * 512 + pod) 0
def Body.rackEntry (s : Body) (pod rack : Nat) : BitVec 576 := mgetD s.tables.rack.act (pod * 16 + rack) 0
def Body.localEntry (s : Body) (m : Nat) : PathEntry := mgetD s.tables.loc.act m 0
def Body.portNode (s : Body) (l : Nat) : BitVec 256 := mgetD s.tables.portNode.act l (nodeDefault 0 1 0)
def Body.classNode (s : Body) (l c : Nat) : BitVec 256 := mgetD s.tables.classNode.act (8 * l + c) (classDefault c)
def Body.streamProfile (s : Body) (g : Nat) : BitVec 256 := mgetD s.tables.profile.act g (nodeDefault 0 1 0)
def Body.streamMapEntry (s : Body) (plane pod : Nat) : BitVec 32 := mgetD s.tables.streamMap.act (plane * 512 + pod) 0
def Body.pcpClass (s : Body) (g pcp : Nat) : Nat :=
  let m := mgetD s.tables.pcpMap.act g pcpDefault
  fld m (8 * pcp + 2) (8 * pcp)
/-- Congestion profile in force: DROP acts as MARK on an ALP port, and on a port that has been one since the entry was
written (03 R92, R427). -/
def Body.congProfile (s : Body) (l c colour : Nat) : Cong :=
  let born := fld (mgetD s.profiles.inForce.portMap (physOf l) 0x40000) 23 21 != 0
  let k := 8 * l + c
  let x := congOf (mgetD s.tables.cong.act k (congDefault born)) colour
  let asMark := s.tables.congMark.contains (2 * k + s.tables.cong.active.toNat)
  if s.isGateway (physOf l) && !asMark then x else { x with drop := false }

/-! ### Exact-match tables (04 R110-R112) -/

/-- Candidate buckets of a key under a seed (04 R110). -/
def buckets (seed : W32) (b : Nat) (key : List Byte) : Nat × Nat :=
  let h1 := crc32cFrom seed.toNat key
  let h2 := crc32cFrom (seed.toNat ^^^ 0xFFFFFFFF) key
  let b1 := h1 % b
  let b2 := h2 % b
  (b1, if b2 = b1 then b1 ^^^ 1 else b2)

def bucketSlots (b : Nat) : List Nat := [4 * b, 4 * b + 1, 4 * b + 2, 4 * b + 3]

/-- Where an entry sits: in a bucket slot or in the overflow store. -/
inductive Where where
  | slot (i : Nat)
  | store (i : Nat)
deriving DecidableEq, Repr

section
variable {n : Nat}

/-- The place of a key in a bank (04 R112). -/
def HashBank.find (t : HashBank n) (b : Nat) (key : List Byte) (same : BitVec n → Bool) : Option (Where × BitVec n) :=
  let (b1, b2) := buckets t.seed b key
  match (bucketSlots b1 ++ bucketSlots b2).findSome? (fun i =>
      match mget t.slots i with
      | some e => if same e then some (Where.slot i, e) else none
      | none => none) with
  | some x => some x
  | none => t.store.findSome? fun x => if same x.2 then some (Where.store x.1, x.2) else none

def HashBank.put (t : HashBank n) (w : Where) (e : BitVec n) : HashBank n :=
  match w with
  | .slot i => { t with slots := mset t.slots i e }
  | .store i => { t with store := mset t.store i e }

def HashBank.del (t : HashBank n) (w : Where) : HashBank n :=
  match w with
  | .slot i => { t with slots := mdel t.slots i }
  | .store i => { t with store := mdel t.store i }

def freeSlots (t : HashBank n) (b : Nat) : List Nat := (bucketSlots b).filter fun i => (mget t.slots i).isNone

/-- The lowest free position of the overflow store's 8,192. -/
def freeStore (m : Map (BitVec n)) (i : Nat) : Nat :=
  match m with
  | [] => i
  | (k, _) :: t => if k = i then freeStore t (i + 1) else i

/-- R111: replace in place, the emptier bucket, the overflow store, or fail. The free slot of the bucket and the free position
of the store are the lowest, which the manual leaves open: DESIGN CHOICE (entry 91). -/
def HashBank.insert (t : HashBank n) (b : Nat) (key : List Byte) (same : BitVec n → Bool) (e : BitVec n) : Option (HashBank n) :=
  match t.find b key same with
  | some (w, _) => some (t.put w e)
  | none =>
    let (b1, b2) := buckets t.seed b key
    let f1 := freeSlots t b1
    let f2 := freeSlots t b2
    match (if f1.length < f2.length then f2 else f1) with
    | i :: _ => some (t.put (.slot i) e)
    | [] =>
      let i := freeStore t.store 0
      if i < 8192 then some (t.put (.store i) e) else none

/-- Entries in the order of R120: buckets from 0, then the overflow store. -/
def HashBank.entries (t : HashBank n) : List (BitVec n) := t.slots.map (·.2) ++ t.store.map (·.2)

/-- Rebuild from a bank's entries under a seed; answers the bank and how many entries failed (04 R120). -/
def rebuild (from_ : HashBank n) (seed : W32) (b : Nat) (key : BitVec n → List Byte) (same : BitVec n → BitVec n → Bool) :
    HashBank n × Nat :=
  from_.entries.foldl (fun (p : HashBank n × Nat) e =>
    match p.1.insert b (key e) (same e) e with
    | some t => (t, p.2)
    | none => (p.1, p.2 + 1)) ({ seed }, 0)

end

abbrev groupB : Nat := 262144
abbrev gwB : Nat := 131072

def groupKey (a : W32) : List Byte := beBytes 4 a.toNat
def groupSame (a : W32) (e : BitVec 128) : Bool := fld e 127 96 == a.toNat
def groupEntry (a : W32) (d : Nat) : BitVec 128 := BitVec.ofNat 128 (put a.toNat 96 + put 1 95 + put d 64)

/-- Hash bytes of a Gateway entry: TYPE and its key bytes (04 R114). -/
def gwKey (e : BitVec 512) : List Byte :=
  let t := fld e 511 504
  BitVec.ofNat 8 t :: (beBytes 40 (fld e 495 176)).take (if t = 1 then 9 else 38)

def gwSame (a e : BitVec 512) : Bool := fld a 511 504 == fld e 511 504 && fld a 495 176 == fld e 495 176

def gwStatic (e : BitVec 512) : Bool := bit e 503
def gwHit (e : BitVec 512) : Bool := bit e 502
def gwSetHit (e : BitVec 512) (v : Bool) : BitVec 512 := setFld e 502 502 (if v then 1 else 0)
def gwLport (e : BitVec 512) : Nat := fld e 175 165
def gwNhMac (e : BitVec 512) : Nat := fld e 164 117
def gwAlpEp (e : BitVec 512) : Nat := fld e 116 85

/-- A MACV key entry without result: group, VID and MAC from KEY's first byte on (04 R114). -/
def macvEntry (g vid mac : Nat) : BitVec 512 :=
  BitVec.ofNat 512 (put 1 504 + put 1 501 + put (put g 312 + put (vid % 4096) 296 + put mac 248) 176)

/-- A UDP5 key entry without result: group, local IP, remote IP, protocol 17, remote port 0, local port (04 R114). -/
def udp5Entry (v4 : Bool) (g : Nat) (localIp remoteIp : Nat) (port : Nat) : BitVec 512 :=
  BitVec.ofNat 512 (put (if v4 then 3 else 2) 504 + put 1 501
    + put (put g 312 + put localIp 184 + put remoteIp 56 + put 17 48 + put port 16) 176)

/-! ### REHASH_REQUEST (04 R119) -/

/-- A random seed made different from two others. -/
def freshSeed (r sa sb : W32) : W32 :=
  if r != sa && r != sb then r else if r + 1 != sa && r + 1 != sb then r + 1 else r + 2

/-- The suggested seed, different from the seeds of both banks, and the event that carries it, at most once per second of hall
time per table. -/
def Body.rehashRequest (s : Body) (table : Nat) (bank : Bool) : W32 × Body :=
  let x := s.tables
  let (sa, sb) := if table = 4 then (x.group.a.seed, x.group.b.seed) else (x.gw.a.seed, x.gw.b.seed)
  let (r, s) := s.rand32
  let seed := freshSeed r sa sb
  let last := mget x.rehashAt table
  let now := s.clock.ns.toNat
  if last.any (fun t => now < t + 1000000000) then (seed, s)
  else
    let sizes := fun {n : Nat} (t : HashBank n) => (t.slots.length, t.store.length)
    let (es, os) := if table = 4 then sizes (if bank then x.group.b else x.group.a) else sizes (if bank then x.gw.b else x.gw.a)
    let s := { s with tables := { s.tables with rehashAt := mset s.tables.rehashAt table now } }
    (seed, s.emit 0x100 [put seed.toNat 32 + put bank.toNat 8 + table, put os 32 + (es + os)])

/-! ### Gateway lookups, learning and aging (04 R115-R118, R122) -/

/-- Lookup in the active bank; a hit sets HIT in both banks (04 R96, R124). -/
def Body.gwLookup (s : Body) (k : BitVec 512) : Option (BitVec 512) × Body :=
  match s.tables.gw.act.find gwB (gwKey k) (gwSame k) with
  | none => (none, s)
  | some (_, e) =>
    let mark := fun (t : HashBank 512) => match t.find gwB (gwKey k) (gwSame k) with
      | some (w, x) => t.put w (gwSetHit x true)
      | none => t
    (some e, { s with tables := { s.tables with gw := { s.tables.gw with a := mark s.tables.gw.a, b := mark s.tables.gw.b } } })

/-- Learn one bank: a STATIC entry keeps all but HIT, another is refreshed or inserted with HIT = 1 (04 R118). -/
def learnBank (t : HashBank 512) (e : BitVec 512) : Option (HashBank 512) :=
  match t.find gwB (gwKey e) (gwSame e) with
  | some (w, x) => some (t.put w (if gwStatic x then gwSetHit x true else gwSetHit e true))
  | none => t.insert gwB (gwKey e) (gwSame e) (gwSetHit e true)

/-- A learning event of a die: at most 16 per microsecond, both banks or neither (04 R118, R119). The microseconds counted are
whole ones of hall time: DESIGN CHOICE (entry 92). -/
def Body.learn (s : Body) (die : Nat) (e : BitVec 512) : Body :=
  let us := s.clock.ns.toNat / 1000
  let (w, c) := mgetD s.tables.learned die (us, 0)
  let c := if w = us then c else 0
  if c ≥ 16 then s.bump .gwLearnDrop die
  else
    let s := { s with tables := { s.tables with learned := mset s.tables.learned die (us, c + 1) } }
    match learnBank s.tables.gw.a e, learnBank s.tables.gw.b e with
    | some a, some b => { s with tables := { s.tables with gw := { s.tables.gw with a, b } } }
    | none, _ => ((s.bump .gwLearnNoRoom die).rehashRequest 5 false).2
    | _, none => ((s.bump .gwLearnNoRoom die).rehashRequest 5 true).2

/-- The sweeper visits an entry of one bank, given the OR of its HIT bits (04 R122). -/
def ageBank (t : HashBank 512) (k : BitVec 512) (hit : Bool) : HashBank 512 :=
  match t.find gwB (gwKey k) (gwSame k) with
  | none => t
  | some (w, e) => if hit then t.put w (gwSetHit e false) else if gwStatic e then t else t.del w

/-- A visit of the sweeper (04 R122, R124). -/
def Body.age (s : Body) (k : BitVec 512) : Body :=
  let t := s.tables.gw
  let ea := t.a.find gwB (gwKey k) (gwSame k)
  let eb := t.b.find gwB (gwKey k) (gwSame k)
  let hit := ea.any (fun x => gwHit x.2) || eb.any (fun x => gwHit x.2)
  let gone := !hit && (ea.any (fun x => !gwStatic x.2) || eb.any (fun x => !gwStatic x.2))
  let s := { s with tables := { s.tables with gw := { t with a := ageBank t.a k hit, b := ageBank t.b k hit } } }
  if gone then s.bump .gwAged 0 else s

/-! ### CLP's changes of the Pod and local-attach tables (10 R267, R269, R280) -/

/-- Halve with rounding up the weights of the ports of the engines in emergency (10 R280). -/
def halved (engines : List Nat) (w : BitVec 2048) : BitVec 2048 :=
  (List.range 512).foldl (fun w p =>
    if engines.contains (p / 64) then setFld w (4 * p + 3) (4 * p) ((fld w (4 * p + 3) (4 * p) + 1) / 2) else w) w

/-- The host-written weights of an entry: kept ones while an emergency holds, else the entry's own. -/
def Body.hostWeights (s : Body) (key idx : Nat) (e : PathEntry) : BitVec 2048 :=
  match s.tables.kept.find? fun x => x.1 == key && x.2.1 == idx with
  | some x => x.2.2
  | none => peWeights e

/-- Rewrite one bank's weights for the engines now in emergency. -/
def thermalBank (s : Body) (key : Nat) (m : Map (BitVec 2624)) : Map (BitVec 2624) :=
  m.map fun x => (x.1, peSetWeights x.2 (halved s.budget.emergency (s.hostWeights key x.1 x.2)))

/-- What the kept weights of a bank become: dropped when no engine is in emergency. -/
def keptBank (s : Body) (key : Nat) (m : Map (BitVec 2624)) : List (Nat × Nat × BitVec 2048) :=
  if s.budget.emergency.isEmpty then [] else m.map fun x => (key, x.1, s.hostWeights key x.1 x.2)

/-- Change one entry for an express link on physical port p to module `peer`; `own` marks the peer's local-attach entry. -/
def expressEntry (e : PathEntry) (p : Nat) (own : Bool) : PathEntry :=
  if own then peSetKind (peSetMember e p true 15) 2 else peClear e p

/-- The entries of a bank that an express link changes, with what they held. -/
def expressSaves (key : Nat) (m : Map (BitVec 2624)) (p : Nat) (peer : Option Nat) : List ExpSave :=
  let m := match peer with
    | some q => if (mget m q).isSome then m else mset m q 0
    | none => m
  (m.filter fun x => peHas x.2 p || peer == some x.1).map fun x =>
    { tbl := key, idx := x.1, port := p, member := peHas x.2 p, weight := peWeight x.2 p, kind := peKind x.2 }

def expressBank (m : Map (BitVec 2624)) (p : Nat) (peer : Option Nat) : Map (BitVec 2624) :=
  let m := match peer with
    | some q => if (mget m q).isSome then m else mset m q 0
    | none => m
  m.map fun x => (x.1, if peHas x.2 p || peer == some x.1 then expressEntry x.2 p (peer == some x.1) else x.2)

/-- Restore a bank's entries for a port; KIND is restored where the link had set it. -/
def unexpressBank (saves : List ExpSave) (key p : Nat) (isLocal : Bool) (m : Map (BitVec 2624)) : Map (BitVec 2624) :=
  m.map fun x =>
    match saves.find? fun v => v.tbl == key && v.idx == x.1 && v.port == p with
    | none => x
    | some v => (x.1, (let e := peSetMember x.2 p v.member v.weight; if isLocal then peSetKind e v.kind else e))

/-- The new contents of a bank of table `t` (1 Pod, 3 local-attach). -/
def clpBank (s : Body) (t key : Nat) (m : Map (BitVec 2624)) : ClpChange → Map (BitVec 2624)
  | .thermal => thermalBank s key m
  | .expressOn l peer => expressBank m (physOf l) (if t = 3 then some peer else none)
  | .expressOff l => unexpressBank s.tables.expSaved key (physOf l) (t = 3) m

def clpCause : ClpChange → Nat
  | .thermal => 2
  | _ => 1

/-- What is remembered after the change of one bank. -/
def clpNote (s : Body) (t key : Nat) (m : Map (BitVec 2624)) (c : ClpChange) : Body :=
  match c with
  | .thermal => { s with tables := { s.tables with
      kept := s.tables.kept.filter (fun x => x.1 != key) ++ keptBank s key m } }
  | .expressOn l peer => { s with tables := { s.tables with
      expSaved := s.tables.expSaved ++ expressSaves key m (physOf l) (if t = 3 then some peer else none) } }
  | .expressOff l => { s with tables := { s.tables with
      expSaved := s.tables.expSaved.filter fun v => !(v.tbl == key && v.port == physOf l) } }

/-- R269: write the shadow bank, flip, write the new shadow bank, raise TABLE_FLIP_BY_CLP, audit as MODULE. -/
def Body.clpApply (s : Body) (t : Nat) (c : ClpChange) : Body :=
  let x := if t = 1 then s.tables.pod else s.tables.loc
  let a := clpBank s t (2 * t) x.a c
  let b := clpBank s t (2 * t + 1) x.b c
  let s := clpNote (clpNote s t (2 * t) x.a c) t (2 * t + 1) x.b c
  let y : Banked 2624 := { x with a, b, active := !x.active }
  let s := { s with tables := if t = 1 then { s.tables with pod := y } else { s.tables with loc := y } }
  (s.emit 0x102 [put (clpCause c) 8 + t]).auditModule 0 3 t 0

/-- The writer of a Pod or local-attach bank. -/
def Body.writerOf (s : Body) : Nat → Option CmdRef
  | 1 => s.tables.pod.writer | 2 => s.tables.rack.writer | 3 => s.tables.loc.writer | 5 => s.tables.gw.writer
  | 0x10 => s.tables.portNode.writer | 0x11 => s.tables.classNode.writer | 0x12 => s.tables.streamMap.writer
  | 0x13 => s.tables.profile.writer | 0x14 => s.tables.cong.writer | _ => none

/-- An express port is enabled once CLP owes no change for it (10 R267). -/
def Body.expressEnable (s : Body) : Body :=
  let on := fun (c : ClpChange) => match c with | .expressOn .. => true | _ => false
  let owed := s.tables.clpOwed.any (fun x => on x.2) || s.planes.ctlQueue.any fun x => match x with | .clp _ c => on c | _ => false
  if owed then s
  else (s.lports.filter fun x => x.2.express.isSome && !(s.lpe x.1).enable).foldl
    (fun s x => s.setLpe x.1 fun e => { e with enable := true }) s

/-- CLP changes a table now, or when its bulk load ends (10 R269), or when the control plane serves again (01 Table 1-5). -/
def Body.clpChange (s : Body) (t : Nat) (c : ClpChange) : Body :=
  if s.planes.controlRestart then { s with planes := { s.planes with ctlQueue := s.planes.ctlQueue ++ [.clp t c] } }
  else if (s.writerOf t).isSome then { s with tables := { s.tables with clpOwed := s.tables.clpOwed ++ [(t, c)] } }
  else s.clpApply t c

/-- Carry out the CLP changes owed to a table whose bulk load has ended. -/
def Body.clpSettle (s : Body) (t : Nat) : Body :=
  if (s.writerOf t).isSome || s.planes.controlRestart then s
  else
  let owed := s.tables.clpOwed.filter fun x => x.1 == t
  let s := { s with tables := { s.tables with clpOwed := s.tables.clpOwed.filter fun x => x.1 != t } }
  (owed.foldl (fun s x => s.clpApply x.1 x.2) s).expressEnable

/-! ### Pruning (04 R100) -/

/-- Clear port p from the entries of both banks that its new mode breaks, and from a shadow bank kept for a running load, with
one event per table changed. -/
def Body.prune (s : Body) (p : Nat) : Body :=
  let podHit := fun (x : Nat × BitVec 2624) => peBreaks s x.2 p
  let locHit := fun (x : Nat × BitVec 2624) => localBreaks s x.2 p
  let t := s.tables
  let fix := fun (hit : Nat × BitVec 2624 → Bool) (m : Map (BitVec 2624)) =>
    m.map fun x => if hit x then (x.1, setFld x.2 (2048 + p) (2048 + p) 0) else x
  let fixTable := fun (hit : Nat × BitVec 2624 → Bool) (x : Banked 2624) =>
    { x with a := fix hit x.a, b := fix hit x.b, undo := x.undo.map fun u => { u with shadow := fix hit u.shadow } }
  let hitPod := t.pod.a.any podHit || t.pod.b.any podHit
  let hitLoc := t.loc.a.any locHit || t.loc.b.any locHit
  let s := { s with tables := { t with pod := fixTable podHit t.pod, loc := fixTable locHit t.loc } }
  let s := if hitPod then s.emit 0x101 [put p 32 + 1] else s
  if hitLoc then s.emit 0x101 [put p 32 + 3] else s

/-! ### The Group table, written by CLP (04 R113, R121) -/

/-- Insert a key in both banks, each as R113 has it; `none` when one insertion fails. -/
def groupBoth (t : Hashed 128) (a : W32) (d : Nat) : Option (Hashed 128) :=
  match t.a.insert groupB (groupKey a) (groupSame a) (groupEntry a d), t.b.insert groupB (groupKey a) (groupSame a) (groupEntry a d) with
  | some x, some y => some { t with a := x, b := y, active := !t.active }
  | _, _ => none

def groupRekey (e : BitVec 128) : List Byte := beBytes 4 (fld e 127 96)

/-- Rebuild both banks under the suggested seed (04 R121): shadow, flip, new shadow. An entry that fails to go in again is in
neither bank afterwards: DESIGN CHOICE (entry 93). -/
def groupRebuild (t : Hashed 128) (seed : W32) : Hashed 128 :=
  let r := (rebuild t.act seed groupB groupRekey fun x y => fld x 127 96 == fld y 127 96).1
  { t with a := r, b := r, active := !t.active }

/-- CLP enters a group: both banks, with one rebuild and retry; false when the retry fails (04 R121). -/
def Body.groupEnter (s : Body) (a : W32) (d : Nat) : Bool × Body :=
  match groupBoth s.tables.group a d with
  | some t => (true, { s with tables := { s.tables with group := t } })
  | none =>
    let (seed, s) := s.rehashRequest 4 (!s.tables.group.active)
    let t := groupRebuild s.tables.group seed
    match groupBoth t a d with
    | some t => (true, { s with tables := { s.tables with group := t } })
    | none => (false, { s with tables := { s.tables with group := t } })

/-- Remove a key from both banks. -/
def Body.groupLeave (s : Body) (a : W32) : Body :=
  let rm := fun (t : HashBank 128) => match t.find groupB (groupKey a) (groupSame a) with
    | some (w, _) => t.del w
    | none => t
  let t := s.tables.group
  { s with tables := { s.tables with group := { t with a := rm t.a, b := rm t.b, active := !t.active } } }

/-- Lookup of a group address: the descriptor index (04 Table 4-2 case 2). -/
def Body.groupIndex (s : Body) (a : W32) : Option Nat :=
  (s.tables.group.act.find groupB (groupKey a) (groupSame a)).map fun x => fld x.2 83 64

/-- The descriptor of a group this module holds. -/
def Body.group (s : Body) (a : W32) : Option Group :=
  match s.groupIndex a with
  | none => none
  | some i => mget s.coll.groups i

/-- Subports that the mode in force uses. -/
def Body.subports (s : Body) (p : Nat) : List Nat :=
  let e := s.phys p
  if e.gkind != 0 then [0] else match e.split with | 1 => [0, 1] | 2 => [0, 1, 2, 3] | _ => [0]

/-- The logical port exists in the mode in force (06 R146) and on the variant (00 R4). -/
def Body.lportExists (s : Body) (l : Nat) : Bool := physOf l < s.variant.ports && (s.subports (physOf l)).contains (l % 4)

end Sys2Proof.Machine
end

