-- ==== Sys2Proof/Machine/TableCmds.lean ====
section
/-! DEFINITION. TABLE WRITE, BULK_LOAD and FLIP (11 Table 11-5; 01 R19, R20; 04 R96-R124; 05 R131, R138; 03 R427). -/
namespace Sys2Proof.Machine

/-- Tables that TABLE commands reach (04 Table 4-1, 05 Table 5-1); 0x04 is CLP's (04 R113). -/
def tableKnown (t : Nat) : Bool := t == 1 || t == 2 || t == 3 || t == 5 || (0x10 ≤ t && t ≤ 0x14)

/-- Entries of a table by index; the Gateway table's index is ignored. Maps of 0x11 follow its nodes (entry 27). -/
def tableEntries : Nat → Nat
  | 1 => 4096 | 2 => 8192 | 3 => 1024 | 0x10 => 2048 | 0x11 => 16448 | 0x12 => 4096 | 0x13 => 4096 | 0x14 => 16384
  | _ => 0

/-- Bytes of an entry in host memory. -/
def tableBytes (t idx : Nat) : Nat :=
  match t with
  | 1 => 328 | 2 => 72 | 3 => 328 | 5 => 64 | 0x10 => 32 | 0x11 => if idx < 16384 then 32 else 8 | 0x12 => 4
  | 0x13 => 32 | 0x14 => 32 | _ => 0

/-- The index is in range (the Gateway table ignores it). -/
def tableIdxOk (t idx : Nat) : Bool := t == 5 || idx < tableEntries t

/-- The index names no port, subport or port group that does not exist (00 R4, 06 R146). -/
def Body.indexHere (s : Body) (t idx : Nat) : Bool :=
  match t with
  | 0x10 => s.lportExists idx
  | 0x11 => if idx < 16384 then s.lportExists (idx / 8) else idx - 16384 < s.variant.groups
  | 0x14 => s.lportExists (idx / 8)
  | _ => true

/-- The entry's own checks: R100, R131, R427, R92; reserved TYPEs, absent groups, and a MACV entry whose LPORT does not exist
(00 R4, 06 R146) of the Gateway table. -/
def entryBad (s : Body) (t idx : Nat) (e : Nat) : Bool :=
  match t with
  | 1 => podBad s (BitVec.ofNat 2624 e)
  | 3 => localBad s (BitVec.ofNat 2624 e)
  | 5 =>
    let w := BitVec.ofNat 512 e
    let ty := fld w 511 504
    !(ty == 1 || ty == 2 || ty == 3) || fld w 495 488 ≥ s.variant.groups || (ty == 1 && bit w 501 && !s.lportExists (gwLport w))
  | 0x10 => nodeBad (BitVec.ofNat 256 e) true false
  | 0x11 => idx < 16384 && nodeBad (BitVec.ofNat 256 e) false (!s.isGateway (physOf (idx / 8)))
  | 0x13 => nodeBad (BitVec.ofNat 256 e) false false
  | 0x14 => congBad (BitVec.ofNat 256 e) (!s.isGateway (physOf (idx / 8)))
  | _ => false

/-- Write a shadow bank at an index; a dirty bank counts the indices written again (01 R20). -/
def putBank {n : Nat} (b : Banked n) (size idx e : Nat) : Banked n :=
  let b := b.setShadow (mset b.shadow idx (BitVec.ofNat n e))
  if b.dirty then
    let w := if b.rewritten.contains idx then b.rewritten else b.rewritten ++ [idx]
    if w.length ≥ size then { b with dirty := false, rewritten := [] } else { b with rewritten := w }
  else b

/-- A static Gateway entry: written, or deleted with VALID = 0 (04 Table 4-8, R123); `none` when insertion fails. -/
def putGw (t : Hashed 512) (e : BitVec 512) : Option (Hashed 512) :=
  let m := t.shadow
  if !bit e 501 then
    match m.find gwB (gwKey e) (gwSame e) with
    | some (w, _) => some (t.setShadow (m.del w))
    | none => some t
  else (m.insert gwB (gwKey e) (gwSame e) (setFld (setFld e 503 503 1) 502 502 0)).map t.setShadow

/-- A host write of a path-set weight lands halved while its engine's emergency holds (10 R280). -/
def landWeights (s : Body) (key idx : Nat) (e : PathEntry) : Body × PathEntry :=
  if s.budget.emergency.isEmpty then (s, e)
  else
    let kept := s.tables.kept.filter fun x => !(x.1 == key && x.2.1 == idx)
    ({ s with tables := { s.tables with kept := kept ++ [(key, idx, peWeights e)] } },
      peSetWeights e (halved s.budget.emergency (peWeights e)))

/-- Write one entry into the shadow bank of all four copies (04 R96); false when an insertion fails. -/
def Body.writeEntry (s : Body) (t idx e : Nat) : Bool × Body :=
  let x := s.tables
  match t with
  | 1 =>
    let (s, w) := landWeights s (2 + if x.pod.active then 0 else 1) idx (BitVec.ofNat 2624 e)
    (true, { s with tables := { s.tables with pod := putBank s.tables.pod 4096 idx w.toNat } })
  | 2 => (true, { s with tables := { x with rack := putBank x.rack 8192 idx e } })
  | 3 =>
    let (s, w) := landWeights s (6 + if x.loc.active then 0 else 1) idx (BitVec.ofNat 2624 e)
    (true, { s with tables := { s.tables with loc := putBank s.tables.loc 1024 idx w.toNat } })
  | 5 =>
    match putGw x.gw (BitVec.ofNat 512 e) with
    | some g => (true, { s with tables := { x with gw := g } })
    | none => (false, (s.rehashRequest 5 (!x.gw.active)).2)
  | 0x10 => (true, { s with tables := { x with portNode := putBank x.portNode 2048 idx e } })
  | 0x11 =>
    if idx < 16384 then (true, { s with tables := { x with classNode := putBank x.classNode 16384 idx e } })
    else (true, { s with tables := { x with pcpMap := putBank x.pcpMap 64 (idx - 16384) e } })
  | 0x12 => (true, { s with tables := { x with streamMap := putBank x.streamMap 4096 idx e } })
  | 0x13 => (true, { s with tables := { x with profile := putBank x.profile 4096 idx e } })
  | 0x14 => (true, { s with tables := { x with
      cong := putBank x.cong 16384 idx e
      congMark := x.congMark.filter fun k => k != 2 * idx + (!x.cong.active).toNat } })
  | _ => (true, s)

def Body.setWriter (s : Body) (t : Nat) (r : Option CmdRef) : Body :=
  let x := s.tables
  { s with tables := match t with
    | 1 => { x with pod := { x.pod with writer := r } }
    | 2 => { x with rack := { x.rack with writer := r } }
    | 3 => { x with loc := { x.loc with writer := r } }
    | 5 => { x with gw := { x.gw with writer := r } }
    | 0x10 => { x with portNode := { x.portNode with writer := r } }
    | 0x11 => { x with classNode := { x.classNode with writer := r } }
    | 0x12 => { x with streamMap := { x.streamMap with writer := r } }
    | 0x13 => { x with profile := { x.profile with writer := r } }
    | 0x14 => { x with cong := { x.cong with writer := r } }
    | _ => x }

def Body.dirtyOf (s : Body) (t : Nat) : Bool :=
  let x := s.tables
  match t with
  | 1 => x.pod.dirty | 2 => x.rack.dirty | 3 => x.loc.dirty | 5 => x.gw.dirty | 0x10 => x.portNode.dirty
  | 0x11 => x.classNode.dirty || x.pcpMap.dirty | 0x12 => x.streamMap.dirty | 0x13 => x.profile.dirty
  | 0x14 => x.cong.dirty | _ => false

/-! ### Flip (01 R19, 04 R97, 05 R138) -/

/-- SIZE limits of a node's two levels, in 1/256 byte. -/
def nodeSizes (w : BitVec 256) : Int × Int := ((nodeOf w).size1 * 256, (nodeOf w).size2 * 256)

/-- A flip's effect on one node's levels: kept and cut to SIZE, or 0 when MODE changes (05 R138). -/
def flipLimiter (old new : BitVec 256) (x : Limiter) : Limiter :=
  if (nodeOf old).mode = (nodeOf new).mode then
    let (a, b) := nodeSizes new
    { c := min x.c a, p := if (nodeOf new).mode = 1 then min x.p b else x.p }
  else {}

/-- Levels of the nodes of a flipped TMS table. -/
def Body.flipLevels (old s : Body) (t : Nat) : Body :=
  match t with
  | 0x10 => { s with tms := { s.tms with
      portLim := s.tms.portLim.map fun x => (x.1, flipLimiter (old.portNode x.1) (s.portNode x.1) x.2) } }
  | 0x11 => { s with tms := { s.tms with
      classLim := s.tms.classLim.map fun x =>
        (x.1, flipLimiter (old.classNode (x.1 / 8) (x.1 % 8)) (s.classNode (x.1 / 8) (x.1 % 8)) x.2) } }
  | 0x13 => { s with tms := { s.tms with
      streams := s.tms.streams.map fun x =>
        { x with lim := flipLimiter (old.streamProfile x.prof) (s.streamProfile x.prof) x.lim } } }
  | _ => s

/-- Change the active bank of one table on all four dies. -/
def Body.flipTable (s : Body) (t : Nat) : Body :=
  let x := s.tables
  let n : Body := { s with tables := match t with
    | 1 => { x with pod := x.pod.flip }
    | 2 => { x with rack := x.rack.flip }
    | 3 => { x with loc := x.loc.flip }
    | 5 => { x with gw := x.gw.flip }
    | 0x10 => { x with portNode := x.portNode.flip }
    | 0x11 => { x with classNode := x.classNode.flip, pcpMap := x.pcpMap.flip }
    | 0x12 => { x with streamMap := x.streamMap.flip }
    | 0x13 => { x with profile := x.profile.flip }
    | 0x14 => { x with cong := x.cong.flip }
    | _ => x }
  s.flipLevels n t

/-- Table IDs a FLIP names: bytes of W2, 0 = none. -/
def flipIds (d : Desc) : List Nat :=
  dedupNat (((leBytes 8 (d.word 2)).map BitVec.toNat).filter fun b => b != 0)

def specTableFlip : CmdSpec :=
  { cls := 0, op := 3, control := true
    bad0 := fun _ _ d => (flipIds d).any fun t => !tableKnown t
    pre := fun s _ d => if (flipIds d).any (fun t => (s.writerOf t).isSome || s.dirtyOf t) then 1 else 0
    mode := .atomic (fun _ => 0) (fun _ _ _ => false) fun s _ d _ => { s := (flipIds d).foldl Body.flipTable s } }

/-! ### Write (11 Table 11-5) -/

def specTableWrite : CmdSpec :=
  { cls := 0, op := 1, control := true
    bad0 := fun s _ d => !tableKnown (d.f 2 7 0) || !tableIdxOk (d.f 2 7 0) (d.f 2 63 32)
      || !s.indexHere (d.f 2 7 0) (d.f 2 63 32)
      || d.f 4 31 0 != tableBytes (d.f 2 7 0) (d.f 2 63 32)
    wait := fun s d => (s.writerOf (d.f 2 7 0)).isSome
    mode := .atomic (fun d => tableBytes (d.f 2 7 0) (d.f 2 63 32))
      (fun s d b => entryBad s (d.f 2 7 0) (d.f 2 63 32) (leNat b))
      fun s _ d b =>
        let p := s.writeEntry (d.f 2 7 0) (d.f 2 63 32) (leNat b)
        { s := p.2, status := if p.1 then 0 else 2 } }

/-! ### Bulk load (11 R293, 04 R120) -/

def bulkTable (d : Desc) : Nat := d.f 2 7 0
def bulkRehash (d : Desc) : Bool := d.f 2 8 8 == 1
def bulkCount (d : Desc) : Nat := d.f 4 31 0

/-- Bytes of the record at the head of a buffer: 8 and the entry, padded to a multiple of 8 (11 Table 11-6). -/
def recordBytes (t : Nat) (buf : List Byte) : Nat := 8 + (tableBytes t (leAt buf 0 4) + 7) / 8 * 8

/-- Empty the shadow bank and re-insert the active bank's entries under the seed (04 R120). -/
def Body.rehashGw (s : Body) (seed : W32) : Body × Nat :=
  let t := s.tables.gw
  let r := rebuild t.act seed gwB gwKey gwSame
  let s := { s with tables := { s.tables with gw := { t.setShadow r.1 with dirty := false } } }
  (if r.2 = 0 then s else (s.rehashRequest 5 (!t.active)).2, r.2)

/-- Apply the complete records of the buffer, at most `fuel` of them; a refused record stops the load, and what follows the
last record is no part of it. -/
def bulkRecords (t : Nat) : Nat → Body → Desc → Body × Desc
  | 0, s, d => (s, d)
  | n + 1, s, d =>
    if d.bad then (s, d)
    else if d.aux ≥ bulkCount d then (s, { d with buf := [] })
    else if d.buf.length < 8 then (s, d)
    else
      let idx := leAt d.buf 0 4
      if !tableIdxOk t idx || !s.indexHere t idx then (s, { d with bad := true })
      else
        let k := recordBytes t d.buf
        if d.buf.length < k then (s, d)
        else
          let e := leAt d.buf 8 (tableBytes t idx)
          if entryBad s t idx e then (s, { d with bad := true })
          else
            let p := s.writeEntry t idx e
            let d := { d with buf := d.buf.drop k, aux := d.aux + 1, done := d.done + k }
            bulkRecords t n p.2 (if p.1 then { d with written := d.written + 1 } else { d with noRoom := d.noRoom + 1 })

/-- Change the banks of a table written by index. -/
def Body.onBanks (s : Body) (t : Nat) (f : (n : Nat) → Banked n → Banked n) : Body :=
  let x := s.tables
  { s with tables := match t with
    | 1 => { x with pod := f _ x.pod }
    | 2 => { x with rack := f _ x.rack }
    | 3 => { x with loc := f _ x.loc }
    | 0x10 => { x with portNode := f _ x.portNode }
    | 0x11 => { x with classNode := f _ x.classNode, pcpMap := f _ x.pcpMap }
    | 0x12 => { x with streamMap := f _ x.streamMap }
    | 0x13 => { x with profile := f _ x.profile }
    | 0x14 => { x with cong := f _ x.cong }
    | _ => x }

/-- Keep the shadow bank as it stands when a load starts. -/
def Body.noteLoad (s : Body) (t : Nat) : Body :=
  let x := s.tables
  s.onBanks t fun _ b =>
    let u := { shadow := b.shadow, dirty := b.dirty, rewritten := b.rewritten, kept := x.kept, congMark := x.congMark }
    { b with undo := some u }

/-- A control-plane restart marks the shadow banks dirty whose write is half done (01 R20). -/
def Body.markDirty (s : Body) : Body :=
  let mark := fun (n : Nat) (b : Banked n) =>
    if b.writer.isSome then { b with dirty := true, rewritten := [], undo := b.undo.map fun u => { u with dirty := true, rewritten := [] } }
    else b
  let s := [1, 2, 3, 0x10, 0x11, 0x12, 0x13, 0x14].foldl (fun s t => s.onBanks t mark) s
  let g := s.tables.gw
  { s with tables := { s.tables with gw := if g.writer.isSome then { g with dirty := true } else g } }

def Body.dropUndo (s : Body) (t : Nat) : Body := s.onBanks t fun _ b => { b with undo := none }

/-- A bulk load that is BAD_DESC writes nothing (04 R100, 05 R131): its records so far are taken back (entry 87). -/
def Body.undoLoad (s : Body) (t : Nat) : Body :=
  let key := fun (active : Bool) => 2 * t + if active then 0 else 1
  let back := fun (k : Nat) (old : List (Nat × Nat × BitVec 2048)) (s : Body) =>
    { s with tables := { s.tables with
        kept := (s.tables.kept.filter fun x => x.1 != k) ++ (old.filter fun x => x.1 == k) } }
  let s := match t, s.tables.pod.undo, s.tables.loc.undo with
    | 1, some u, _ => back (key s.tables.pod.active) u.kept s
    | 3, _, some u => back (key s.tables.loc.active) u.kept s
    | _, _, _ => s
  let s := match t, s.tables.cong.undo with
    | 0x14, some u => { s with tables := { s.tables with
        congMark := dedupNat (s.tables.congMark ++ u.congMark.filter fun k => k % 2 == (!s.tables.cong.active).toNat) } }
    | _, _ => s
  s.onBanks t fun _ b => match b.undo with
    | some u => { b.setShadow u.shadow with dirty := u.dirty, rewritten := u.rewritten }
    | none => b

/-- Take host bytes into a bulk load; the first call makes it the table's writer and runs a rehash. -/
def bulkFeed (s : Body) (r : CmdRef) (d : Desc) (data : List Byte) : Body × Desc :=
  let t := bulkTable d
  let first := s.writerOf t != some r
  let s := if first then (s.setWriter t (some r)).noteLoad t else s
  let p := if first && bulkRehash d then
      let q := s.rehashGw (BitVec.ofNat 32 (d.f 2 63 32))
      (q.1, { d with noRoom := d.noRoom + q.2 })
    else (s, d)
  bulkRecords t (d.buf.length + data.length + 1) p.1 { p.2 with buf := p.2.buf ++ data }

/-- The load ends: it is no longer the writer, and CLP's owed changes follow (10 R269). -/
def Body.endBulk (s : Body) (d : Desc) : Body :=
  ((s.setWriter (bulkTable d) none).dropUndo (bulkTable d)).clpSettle (bulkTable d)

def bulkResult (s : Body) (d : Desc) : HostRes :=
  if d.bad then { s := (s.undoLoad (bulkTable d)).endBulk d, status := stBadDesc }
  else { s := s.endBulk d, status := if d.noRoom != 0 then stNoRoom else 0, d0 := put d.noRoom 32 + d.written
         d1 := d.done + d.buf.length }

def specTableBulkLoad : CmdSpec :=
  { cls := 0, op := 2, control := true
    bad0 := fun _ _ d => !tableKnown (bulkTable d) || (bulkRehash d && bulkTable d != 5)
    wait := fun s d => (s.writerOf (bulkTable d)).isSome
    begun := fun s r d => s.writerOf (bulkTable d) == some r
    mode := .input (fun d => d.bad || d.aux ≥ bulkCount d) bulkFeed
      fun s _ d => bulkResult s d }

/-! ### Waiting TABLE commands (11 R291) -/

def tableSpec (op : Nat) : CmdSpec := if op = 2 then specTableBulkLoad else specTableWrite

/-- Run the commands that waited for tables no longer being written, in arrival order. -/
def Body.wakeTables (s : Body) : Nat → Body
  | 0 => s
  | n + 1 =>
    match s.tables.waiting.find? fun r =>
        match s.desc r with
        | some d => (s.writerOf (d.f 2 7 0)).isNone
        | none => true with
    | none => s
    | some r =>
      let s := { s with tables := { s.tables with waiting := s.tables.waiting.filter fun x => x != r } }
      match s.desc r with
      | some d => (s.goOn (tableSpec d.op) r).wakeTables n
      | none => s.wakeTables n

def Body.wakeAll (s : Body) : Body := s.wakeTables (s.tables.waiting.length + 1)

/-! ### The commands -/

def execTableWrite (r : CmdRef) (data : List Byte) (s : State) : Ans :=
  onBody s fun b => (hostCmd specTableWrite b r data 0).wakeAll

def execTableBulkLoad (r : CmdRef) (data : List Byte) (s : State) : Ans :=
  onBody s fun b => (hostCmd specTableBulkLoad b r data 0).wakeAll

def execTableFlip (r : CmdRef) (s : State) : Ans :=
  onBody s fun b => hostCmd specTableFlip b r [] 0

/-- Key bytes of the command's operand: the leading bytes of KEY [495:176] (04 R114). -/
def execAgingVisit (typ : Byte) (key : BitVec 320) (s : State) : Ans :=
  onBody s fun b => if b.dataRuns then b.age (BitVec.ofNat 512 (put typ.toNat 504 + put 1 501 + put key.toNat 176)) else b

end Sys2Proof.Machine
end

