-- ==== Sys2Proof/Machine/Formats.lean ====
section
/-! DEFINITION. Element formats: exact values, rounding, decoding and encoding (07 Tables 7-1 to 7-6, R167-R183). -/
namespace Sys2Proof.Machine

/-! ### Rounding -/

/-- A floating-point format: significand bits, exponent of the least significant subnormal bit, first exponent that overflows. -/
structure Flt where
  p : Nat
  lsb : Int
  top : Int

def fp64 : Flt := ⟨53, -1074, 1024⟩
def fp32 : Flt := ⟨24, -149, 128⟩
def fp16 : Flt := ⟨11, -24, 16⟩
def bf16 : Flt := ⟨8, -133, 128⟩
def e4m3 : Flt := ⟨4, -9, 9⟩
def e5m2 : Flt := ⟨3, -16, 16⟩
def e2m1 : Flt := ⟨2, -1, 3⟩
/-- Double-FP64: 106-bit significand, FP64's exponents (07 Table 7-5, R178; entry 15). -/
def dfp64 : Flt := ⟨106, -1074, 1024⟩

/-- Final rounding: to nearest even, or stochastic with the 32-bit draw r (07 R183). -/
inductive Rnd where
  | rne
  | sr (r : Nat)

def bitLen (m : Nat) : Nat := if m = 0 then 0 else Nat.log2 m + 1

/-- m / 2^k rounded: ties to even, or away from zero when the 32 bits below plus r reach 2^32 (07 R183). -/
def roundShift (rd : Rnd) (m k : Nat) : Nat :=
  let q := m >>> k
  let rem := m % 2 ^ k
  match rd with
  | .rne => if 2 * rem > 2 ^ k ∨ (2 * rem = 2 ^ k ∧ q % 2 = 1) then q + 1 else q
  | .sr r => if rem * 2 ^ 32 / 2 ^ k + r ≥ 2 ^ 32 then q + 1 else q

/-- Round ±m × 2^e to p bits with least exponent `lsb`, no upper limit: significand and exponent. -/
def roundTo (rd : Rnd) (p : Nat) (lsb : Int) (m : Nat) (e : Int) : Nat × Int :=
  if m = 0 then (0, lsb)
  else
    let t := max (e + (bitLen m : Int) - (p : Int)) lsb
    if t ≤ e then (m, e) else (roundShift rd m (t - e).toNat, t)

/-- The value reaches 2^top. -/
def reaches (m : Nat) (e : Int) (top : Int) : Bool := m != 0 && e + (bitLen m : Int) > top

/-- A value in a format, overflow to infinity. -/
def Flt.round (f : Flt) (rd : Rnd) (neg : Bool) (m : Nat) (e : Int) : Num :=
  let (q, t) := roundTo rd f.p f.lsb m e
  if reaches q t f.top then .inf neg else .fin neg q t

/-- Round to nearest even into a format. -/
def Flt.rne (f : Flt) : Num → Num
  | .fin s m e => f.round .rne s m e
  | x => x

/-! ### Exact values -/

/-- The signed significand of a value at exponent e', which is not above its own. -/
def atExp (s : Bool) (m : Nat) (e e' : Int) : Int :=
  let v : Int := (m : Int) * (2 : Int) ^ (e - e').toNat
  if s then -v else v

def ofSigned (v : Int) (e : Int) (zeroNeg : Bool) : Num := .fin (if v = 0 then zeroNeg else v < 0) v.natAbs e

def Num.neg : Num → Num
  | .fin s m e => .fin (!s) m e
  | .inf s => .inf (!s)
  | .nan => .nan

def Num.abs : Num → Num
  | .fin _ m e => .fin false m e
  | .inf _ => .inf false
  | .nan => .nan

def Num.isNan : Num → Bool
  | .nan => true
  | _ => false

def Num.isFin : Num → Bool
  | .fin .. => true
  | _ => false

def Num.isZero : Num → Bool
  | .fin _ m _ => m == 0
  | _ => false

def Num.isNeg : Num → Bool
  | .fin s _ _ => s
  | .inf s => s
  | .nan => false

def zero : Num := .fin false 0 0

/-- Exact sum (no rounding); opposite infinities give NaN; a zero sum is -0 only of two negative zeros. -/
def Num.add : Num → Num → Num
  | .nan, _ => .nan
  | _, .nan => .nan
  | .inf a, .inf b => if a = b then .inf a else .nan
  | .inf a, _ => .inf a
  | _, .inf b => .inf b
  | .fin a m e, .fin b n g =>
    if m = 0 ∧ n = 0 then .fin (a && b) 0 0
    else
      let x := min e g
      ofSigned (atExp a m e x + atExp b n g x) x false

/-- Exact product. -/
def Num.mul : Num → Num → Num
  | .nan, _ => .nan
  | _, .nan => .nan
  | .inf a, .inf b => .inf (a != b)
  | .inf a, .fin b n _ => if n = 0 then .nan else .inf (a != b)
  | .fin a m _, .inf b => if m = 0 then .nan else .inf (a != b)
  | .fin a m e, .fin b n g => .fin (a != b) (m * n) (e + g)

/-- An addition of opposite infinities (07 Table 7-7, INVALID). -/
def clash : Num → Num → Bool
  | .inf a, .inf b => a != b
  | _, _ => false

/-- a + b rounded once. -/
def Flt.add (f : Flt) (a b : Num) : Num := f.rne (a.add b)

def Flt.mul (f : Flt) (a b : Num) : Num := f.rne (a.mul b)

/-- One fused multiply-add with one rounding (07 R192). -/
def Flt.fma (f : Flt) (a b c : Num) : Num := f.rne ((a.mul b).add c)

/-- a / b correctly rounded (07 R192). -/
def Flt.div (f : Flt) : Num → Num → Num
  | .nan, _ => .nan
  | _, .nan => .nan
  | .inf a, .inf b => let _ := a == b; .nan
  | .inf a, .fin b _ _ => .inf (a != b)
  | .fin a _ _, .inf b => .fin (a != b) 0 0
  | .fin a m e, .fin b n g =>
    if n = 0 then (if m = 0 then .nan else .inf (a != b))
    else
      let k := f.p + 3 + bitLen n
      let q := (m <<< k) / n
      let sticky := if (m <<< k) % n = 0 then 0 else 1
      f.round .rne (a != b) (2 * q + sticky) (e - g - (k : Int) - 1)

/-- Integer square root by bits, high to low. -/
def isqrtGo (n : Nat) : Nat → Nat → Nat
  | 0, r => r
  | k + 1, r =>
    let t := r + 2 ^ k
    isqrtGo n k (if t * t ≤ n then t else r)

def isqrt (n : Nat) : Nat := isqrtGo n (bitLen n / 2 + 1) 0

/-- sqrt correctly rounded (07 R192). -/
def Flt.sqrt (f : Flt) : Num → Num
  | .nan => .nan
  | .inf s => if s then .nan else .inf false
  | .fin s m e =>
    if m = 0 then .fin s 0 0
    else if s then .nan
    else
      let (m, e) := if e % 2 = 0 then (m, e) else (2 * m, e - 1)
      let k := f.p + 3
      let n := m <<< (2 * k)
      let r := isqrt n
      let sticky := if r * r = n then 0 else 1
      f.round .rne false (2 * r + sticky) (e / 2 - (k : Int) - 1)

/-- Is a below b, for numbers: -0 is less than +0 (07 R175). -/
def Num.lt : Num → Num → Bool
  | .nan, _ => false
  | _, .nan => false
  | .inf a, .inf b => a && !b
  | .inf a, _ => a
  | _, .inf b => !b
  | .fin a m e, .fin b n g =>
    let x := min e g
    let u := atExp a m e x
    let v := atExp b n g x
    decide (u < v) || (decide (u = v) && u == 0 && a && !b)

/-- Equal as numbers (zeros of either sign are equal). -/
def Num.eqv (a b : Num) : Bool :=
  match a, b with
  | .fin s m e, .fin t n g => atExp s m e (min e g) == atExp t n g (min e g)
  | .inf s, .inf t => s == t
  | _, _ => false

/-- a ≤ b as numbers. -/
def Num.le (a b : Num) : Bool := a.lt b || a.eqv b

/-- IEEE 754-2019 minimum and maximum (07 R175). -/
def Num.minimum (a b : Num) : Num := if a.isNan || b.isNan then .nan else if b.lt a then b else a

def Num.maximum (a b : Num) : Num := if a.isNan || b.isNan then .nan else if a.lt b then b else a

/-- An integer as a value. -/
def numOfInt (v : Int) : Num := ofSigned v 0 false

/-- m × 2^e. -/
def pow2 (e : Int) : Num := .fin false 1 e

/-! ### Bit patterns -/

/-- Decode an IEEE pattern with `eb` exponent and `fb` fraction bits; `ieee` formats use the top exponent for Inf and NaN. -/
def decodeFlt (eb fb : Nat) (bias : Int) (ieee : Bool) (w : Nat) : Num :=
  let s := w.testBit (eb + fb)
  let ex := (w >>> fb) % 2 ^ eb
  let fr := w % 2 ^ fb
  if ieee && ex = 2 ^ eb - 1 then (if fr = 0 then .inf s else .nan)
  else if ex = 0 then .fin s fr (1 - bias - (fb : Int))
  else .fin s (2 ^ fb + fr) ((ex : Int) - bias - (fb : Int))

/-- Decode an element of FMT 0-5 (07 Table 7-1). -/
def decodeFmt (fmt w : Nat) : Num :=
  match fmt with
  | 0 => decodeFlt 11 52 1023 true w
  | 1 => decodeFlt 8 23 127 true w
  | 2 => decodeFlt 5 10 15 true w
  | 3 => decodeFlt 8 7 127 true w
  | 4 => if w % 128 = 127 then .nan else decodeFlt 4 3 7 false w
  | 5 => decodeFlt 5 2 15 true w
  | _ => .nan

/-- E2M1 element (07 Table 7-1). -/
def decodeE2m1 (w : Nat) : Num := decodeFlt 2 1 1 false w

/-- Two's complement of n bits. -/
def signedOf (n w : Nat) : Int := if w % 2 ^ n < 2 ^ (n - 1) then (w % 2 ^ n : Nat) else (w % 2 ^ n : Nat) - (2 : Int) ^ n

/-- Times 2^(s - 127). -/
def Num.scale (x : Num) (s : Int) : Num :=
  match x with
  | .fin n m e => .fin n m (e + s)
  | y => y

/-- MXINT8 element under scale code s (07 R170). -/
def decodeMxInt8 (w : Nat) : Num := ofSigned (signedOf 8 w) (-6) false

/-- The pattern of a rounded significand q × 2^t in a format with `fb` fraction bits. -/
def packFlt (eb fb : Nat) (bias : Int) (neg : Bool) (q : Nat) (t : Int) : Nat :=
  let sgn := if neg then 2 ^ (eb + fb) else 0
  if q = 0 then sgn
  else
    let ex := t + (bitLen q : Int) - 1
    if ex < 1 - bias then sgn + q * 2 ^ (t - (1 - bias - (fb : Int))).toNat
    else
      let q' := if bitLen q ≤ fb + 1 then q <<< (fb + 1 - bitLen q) else q >>> (bitLen q - fb - 1)
      sgn + ((ex + bias).toNat <<< fb) + (q' - 2 ^ fb)

/-- Exponent and fraction bits and bias of FMT 0-5. -/
def fmtShape : Nat → Nat × Nat × Int
  | 0 => (11, 52, 1023) | 1 => (8, 23, 127) | 2 => (5, 10, 15) | 3 => (8, 7, 127) | 4 => (4, 3, 7) | _ => (5, 2, 15)

def fmtFlt : Nat → Flt
  | 0 => fp64 | 1 => fp32 | 2 => fp16 | 3 => bf16 | 4 => e4m3 | _ => e5m2

/-- Canonical quiet NaNs (07 Table 7-6); E4M3 has one NaN. -/
def canonicalNan : Nat → Nat
  | 0 => 0x7FF8000000000000 | 1 => 0x7FC00000 | 2 => 0x7E00 | 3 => 0x7FC0 | 4 => 0x7F | _ => 0x7E

/-- Infinity of FMT 0-5. -/
def infBits (fmt : Nat) (neg : Bool) : Nat :=
  let (eb, fb, _) := fmtShape fmt
  (if neg then 2 ^ (eb + fb) else 0) + (2 ^ eb - 1) <<< fb

/-! ### Arithmetic flags (07 Table 7-7) as a bit set, in the order of the table -/

structure AFlags where
  nanIn : Bool := false
  invalid : Bool := false
  nanOut : Bool := false
  overflow : Bool := false
  sat : Bool := false
  nonfinite : Bool := false
deriving DecidableEq, Repr

def AFlags.or (a b : AFlags) : AFlags :=
  { nanIn := a.nanIn || b.nanIn, invalid := a.invalid || b.invalid, nanOut := a.nanOut || b.nanOut
    overflow := a.overflow || b.overflow, sat := a.sat || b.sat, nonfinite := a.nonfinite || b.nonfinite }

/-- Convert a value to FMT 0-5 (07 Table 7-6): pattern and flags. -/
def encodeFmt (fmt : Nat) (rd : Rnd) (x : Num) : Nat × AFlags :=
  let (eb, fb, bias) := fmtShape fmt
  match x with
  | .nan => (canonicalNan fmt, { nanOut := true })
  | .inf s => if fmt = 4 then (0x7F, { overflow := true }) else (infBits fmt s, {})
  | .fin s m e =>
    let f := fmtFlt fmt
    let (q, t) := roundTo rd f.p f.lsb m e
    if fmt = 4 then
      -- the largest finite E4M3 value is 448, one step below the top pattern
      if Num.lt (.fin false 7 6) (.fin false q t) then ((if s then 0xFE else 0x7E), { overflow := true })
      else (packFlt eb fb bias s q t, {})
    else if reaches q t f.top then (infBits fmt s, { overflow := true })
    else (packFlt eb fb bias s q t, {})

/-- Saturate to n-bit two's complement. -/
def satInt (n : Nat) (v : Int) : Int × Bool :=
  let hi : Int := (2 : Int) ^ (n - 1) - 1
  let lo : Int := -((2 : Int) ^ (n - 1))
  if v > hi then (hi, true) else if v < lo then (lo, true) else (v, false)

/-- n-bit pattern of an integer. -/
def patOf (n : Nat) (v : Int) : Nat := (v % (2 : Int) ^ n).toNat

/-! ### Block scaling (07 R181) -/

/-- Formats with block scales: MXFP4, MXINT8, and E4M3 or E5M2 block-scaled. -/
inductive Blk where
  | fp4 | int8 | e4 | e5
deriving DecidableEq, Repr

/-- M, the largest element magnitude. -/
def Blk.max : Blk → Num
  | .fp4 => .fin false 6 0 | .int8 => .fin false 127 (-6) | .e4 => .fin false 448 0 | .e5 => .fin false 57344 0

/-- The smallest X with amax ≤ M × 2^X. -/
def blockExp (b : Blk) (amax : Num) : Int :=
  match amax, b.max with
  | .fin _ m e, .fin _ n g =>
    if m = 0 then -127
    else
      -- start one below the exponent difference, then rise until it covers amax
      let x0 : Int := (e + (bitLen m : Int)) - (g + (bitLen n : Int)) - 1
      let ok := fun (x : Int) => Num.le amax (.fin false n (g + x))
      if ok x0 then x0 else if ok (x0 + 1) then x0 + 1 else x0 + 2
  | _, _ => -127

/-- One element v / 2^X as the element pattern, clipped to ±M when X was lowered to 127; exact zero is element 0 (Table 7-6). -/
def blockElem (b : Blk) (rd : Rnd) (clip : Bool) (x : Int) (v : Num) : Nat × AFlags :=
  match v with
  | .fin s m e =>
    if m = 0 then (0, {}) else
    let y : Num := .fin s m (e - x)
    let big := clip && Num.lt b.max y.abs
    let fl : AFlags := { overflow := big }
    let y := if big then (match b.max with | .fin _ n g => Num.fin s n g | z => z) else y
    match b, y with
    | .fp4, .fin s m e => let (q, t) := roundTo rd 2 (-1) m e; (packFlt 2 1 1 s q t, fl)
    | .int8, .fin s m e =>
      let (q, t) := roundTo rd 64 (-6) m e
      let n := q * 2 ^ (t + 6).toNat
      (patOf 8 (if s then -(min n 127 : Nat) else (min n 127 : Nat)), fl)
    | .e4, y => ((encodeFmt 4 rd y).1, fl)
    | .e5, y => ((encodeFmt 5 rd y).1, fl)
    | _, _ => (0, fl)
  | _ => (0, {})

/-- A block of 32 values: scale code, element patterns, flags (07 R181, Table 7-6). `rd i` rounds element i. -/
def encodeBlock (b : Blk) (rd : Nat → Rnd) (base : Nat) (vs : List Num) : Nat × List Nat × AFlags :=
  let hasNan := vs.any Num.isNan
  let hasInf := vs.any fun v => !v.isFin && !v.isNan
  if hasNan || hasInf then (0xFF, vs.map (fun _ => 0), { nanOut := hasNan, overflow := hasInf })
  else
    let amax := vs.foldl (fun a v => if a.lt v.abs then v.abs else a) zero
    let x := blockExp b amax
    let clip := x > 127
    let x := if x > 127 then 127 else if x < -127 then -127 else x
    let es := (vs.zipIdx).map fun p => blockElem b (rd (base + p.2)) clip x p.1
    ((x + 127).toNat, es.map (·.1), es.foldl (fun f e => f.or e.2) {})

/-- Decode one block under its scale code. -/
def decodeBlock (b : Blk) (scale : Nat) (es : List Nat) : List Num :=
  if scale = 0xFF then es.map fun _ => .nan
  else es.map fun w =>
    (match b with
      | .fp4 => decodeE2m1 w
      | .int8 => decodeMxInt8 w
      | .e4 => decodeFmt 4 w
      | .e5 => decodeFmt 5 w).scale ((scale : Int) - 127)

/-! ### Payloads (07 R167, R168, Table 7-2) -/

/-- Element width in bits. -/
def fmtBits : Nat → Nat
  | 0 => 64 | 1 => 32 | 2 => 16 | 3 => 16 | 4 => 8 | 5 => 8 | 6 => 4 | 7 => 8 | 8 => 32 | _ => 64

def isMx (fmt : Nat) : Bool := fmt == 6 || fmt == 7
def isInt (fmt : Nat) : Bool := fmt == 8 || fmt == 9
def isFloat (fmt : Nat) : Bool := fmt < 8

/-- The block form of a format, when its payload is made of superblocks. -/
def blkOf (fmt : Nat) (scaled : Bool) : Option Blk :=
  match fmt with
  | 6 => some .fp4
  | 7 => some .int8
  | 4 => if scaled then some .e4 else none
  | 5 => if scaled then some .e5 else none
  | _ => none

/-- Words of a superblock. -/
def superWords (fmt : Nat) : Nat := if fmt = 6 then 17 else 33

/-- Elements that LEN words hold; pairs count once (07 Table 7-2, 02 R43). -/
def elemsIn (fmt : Nat) (scaled pair : Bool) (len : Nat) : Nat :=
  if pair then len * 64 / (2 * fmtBits fmt)
  else if (blkOf fmt scaled).isSome then len / superWords fmt * 256
  else len * 64 / fmtBits fmt

/-- Payload bytes, most significant byte of each word first (00 R6). -/
def payloadBytes (ws : List W64) : List Byte := ws.flatMap fun w => beBytes 8 w.toNat

/-- Words from bytes, the last one zero-filled. -/
def wordsOf (bs : List Byte) : List W64 :=
  (pieces 8 (bs.length + 1) bs).map fun l => BitVec.ofNat 64 (beNat (l ++ List.replicate (8 - l.length) 0))

/-- Element patterns of an unscaled payload. -/
def patterns (fmt : Nat) (bs : List Byte) : List Nat :=
  if fmtBits fmt = 4 then bs.flatMap fun b => [b.toNat / 16, b.toNat % 16]
  else (pieces (fmtBits fmt / 8) (bs.length + 1) bs).map beNat

/-- One superblock's bytes: eight scales, then the elements of blocks 0 to 7. -/
def decodeSuper (b : Blk) (bs : List Byte) : List Num :=
  let sc := (bs.take 8).map BitVec.toNat
  let fmt := match b with | .fp4 => 6 | _ => 7
  let es := patterns fmt (bs.drop 8)
  ((pieces 32 8 es).zip sc).flatMap fun p => decodeBlock b p.2 p.1

/-- Decoded float elements of a payload. -/
def decodeNums (fmt : Nat) (scaled : Bool) (ws : List W64) : List Num :=
  let bs := payloadBytes ws
  match blkOf fmt scaled with
  | some b => (pieces (8 * superWords fmt) (bs.length + 1) bs).flatMap (decodeSuper b)
  | none => (patterns fmt bs).map (decodeFmt fmt)

/-- Decoded integer elements. -/
def decodeInts (fmt : Nat) (ws : List W64) : List Int := (patterns fmt (payloadBytes ws)).map (signedOf (fmtBits fmt))

/-- Pairs as (value pattern, location pattern) (07 R176). -/
def decodePairs (fmt : Nat) (ws : List W64) : List (W64 × W64) :=
  let es := patterns fmt (payloadBytes ws)
  (pieces 2 (es.length + 1) es).map fun l => (BitVec.ofNat 64 (nth l 0 0), BitVec.ofNat 64 (nth l 1 0))

/-- Bytes of element patterns. -/
def patBytes (fmt : Nat) (es : List Nat) : List Byte :=
  if fmtBits fmt = 4 then
    (pieces 2 (es.length + 1) es).map fun l => BitVec.ofNat 8 (nth l 0 0 * 16 + nth l 1 0)
  else es.flatMap fun e => beBytes (fmtBits fmt / 8) e

/-- The draw of an output element (07 R183). -/
def mix64 (z : W64) : W64 :=
  let z := (z ^^^ (z >>> 30)) * 0xBF58476D1CE4E5B9
  let z := (z ^^^ (z >>> 27)) * 0x94D049BB133111EB
  z ^^^ (z >>> 31)

def srBits (seed : W64) (group chunk elem : Nat) : Nat :=
  let x := mix64 (seed ^^^ (BitVec.ofNat 64 group <<< 24) ^^^ BitVec.ofNat 64 chunk)
  ((mix64 (x ^^^ BitVec.ofNat 64 elem)) >>> 32).toNat

end Sys2Proof.Machine
end

