-- ==== Sys2Proof/Machine/Arith.lean ====
section
/-! DEFINITION. Reduction arithmetic of a Sett: accumulators, passes, transit and final conversion, check sums, the checks of
ICK, projection and the update rules (07 R171-R196, R426). -/
namespace Sys2Proof.Machine

/-! ### Arithmetic fields of a context (07 Table 7-3, 08 Table 8-6) -/

structure Arith where
  ifmt : Nat
  ofmt : Nat
  oscale : Bool
  tout : Bool
  rop : Nat
  mode : Nat
  sr : Bool
  seed : W64

/-- Fields at their places of Table 8-6. -/
def arithOf (p : BitVec 1024) : Arith :=
  { ifmt := fld p 925 922, ofmt := fld p 921 918, oscale := bit p 917, tout := bit p 916, rop := fld p 915 912
    mode := fld p 911 910, sr := bit p 909, seed := bits p 639 576 }

abbrev ropSum : Nat := 0
abbrev ropWsum : Nat := 1
abbrev ropMin : Nat := 2
abbrev ropMax : Nat := 3
abbrev ropMinloc : Nat := 4
abbrev ropMaxloc : Nat := 5
abbrev ropProject : Nat := 9
abbrev ropUpdate : Nat := 10

def Arith.pair (a : Arith) : Bool := a.rop == ropMinloc || a.rop == ropMaxloc
def Arith.bitwise (a : Arith) : Bool := 6 ≤ a.rop && a.rop ≤ 8
def Arith.minmax (a : Arith) : Bool := a.rop == ropMin || a.rop == ropMax
/-- Sums in 96 bits: EXACT of SUM and UPDATE (07 Table 7-5). -/
def Arith.exact (a : Arith) : Bool := a.mode == 1 && !a.minmax
def Arith.scaledOut (a : Arith) : Bool := a.oscale && (a.ofmt == 4 || a.ofmt == 5)

/-- Float accumulator of an input format (07 Table 7-5). -/
def accFlt (ifmt : Nat) : Flt := if ifmt = 0 then dfp64 else if ifmt = 1 then fp64 else fp32

/-- u_acc as a power of two (07 Table 7-5). -/
def uAcc (ifmt : Nat) : Num := pow2 (if ifmt = 0 then -104 else if ifmt = 1 then -53 else -24)

/-- Least significant bit of the EXACT fixed point (07 Table 7-5). -/
def fixedLsb (ifmt : Nat) : Int := if ifmt = 2 then -24 else if ifmt = 4 then -9 else if ifmt = 5 then -16 else 0

/-- Transit format of partials between modules (07 Table 7-5). -/
def Arith.transit (a : Arith) : Nat :=
  if a.pair then a.ifmt
  else if isInt a.ifmt || a.exact then 9
  else if a.tout then a.ofmt
  else if a.ifmt ≤ 1 then 0 else 1

/-- Transit partials take the block-scaled layout of OFMT. -/
def Arith.transitScaled (a : Arith) : Bool := a.tout && a.scaledOut && !isInt a.ifmt && !a.exact && !a.pair

/-- Accumulator width in bytes (08 R222). -/
def Arith.accWidth (a : Arith) : Nat :=
  if a.pair then 2 * fmtBits a.ifmt / 8
  else if a.exact then 12
  else if isInt a.ifmt then 8
  else if a.ifmt = 0 then 16 else if a.ifmt = 1 then 8 else 4

/-- Table 7-4 and R172: the combination is legal on a variant with or without fabric memory. -/
def Arith.legal (a : Arith) : Bool :=
  let fi := isFloat a.ifmt
  let fo := isFloat a.ofmt
  let ex := a.mode == 1 && (a.ifmt == 2 || a.ifmt == 4 || a.ifmt == 5)
  let fast := a.mode == 0
  let ord := a.mode == 2
  let ii := isInt a.ifmt && isInt a.ofmt
  a.ifmt ≤ 9 && a.ofmt ≤ 9 && a.mode ≤ 2 && !((a.rop == ropSum || a.rop == ropUpdate) && a.mode == 1 && a.tout) &&
  match a.rop with
  | 0 => (fi && fo && (fast || ex || ord)) || (ii && (fast || a.mode == 1))
  | 1 => fi && fo && (fast || ord)
  | 2 => fi == fo
  | 3 => fi == fo
  | 4 => (a.ifmt == 0 || a.ifmt == 1 || isInt a.ifmt) && a.ofmt == a.ifmt && fast
  | 5 => (a.ifmt == 0 || a.ifmt == 1 || isInt a.ifmt) && a.ofmt == a.ifmt && fast
  | 6 => isInt a.ifmt && a.ofmt == a.ifmt && fast
  | 7 => isInt a.ifmt && a.ofmt == a.ifmt && fast
  | 8 => isInt a.ifmt && a.ofmt == a.ifmt && fast
  | 9 => (2 ≤ a.ifmt && a.ifmt ≤ 7) && fo && (fast || ord)
  | 10 => (1 ≤ a.ifmt && a.ifmt ≤ 7) && fo && a.ofmt != 0 && (fast || ex || ord)
  | _ => false

/-- Some format of the context is MX or block-scaled FP8 (07 R169). -/
def Arith.blocked (a : Arith) : Bool := isMx a.ifmt || isMx a.ofmt || isMx a.transit || a.scaledOut

/-! ### Elements of a frame -/

inductive Elem where
  | num (x : Num)
  | int (v : Int)
  | pair (v loc : W64)

/-- Elements of a full frame under FRAMEB (08 R216). -/
def fullElems (fmt : Nat) (scaled pair : Bool) (frameb : Nat) : Nat := elemsIn fmt scaled pair (1024 / 2 ^ frameb)

/-- Payload words of n elements. -/
def wordsFor (fmt : Nat) (scaled pair : Bool) (n : Nat) : Nat :=
  if pair then ceilDiv (n * 2 * fmtBits fmt) 64
  else if (blkOf fmt scaled).isSome then n / 256 * superWords fmt
  else ceilDiv (n * fmtBits fmt) 64

/-- The first n elements of a payload. -/
def decodeElems (fmt : Nat) (scaled pair : Bool) (ws : List W64) (n : Nat) : List Elem :=
  (if pair then (decodePairs fmt ws).map fun p => .pair p.1 p.2
   else if isInt fmt then (decodeInts fmt ws).map .int
   else (decodeNums fmt scaled ws).map .num).take n

/-! ### Accumulators -/

/-- Two's complement of 96 bits. -/
def wrap96 (v : Int) : Int := signedOf 96 (v % (2 : Int) ^ 96).toNat

/-- Special state of a value under EXACT (07 R426). -/
def specialOf : Num → Nat
  | .fin .. => 0
  | .inf s => if s then 2 else 1
  | .nan => 3

/-- Reserved codes of an EXACT float partial (07 R426): special state of an INT64, 0 for a number. -/
def codeSpecial (v : Int) : Nat :=
  if v = -(2 : Int) ^ 63 then 3 else if v = -(2 : Int) ^ 63 + 1 then 2 else if v = (2 : Int) ^ 63 - 1 then 1 else 0

/-- The code that a special state travels as. -/
def specialCode (sp : Nat) : Int :=
  if sp = 3 then -(2 : Int) ^ 63 else if sp = 2 then -(2 : Int) ^ 63 + 1 else (2 : Int) ^ 63 - 1

/-- The value of a pair with its NaN made the canonical quiet NaN (07 R171, R180). -/
def quietPair (fmt : Nat) (v : W64) : W64 :=
  if isFloat fmt && (decodeFmt fmt v.toNat).isNan then BitVec.ofNat 64 (canonicalNan fmt) else v

/-- An element as an accumulator value; `w` is the weight of a Level 0 contribution under WSUM (07 R174, R187, R426). -/
def liftElem (a : Arith) (partial_ : Bool) (w : Option Num) : Elem → Acc
  | .pair v l => .pair (quietPair a.ifmt v) l
  | .int v =>
    if a.exact then
      if isInt a.ifmt then .fixed v 0
      else if partial_ && codeSpecial v != 0 then .fixed 0 (codeSpecial v) else .fixed v 0
    else .int v (BitVec.ofInt 64 v)
  | .num x =>
    if a.exact then
      match x with
      | .fin s m e => .fixed (atExp s m e (fixedLsb a.ifmt)) 0
      | y => .fixed 0 (specialOf y)
    else match w with
      | some y => .num ((accFlt a.ifmt).mul x y)
      | none => .num ((accFlt a.ifmt).rne x)

/-- An input element that is NaN (07 Table 7-7). -/
def elemNan (a : Arith) (partial_ : Bool) : Elem → Bool
  | .num x => x.isNan
  | .int v => a.exact && !isInt a.ifmt && partial_ && codeSpecial v == 3
  | .pair v _ => isFloat a.ifmt && (decodeFmt a.ifmt v.toNat).isNan

/-- The value of a pair of the context's format. -/
def pairNum (fmt : Nat) (v : W64) : Num := if isInt fmt then numOfInt (signedOf (fmtBits fmt) v.toNat) else decodeFmt fmt v.toNat

/-- The first pair wins MINLOC (`lo`) or MAXLOC over the second (07 R176). -/
def pairWins (fmt : Nat) (lo : Bool) (v l w k : W64) : Bool :=
  let x := pairNum fmt v
  let y := pairNum fmt w
  if x.isNan && y.isNan then l.toNat ≤ k.toNat
  else if x.isNan then true
  else if y.isNan then false
  else if lo && x.lt y then true
  else if !lo && y.lt x then true
  else if lo && y.lt x then false
  else if !lo && x.lt y then false
  else l.toNat ≤ k.toNat

/-- Combine two special states (07 R426). -/
def specialJoin (x y : Nat) : Nat × Bool :=
  if x = 3 ∨ y = 3 then (3, false)
  else if x = 0 then (y, false)
  else if y = 0 then (x, false)
  else if x = y then (x, false) else (3, true)

/-- One addition, comparison or bitwise step (07 R174-R178, R182, R187, R426). -/
def combine (a : Arith) : Acc → Acc → Acc × AFlags
  | .num x, .num y =>
    if a.rop = ropMin then (.num (x.minimum y), {})
    else if a.rop = ropMax then (.num (x.maximum y), {})
    else (.num ((accFlt a.ifmt).add x y), { invalid := clash x y })
  | .int x p, .int y q =>
    if a.rop = ropMin then (if y < x then (.int y q, {}) else (.int x p, {}))
    else if a.rop = ropMax then (if x < y then (.int y q, {}) else (.int x p, {}))
    else if a.rop = 6 then (.int (p &&& q).toInt (p &&& q), {})
    else if a.rop = 7 then (.int (p ||| q).toInt (p ||| q), {})
    else if a.rop = 8 then (.int (p ^^^ q).toInt (p ^^^ q), {})
    else
      let (v, sat) := satInt 64 (x + y)
      (.int v (p + q), { sat })
  | .fixed x s, .fixed y t =>
    let (u, inv) := specialJoin s t
    (.fixed (wrap96 (x + y)) u, { invalid := inv })
  | .pair v l, .pair w k => (if pairWins a.ifmt (a.rop == ropMinloc) v l w k then .pair v l else .pair w k, {})
  | x, _ => (x, {})

/-- Combine where either side may be missing. -/
def combineOpt (a : Arith) : Option Acc → Option Acc → Option Acc × AFlags
  | none, y => (y, {})
  | x, none => (x, {})
  | some x, some y => let r := combine a x y; (some r.1, r.2)

/-- One level of the adder tree: neighbouring rows in pairs (07 R184). -/
def treeLevel (a : Arith) : List (Option Acc) → List (Option Acc) × AFlags
  | x :: y :: t =>
    let r := combineOpt a x y
    let q := treeLevel a t
    (r.1 :: q.1, r.2.or q.2)
  | l => (l, {})

/-- The four-level tree over up to 16 rows. -/
def tree16 (a : Arith) (rows : List (Option Acc)) : Option Acc × AFlags :=
  let r1 := treeLevel a (rows ++ List.replicate (16 - rows.length) none)
  let r2 := treeLevel a r1.1
  let r3 := treeLevel a r2.1
  let r4 := treeLevel a r3.1
  ((nth r4.1 0 none), ((r1.2.or r2.2).or r3.2).or r4.2)

/-- The elements of rows by position; a row may have none there. -/
def columns {α : Type} (n : Nat) (rows : List (List (Option α))) : List (List (Option α)) :=
  (List.range n).map fun i => rows.map fun r => nth r i none

/-- One pass over an element range: the rows' sum is added into the accumulators (07 R184). -/
def passRange (a : Arith) (acc : List (Option Acc)) (rows : List (List (Option Acc))) : List (Option Acc) × AFlags :=
  let cols := columns acc.length rows
  let rs := (acc.zip cols).map fun p =>
    let t := tree16 a p.2
    let r := combineOpt a p.1 t.1
    (r.1, t.2.or r.2)
  (rs.map (·.1), rs.foldl (fun (f : AFlags) r => f.or r.2) {})

/-- Replace the range from `off` of a list. -/
def spliceAt {α : Type} (l : List α) (off : Nat) (m : List α) : List α := l.take off ++ m ++ l.drop (off + m.length)

/-- ORDERED: runs of 16 positions through the tree, and again on the results (07 R188); `fuel` bounds the levels. -/
def runs16 (a : Arith) : Nat → List (Option Acc) → Option Acc × AFlags
  | 0, l => (nth l 0 none, {})
  | n + 1, l =>
    if l.length ≤ 1 then (nth l 0 none, {})
    else
      let rs := (pieces 16 (l.length + 1) l).map (tree16 a)
      let q := runs16 a n (rs.map (·.1))
      (q.1, (rs.foldl (fun (f : AFlags) r => f.or r.2) {}).or q.2)

/-- ORDERED over the positions of a stage: sub-stages of 1,024 positions (07 R188). -/
def orderedSum (a : Arith) (l : List (Option Acc)) : Option Acc × AFlags :=
  let rs := (pieces 1024 (l.length + 1) l).map (runs16 a 3)
  let q := runs16 a 5 (rs.map (·.1))
  (q.1, (rs.foldl (fun (f : AFlags) r => f.or r.2) {}).or q.2)

/-! ### Values, projection (07 R185) -/

/-- The number an accumulator stands for. -/
def accNum (a : Arith) : Acc → Num
  | .num x => x
  | .int v _ => numOfInt v
  | .fixed v sp =>
    if sp = 0 then ofSigned v (if isInt a.ifmt then 0 else fixedLsb a.ifmt) false
    else if sp = 1 then .inf false else if sp = 2 then .inf true else .nan
  | .pair v _ => pairNum a.ifmt v

/-- P[i][j] of a projection matrix; unstated when the host supplied none (entry 22). -/
def projAt (p : List W32) (i j : Nat) : Num :=
  match p[16 * i + j]? with
  | some w => decodeFmt 1 w.toNat
  | none => decodeFmt 1 ((Config.unstated (2 ^ 20 + 16 * i + j)).toNat % 2 ^ 32)

/-- One 64-element block into 16 outputs, in accumulator precision (07 R185), with the additions' INVALID (Table 7-7): each
output's products go through the adder tree, four runs of 16 and then their results, a height of seven with the product (R186). -/
def projectBlock (a : Arith) (p : List W32) (x : List (Option Num)) : List (Option Acc) × AFlags :=
  let f := accFlt a.ifmt
  let ys := (List.range 16).map fun j => runs16 a 2 (x.zipIdx.map fun v => v.1.map fun y => Acc.num (f.mul (projAt p v.2 j) y))
  (ys.map (·.1), ys.foldl (fun (f : AFlags) y => f.or y.2) {})

/-- The projection of a chunk's accumulators; nothing where nothing was added. -/
def projectAll (a : Arith) (p : List W32) (acc : List (Option Acc)) : List (Option Acc) × AFlags :=
  let r := (pieces 64 (acc.length + 1) acc).map fun b => projectBlock a p (b.map fun x => x.map (accNum a))
  (r.flatMap (·.1), r.foldl (fun (f : AFlags) x => f.or x.2) {})

/-! ### Conversion (07 R179-R183) -/

def accOrZero (a : Arith) : Option Acc → Acc
  | some x => x
  | none => if a.exact then .fixed 0 0 else if a.pair then .pair 0 0 else if isInt a.ifmt then .int 0 0 else .num zero

/-- One integer accumulator in an integer format: pattern and flags. -/
def encodeInt (a : Arith) (fmt : Nat) : Acc → Nat × AFlags
  | .int v w =>
    if a.bitwise then (w.toNat % 2 ^ fmtBits fmt, {})
    else let r := satInt (fmtBits fmt) v; (patOf (fmtBits fmt) r.1, { sat := r.2 })
  | .fixed v sp =>
    if sp = 0 then let r := satInt (fmtBits fmt) v; (patOf (fmtBits fmt) r.1, { sat := r.2 })
    else (patOf 64 (specialCode sp), {})
  | _ => (0, {})

/-- Convert a range of accumulators to a format: payload words and flags. `base` is the index of its first element in the
output chunk, `rd` rounds an element by its index. -/
def convertRange (a : Arith) (fmt : Nat) (scaled : Bool) (rd : Nat → Rnd) (base : Nat) (xs : List Acc) : List W64 × AFlags :=
  if a.pair then
    (wordsOf (patBytes a.ifmt (xs.flatMap fun x => match x with | .pair v l => [(quietPair a.ifmt v).toNat, l.toNat] | _ => [0, 0])),
      { nanOut := xs.any fun x => (accNum a x).isNan })
  else if isInt fmt then
    let es := xs.map (encodeInt a fmt)
    (wordsOf (patBytes fmt (es.map (·.1))), es.foldl (fun f e => f.or e.2) {})
  else match blkOf fmt scaled with
    | some b =>
      let ss := (pieces 256 (xs.length + 1) xs).zipIdx.map fun p =>
        let bl := (pieces 32 8 p.1).zipIdx.map fun q => encodeBlock b rd (base + 256 * p.2 + 32 * q.2) (q.1.map (accNum a))
        (bl.map (fun r => BitVec.ofNat 8 r.1) ++ patBytes fmt (bl.flatMap fun r => r.2.1), bl.foldl (fun (f : AFlags) r => f.or r.2.2) {})
      (wordsOf (ss.flatMap (·.1)), ss.foldl (fun f s => f.or s.2) {})
    | none =>
      let es := xs.zipIdx.map fun p => encodeFmt fmt (rd (base + p.2)) (accNum a p.1)
      (wordsOf (patBytes fmt (es.map (·.1))), es.foldl (fun f e => f.or e.2) {})

/-- Final rounding of an element by its index in the output chunk (07 R183). -/
def finalRnd (a : Arith) (group chunk elem : Nat) : Rnd := if a.sr then .sr (srBits a.seed group chunk elem) else .rne

/-! ### S and A (02 R51, 07 R193) -/

/-- S and A over a frame's elements as it carries them; `codes` marks EXACT float partials, whose codes count 0. -/
def sumsOf (fmt : Nat) (codes : Bool) (es : List Elem) : W64 × W64 :=
  if isInt fmt then
    (BitVec.ofInt 64 (es.foldl (fun s e => match e with
      | .int v => if codes && codeSpecial v != 0 then s else s + v
      | .pair v _ => s + signedOf (fmtBits fmt) v.toNat
      | .num _ => s) 0), 0)
  else
    let xs := es.map fun e => match e with | .num x => x | .pair v _ => decodeFmt fmt v.toNat | .int v => numOfInt v
    let s := xs.foldl (fun s x => fp64.add s x) zero
    let t := xs.foldl (fun s x => fp64.add s x.abs) zero
    (BitVec.ofNat 64 (encodeFmt 0 .rne s).1, BitVec.ofNat 64 (encodeFmt 0 .rne t).1)

/-! ### ICK (07 R194-R196) -/

/-- What ICK knows of one input: weight, sum of S and of A over its frames as numbers, S modulo 2^64, its elements. -/
structure IckIn where
  w : Option Num
  s : Num
  a : Num
  sInt : W64
  intFmt : Bool
  finiteA : Bool
  folds : List Int
  fixedSum : Int

def dsum (l : List Num) : Num := l.foldl (fun s x => dfp64.add s x) zero

/-- Difference within a tolerance, with the rules for values that are not finite (07 R194). -/
def withinTol (x y tol : Num) : Bool :=
  if x.isFin && y.isFin then (if tol.isFin then ((x.add y.neg).abs).le tol else true)
  else (x.isNan && y.isNan) || (match x, y with | .inf s, .inf t => s == t | _, _ => false)

/-- One-sided comparison y ≤ x + tol (07 Table 7-12, MIN); with the roles of sign turned for MAX. -/
def belowTol (y x tol : Num) : Bool :=
  if x.isFin && y.isFin then (if tol.isFin then y.le (x.add tol) else true)
  else (x.isNan && y.isNan) || (match x, y with | .inf s, .inf t => s == t | _, _ => false)

def weighted (i : IckIn) (x : Num) : Num := match i.w with | some w => w.mul x | none => x

/-- Tree height of one stage with m inputs (07 "Determinism modes"). -/
def stageHeight (mode m : Nat) : Nat :=
  if mode = 2 then 4 * (if m ≤ 1 then 0 else if m ≤ 16 then 1 else if m ≤ 256 then 2 else if m ≤ 4096 then 3 else if m ≤ 65536 then 4 else 5)
  else ceilDiv m 16 + 4

/-- The row of PROJECT on what the projection made (07 Table 7-12): `x` before it, `y` after, `p` the projection, `tau` as R194
gives it. -/
def projCheck (a : Arith) (tau : Num) (x y : List Acc) (p : List W32) : Bool :=
  let c := (List.range 64).map fun i => (List.range 16).foldl (fun s j => s.add (projAt p i j)) zero
  let terms := x.zipIdx.map fun v => ((nth c (v.2 % 64) zero), accNum a v.1)
  let l := dsum (terms.map fun t => t.1.mul t.2)
  let mag := dsum (terms.map fun t => t.1.abs.mul t.2.abs)
  withinTol l (dsum (y.map (accNum a))) ((((Num.fin false 8 0).mul (uAcc a.ifmt)).mul mag).add tau)

/-- τ of R194 over the inputs, `e` the largest element count of an input frame. -/
def ickTau (ins : List IckIn) (e : Nat) : Num :=
  ((Num.fin false e 0).mul (pow2 (-53))).mul (dsum (ins.map fun i => (weighted i i.a).abs))

/-- The accumulation check of the stage's sums (07 Table 7-12): `x` are the accumulators, `wsum` selects the row of WSUM. -/
def accCheck (a : Arith) (wsum : Bool) (ins : List IckIn) (e : Nat) (x : List Acc) : Bool :=
  let h := stageHeight a.mode ins.length
  let sumA := dsum (ins.map fun i => (weighted i i.a).abs)
  let tau := ickTau ins e
  let tol := fun (n : Nat) => (((Num.fin false n 0).mul (uAcc a.ifmt)).mul sumA).add tau
  let sAcc := dsum (x.map (accNum a))
  if a.bitwise then
    let fold := fun (l : List Int) => l.foldl (fun s v =>
      let b := BitVec.ofInt 64 v
      if a.rop = 6 then s &&& b else if a.rop = 7 then s ||| b else s ^^^ b) (if a.rop = 6 then BitVec.allOnes 64 else 0)
    fold (ins.flatMap (·.folds)) == fold (x.map fun v => match v with | .int n _ => n | _ => 0)
  else if a.rop = ropMin ∨ a.rop = ropMinloc then
    let m := ins.foldl (fun (b : Option Num) i => match b with | none => some i.s | some z => some (z.minimum i.s)) none
    belowTol sAcc (m.getD zero) tau
  else if a.rop = ropMax ∨ a.rop = ropMaxloc then
    let m := ins.foldl (fun (b : Option Num) i => match b with | none => some i.s | some z => some (z.maximum i.s)) none
    belowTol sAcc.neg (m.getD zero).neg tau
  else if a.exact then
    wrap96 (ins.foldl (fun s i => s + i.fixedSum) 0) == wrap96 (x.foldl (fun s v => match v with | .fixed n _ => s + n | _ => s) 0)
  else if isInt a.ifmt then
    ins.foldl (fun s i => s + i.sInt) 0 == x.foldl (fun s v => match v with | .int _ w => s + w | _ => s) (0 : W64)
  else
    let sIn := dsum (ins.map fun i => weighted i i.s)
    withinTol sIn sAcc (tol (if wsum then h + 1 else h))

/-- p of Table 7-1. -/
def sigBits (fmt : Nat) : Nat :=
  match fmt with | 0 => 53 | 1 => 24 | 2 => 11 | 3 => 8 | 4 => 4 | 5 => 3 | 6 => 2 | _ => 7

/-- Exponent of half the format's smallest subnormal step (07 R195). -/
def halfStep (fmt : Nat) : Int :=
  match fmt with | 0 => -1075 | 1 => -150 | 2 => -25 | 3 => -134 | 4 => -10 | 5 => -17 | 6 => -2 | _ => -7

/-- One element's conversion: the value, the decoded output, the block's exponent, and whether it overflowed or saturated under
Table 7-6. -/
structure Conv where
  v : Num
  out : Num
  exp : Int
  ovf : Bool

/-- The element's conversion overflowed or saturated under Table 7-6 and R181, rounded by `rd`. -/
def convOver (fmt : Nat) (blk : Option Blk) (rd : Rnd) (x : Int) (v : Num) : Bool :=
  match blk with
  | some b => v.isFin && Num.lt (b.max.scale 127) v.abs && x == 127
  | none => v.isFin && fmt < 6 && (encodeFmt fmt rd v).2.overflow

/-- The conversion check (07 R195). -/
def convCheck (a : Arith) (fmt : Nat) (tau : Num) (vs : List Conv) : Bool :=
  let vs := vs.filter fun v => v.v.isFin && !v.ovf
  let sOut := dsum (vs.map fun v => v.out)
  let sAcc := dsum (vs.map fun v => v.v)
  let aAcc := dsum (vs.map fun v => v.v.abs)
  let u := dsum (vs.map fun v => pow2 (halfStep fmt + v.exp))
  let r : Nat := if a.sr then 2 else 1
  withinTol sOut sAcc (((((Num.fin false r 0).mul (pow2 (-(sigBits fmt : Int)))).mul aAcc).add u).add tau)

/-- The plausibility check (07 R196): `allFinite` says that every input's A is finite, `bound` is 2 × ΣA, `updFin` that G and the
state read by an UPDATE were finite. Overflow excuses an element in the first case only. -/
def plausible (a : Arith) (allFinite : Bool) (bound : Num) (intA : Bool) (updFin : Option Bool) (outs : List Conv) : Bool :=
  let bounded := (a.rop == ropSum || a.rop == ropWsum || a.rop == ropMin || a.rop == ropMax || a.rop == ropProject)
    && isFloat a.ofmt && isFloat a.ifmt && !intA
  -- a finite value of a block of scale 0xFF reads as NaN with the Inf of its block
  let past := fun (o : Conv) => o.ovf || (!o.v.isFin && !o.v.isNan) || (o.v.isFin && o.exp == 128)
  !(allFinite && outs.any fun o => !o.out.isFin && !past o)
    && !(bounded && bound.isFin && outs.any fun o => o.out.isFin && Num.lt bound o.out.abs)
    && !(updFin == some true && outs.any fun o => !o.out.isFin)

/-! ### In-fabric update (07 R189-R192, Tables 7-10, 7-11) -/

/-- Fields of a step descriptor. -/
structure StepD where
  step : W64
  rule : Nat
  guard : Bool
  lr : Num
  b1 : Num
  b2 : Num
  eps : Num
  wd : Num
  bc1 : Num
  bc2 : Num
  gscale : Num
  clip : Num

def stepD (w : BitVec 512) : StepD :=
  let f := fun (hi lo : Nat) => decodeFmt 1 (fld w hi lo)
  { step := bits w 511 448, rule := fld w 447 444, guard := bit w 443, lr := f 415 384, b1 := f 383 352, b2 := f 351 320
    eps := f 319 288, wd := f 287 256, bc1 := f 255 224, bc2 := f 223 192, gscale := f 191 160, clip := f 159 128 }

/-- CLP refuses the descriptor: reserved RULE, negative CLIP, an FP32 field that is NaN (07 "In-fabric update"). -/
def StepD.bad (d : StepD) : Bool :=
  d.rule == 0 || d.rule > 4 || (d.clip.isNeg && !d.clip.isZero)
    || [d.lr, d.b1, d.b2, d.eps, d.wd, d.bc1, d.bc2, d.gscale, d.clip].any Num.isNan

/-- Parameters of state per element: 1, 2 or 3 FP32 values (07 Table 7-11). -/
def ruleState (rule : Nat) : Nat := if rule = 1 then 1 else if rule = 2 then 2 else 3

/-- Rules 3 and 4 name the same state shape (09 R240). -/
def ruleMatches (r w : Nat) : Bool := r == w || (r ≥ 3 && w ≥ 3 && r ≤ 4 && w ≤ 4)

def one : Num := .fin false 1 0

/-- g of R192: round_fp32(G) × GSCALE, clipped. -/
def StepD.gradient (d : StepD) (g : Num) : Num :=
  let g := fp32.mul (fp32.rne g) d.gscale
  if !d.clip.isZero && !d.clip.isNeg then (g.maximum d.clip.neg).minimum d.clip else g

/-- One element of R192: new w, m, v. -/
def StepD.apply (d : StepD) (g w m v : Num) : Num × Num × Num :=
  let f := fp32
  let nlr := d.lr.neg
  match d.rule with
  | 1 => (f.fma nlr (f.fma d.wd w g) w, m, v)
  | 2 =>
    let m := f.fma d.b1 m (f.fma d.wd w g)
    (f.fma nlr m w, m, v)
  | 3 =>
    let e := f.fma d.wd w g
    let m := f.fma d.b1 m (f.mul (f.add one d.b1.neg) e)
    let v := f.fma d.b2 v (f.mul (f.add one d.b2.neg) (f.mul e e))
    (f.fma nlr (f.div (f.mul m d.bc1) (f.add (f.sqrt (f.mul v d.bc2)) d.eps)) w, m, v)
  | _ =>
    let m := f.fma d.b1 m (f.mul (f.add one d.b1.neg) g)
    let v := f.fma d.b2 v (f.mul (f.add one d.b2.neg) (f.mul g g))
    (f.fma nlr (f.fma d.wd w (f.div (f.mul m d.bc1) (f.add (f.sqrt (f.mul v d.bc2)) d.eps))) w, m, v)

def fp32Bits (x : Num) : W32 := BitVec.ofNat 32 (encodeFmt 1 .rne x).1
def fp32Num (w : W32) : Num := decodeFmt 1 w.toNat

/-- A region's new state from its old one and the gradients: planes w, m, v in the order of Table 7-11 (07 R192). -/
def applyRegion (d : StepD) (planes : Nat) (old : List W32) (gs : List Num) : List W32 :=
  let n := gs.length
  let at_ := fun (pl i : Nat) => fp32Num (nth old (pl * n + i) 0)
  let rs := gs.zipIdx.map fun g => d.apply (d.gradient g.1) (at_ 0 g.2) (at_ 1 g.2) (at_ 2 g.2)
  (rs.map fun r => fp32Bits r.1) ++ (if planes ≥ 2 then rs.map fun r => fp32Bits r.2.1 else [])
    ++ (if planes ≥ 3 then rs.map fun r => fp32Bits r.2.2 else [])

end Sys2Proof.Machine
end

