-- ==== Sys2Proof/Machine/Flags.lean ====
section
/-! DEFINITION. Flag words: the arithmetic flags of a context (07 Table 7-7, 08 Table 8-8) and the checks that set
INPUT flags of a frame. -/
namespace Sys2Proof.Machine

/-- FLAGS as a 6-bit field: from bit 5 down NAN_IN, INVALID, NAN_OUT, OVERFLOW, SAT, NONFINITE_GRAD (08 Table 8-8). -/
def AFlags.code (f : AFlags) : BitVec 6 :=
  let b := fun (x : Bool) => if x then 1 else 0
  BitVec.ofNat 6 (put (b f.nanIn) 5 + put (b f.invalid) 4 + put (b f.nanOut) 3 + put (b f.overflow) 2 + put (b f.sat) 1
    + b f.nonfinite)

/-- Gather flags over a context (07 R182). -/
def gatherFlags (old : BitVec 6) (f : AFlags) : BitVec 6 := old ||| f.code

/-- NAN_IN of a list of input elements (07 Table 7-7). -/
def nanInFlag (a : Arith) (partial_ : Bool) (es : List Elem) : AFlags := { nanIn := es.any (elemNan a partial_) }

end Sys2Proof.Machine
end

