-- ==== Sys2Proof/Machine/Frame.lean ====
section
/-! DEFINITION. ALP frames: addresses, the base header, the extensions, sizes and checks (02 R28-R52). -/
namespace Sys2Proof.Machine

/-! ### Coordinate addresses (02 Table 2-1, R30) -/

def isGroupAddr (a : W32) : Bool := bit a 31
def adPlane (a : W32) : Nat := fld a 30 28
def adPod (a : W32) : Nat := fld a 27 19
def adRack (a : W32) : Nat := fld a 18 15
def adSlot (a : W32) : Nat := fld a 14 9
def adEport (a : W32) : Nat := fld a 8 5
def adQueue (a : W32) : Nat := fld a 4 0

/-- Module index of an infrastructure address (02 R30). -/
def adIndex (a : W32) : Nat := adRack a * 64 + adSlot a

/-- Infrastructure address of a module (02 R30). -/
def infraAddr (plane idx eport : Nat) : W32 :=
  BitVec.ofNat 32 (put plane 28 + put 511 19 + put (idx / 64 % 16) 15 + put (idx % 64) 9 + put eport 5)

/-- The module's own infrastructure address (02 R30). -/
def Body.own (s : Body) : W32 := infraAddr s.homePlane s.moduleIndex 0

/-- A spine module of the home plane, other or own. -/
def Body.isSpine (s : Body) (a : W32) : Bool := !isGroupAddr a && adPod a == 511 && adPlane a == s.homePlane

/-- Group address of a plane and a group ID (02 Table 2-1). -/
def groupAddr (plane gid : Nat) : W32 := BitVec.ofNat 32 (put 1 31 + put plane 28 + gid % 2 ^ 26)

/-! ### Opcodes (02 Table 2-3) -/

abbrev opPut : Nat := 0
abbrev opGet : Nat := 1
abbrev opGetResp : Nat := 2
abbrev opAtomic : Nat := 3
abbrev opAtomResp : Nat := 4
abbrev opRput : Nat := 5
abbrev opRres : Nat := 6
abbrev opConf : Nat := 7
abbrev opAck : Nat := 8
abbrev opNack : Nat := 9
abbrev opLctrl : Nat := 10
abbrev opMgmt : Nat := 11
abbrev opEncap : Nat := 12

/-- Answering opcodes (02 R32). -/
def isAnswer (o : Nat) : Bool := o == opGetResp || o == opAtomResp || o == opAck || o == opNack || o == opRres || o == opConf

/-- Frames with a reduce tail extension (02 Table 2-3). -/
def hasRedTail (o : Nat) : Bool := o == opRput || o == opRres

/-- VL, EXT and LEN that Table 2-3 allows. -/
def shapeOk (h : Hdr) : Bool :=
  let o := h.opc.toNat
  let v := h.vl.toNat
  let n := h.len.toNat
  let big := 1 ≤ n && n ≤ 1024
  match o with
  | 0 => (v == 3 || v == 5 || v == 6) && h.ext && big
  | 1 => v == 3 && h.ext && n == 0
  | 2 => v == 4 && h.ext && big
  | 3 => v == 3 && h.ext && (n == 1 || n == 2)
  | 4 => v == 4 && h.ext && n == 1
  | 5 => v == 1 && h.ext && big
  | 6 => v == 2 && h.ext && big
  | 7 => v == 0 && h.ext && n == 1
  | 8 => v == 0 && !h.ext && n == 0
  | 9 => v == 0 && !h.ext && n == 2
  | 10 => v == 7 && !h.ext && 2 ≤ n && n ≤ 5
  | 11 => v == 7 && !h.ext && big
  | 12 => (v == 5 || v == 6) && !h.ext && 9 ≤ n && n ≤ 1024
  | _ => false

/-! ### Sizes (02 Table 2-3, 03 R72) -/

/-- Bytes from base header to tail. -/
def frameBytes (h : Hdr) : Nat :=
  16 + (if h.ext then 16 else 0) + 8 * h.len.toNat + (if hasRedTail h.opc.toNat then 16 else 0) + 8

def cellsOf (bytes : Nat) : Nat := ceilDiv bytes 256

def frameCells (h : Hdr) : Nat := cellsOf (frameBytes h)

/-! ### Header bytes and checks (02 Table 2-4, R39, R47) -/

/-- Bytes 0-13 of the base header. -/
def hdrBytes (h : Hdr) : List Byte :=
  let b := fun (x : Bool) => if x then 1 else 0
  beBytes 4 h.dst.toNat ++ beBytes 4 h.src.toNat
    ++ beBytes 2 (put h.ver.toNat 12 + put h.opc.toNat 8 + put h.vl.toNat 5 + put (b h.spec) 4 + put (b h.ce) 3
        + put h.colour.toNat 1 + b h.ext)
    ++ beBytes 2 (put (b h.ackreq) 15 + put (b h.retx) 14 + put (b h.first) 13 + put (b h.last) 12 + h.len.toNat)
    ++ beBytes 2 h.tag.toNat

def hcrcOf (h : Hdr) : W16 := BitVec.ofNat 16 (crc16 (hdrBytes h))

/-- The header with its HCRC recomputed. -/
def sealHdr (h : Hdr) : Hdr := { h with hcrc := hcrcOf h }

/-- The tail CRC: from byte 16 to the end of the reduce tail extension or the payload (02 Table 2-10). -/
def crcOf (h : Hdr) (x : BitVec 128) (payload : List W64) (redS redA : W64) : W32 :=
  BitVec.ofNat 32 (crc32c ((if h.ext then beBytes 16 x.toNat else []) ++ payloadBytes payload
    ++ (if hasRedTail h.opc.toNat then beBytes 8 redS.toNat ++ beBytes 8 redA.toNat else [])))

/-- A whole tail section with its CRC. -/
def mkRest (h : Hdr) (x : BitVec 128) (payload : List W64) (redS redA : W64) (status : Nat) : Rest :=
  { payload, redS, redA, crc := crcOf h x payload redS redA, status := BitVec.ofNat 8 status }

/-- Tail status codes (02 Table 2-10). -/
abbrev tGood : Nat := 0
abbrev tPoison : Nat := 1
abbrev tChkfail : Nat := 2
abbrev tLate : Nat := 3

def Rest.crcGood (r : Rest) (h : Hdr) (x : BitVec 128) : Bool := r.crc == crcOf h x r.payload r.redS r.redA

/-- A header of a frame that the module originates (02 R30). -/
def ownHdr (src dst : W32) (opc vl len tag : Nat) (ext ackreq : Bool) : Hdr :=
  sealHdr { dst, src, opc := BitVec.ofNat 4 opc, vl := BitVec.ofNat 3 vl, ext := ext, ackreq := ackreq, len := BitVec.ofNat 11 len,
            tag := BitVec.ofNat 16 tag, hcrc := 0 }

/-! ### Reduce extension (02 Tables 2-5, 2-8) -/

def rxGroup (x : BitVec 128) : Nat := fld x 127 102
def rxEpoch (x : BitVec 128) : Nat := fld x 101 94
def rxOpseq (x : BitVec 128) : Nat := fld x 93 62
def rxChunk (x : BitVec 128) : Nat := fld x 61 38
def rxFmt (x : BitVec 128) : Nat := fld x 37 34
def rxRop (x : BitVec 128) : Nat := fld x 33 30
def rxRank (x : BitVec 128) : Nat := fld x 29 12
def rxClast (x : BitVec 128) : Bool := bit x 11
def rxAlias (x : BitVec 128) : Bool := bit x 10
def rxPartial (x : BitVec 128) : Bool := bit x 9
def rxLevel (x : BitVec 128) : Nat := fld x 8 7
def rxHops (x : BitVec 128) : Nat := fld x 6 5

/-- CHUNK of a context record (08 R210). -/
abbrev recordChunk : Nat := 0xFFFFFF

structure RedX where
  group : Nat
  epoch : Nat
  opseq : Nat
  chunk : Nat
  fmt : Nat
  rop : Nat
  rank : Nat := 0
  clast : Bool := false
  alias_ : Bool := false
  partial_ : Bool := false
  level : Nat := 0
  hops : Nat := 0

def redX (r : RedX) : BitVec 128 :=
  let b := fun (x : Bool) => if x then 1 else 0
  BitVec.ofNat 128 (put (r.group % 2 ^ 26) 102 + put (r.epoch % 256) 94 + put (r.opseq % 2 ^ 32) 62 + put (r.chunk % 2 ^ 24) 38
    + put (r.fmt % 16) 34 + put (r.rop % 16) 30 + put (r.rank % 2 ^ 18) 12 + put (b r.clast) 11 + put (b r.alias_) 10
    + put (b r.partial_) 9 + put (r.level % 4) 7 + put (r.hops % 4) 5)

/-- The context a reduce frame belongs to: the home plane's group of its GROUP field, and OPSEQ (02 Table 2-5). -/
def ctxOf (h : Hdr) (plane : Nat) (x : BitVec 128) : CtxKey :=
  ⟨if isGroupAddr h.dst then h.dst else groupAddr plane (rxGroup x), BitVec.ofNat 32 (rxOpseq x)⟩

/-! ### Memory extension (02 R45, Table 2-9) -/

def mxOff (x : BitVec 128) : Nat := fld x 127 80
def mxWid (x : BitVec 128) : Nat := fld x 79 64
def mxRseg (x : BitVec 128) : Nat := fld x 33 32
def mxRlen (x : BitVec 128) : Nat := fld x 31 0
def mxAop (x : BitVec 128) : Nat := fld x 63 60
def mxAw (x : BitVec 128) : Nat := fld x 59 58
/-- ASIGN 1 is signed. DESIGN CHOICE (entry 107): the undefined values 2 and 3 are unsigned, as 0 is. -/
def mxSigned (x : BitVec 128) : Bool := fld x 57 56 == 1

def memX (off wid low : Nat) : BitVec 128 := BitVec.ofNat 128 (put (off % 2 ^ 48) 80 + put (wid % 2 ^ 16) 64 + low % 2 ^ 64)

/-- NACK reasons (02 Table 2-12). -/
abbrev nkBadAddr : Nat := 1
abbrev nkNoWindow : Nat := 2
abbrev nkRange : Nat := 3
abbrev nkAlign : Nat := 4
abbrev nkStateLost : Nat := 5
abbrev nkTooBig : Nat := 6
abbrev nkNotReady : Nat := 7
abbrev nkAccess : Nat := 8
abbrev nkNoFunction : Nat := 9

end Sys2Proof.Machine
end

