-- ==== Sys2Proof/Machine/Fwd.lean ====
section
/-! DEFINITION. The forwarding core: cell pools, route resolution, spraying, admission, egress enqueue, replication,
originated frames, re-entry (03 R72-R93, 04 R98-R109, R115, 05 R125-R137). -/
namespace Sys2Proof.Machine

/-! ### Logical ports (06 R145, R146, R148) -/

/-- Logical rate in Gb/s (06 Table 6-2, R148). -/
def Body.rate (s : Body) (l : Nat) : Nat :=
  let e := s.phys (physOf l)
  match e.gkind with
  | 0 => (match e.split with | 1 => 400 | 2 => 200 | _ => 800)
  | 1 => 800
  | 2 => 400
  | _ => 200

/-- Replay groups (02 R59). -/
def Body.replayGroups (s : Body) (l : Nat) : Nat := s.rate l / 40

def Body.lportsOf (s : Body) (p : Nat) : List Nat := (s.subports p).map fun k => 4 * p + k

/-! ### The bypass map (06 Table 6-5) -/

def Body.bypass (s : Body) (g : Nat) : BypassEntry :=
  mgetD (if s.portage.active then s.portage.mapB else s.portage.mapA) g {}

def partnerOf (m : W32) (q : Nat) : Nat := fld m (4 * q + 2) (4 * q)

/-- The port's cells are set to through (06 R157). -/
def Body.through (s : Body) (p : Nat) : Bool := partnerOf (s.bypass (p / 8)).partner (p % 8) == p % 8

/-! ### The live mask (04 R101, 09 R250, 12 R333) -/

def Body.lpLive (s : Body) (l : Nat) : Bool :=
  let x := s.lp l
  let e := s.lpe l
  s.lportExists l && s.through (physOf l) && !s.integ.xbarBad.contains (physOf l)
    && (x.hold.isSome || (x.state == .up && !x.peerDraining && e.enable && !e.drain))

def Body.live (s : Body) (p : Nat) : Bool := (s.lportsOf p).any s.lpLive

/-! ### Loads (04 R105, R106) -/

def Body.frame (s : Body) (fid : Nat) : Option BufFrame := s.fwc.frames.find? fun f => f.fid == fid

/-- Cells of a frame by its length, whether or not they are still in the buffer. -/
def BufFrame.size (f : BufFrame) : Nat := match f.eth with | some e => cellsOf e.bytes | none => frameCells f.hdr

def Body.cellsOfCopy (s : Body) (c : Copy) : Nat := match s.frame c.fid with | some f => f.size | none => 0

/-- Cells queued for a class of a logical port, in its egress account (03 R79). -/
def Body.depth (s : Body) (l c : Nat) : Nat :=
  s.tms.queue.foldl (fun a e => if e.lport = l ∧ e.cls = c ∧ !e.held then a + s.cellsOfCopy e.copy else a) 0

def Body.lpLoad (s : Body) (l : Nat) : Nat :=
  if (s.lp l).hold.isSome then 255
  else min 255 ((s.tms.queue.foldl (fun a e => if e.lport = l then a + s.cellsOfCopy e.copy else a) 0) / 64)

/-- The live logical subport with the lowest load, lower index on a tie (04 R106). -/
def Body.subportFor (s : Body) (p : Nat) : Option Nat :=
  best (fun a b => s.lpLoad a < s.lpLoad b) ((s.lportsOf p).filter s.lpLive)

/-- Load of a physical port as its own die sees it. -/
def Body.ownLoad (s : Body) (p : Nat) : Nat := match s.subportFor p with | some l => s.lpLoad l | none => 0

/-- Load that a die compares: current for its own ports, published for others (04 R105). -/
def Body.loadSeen (s : Body) (die p : Nat) : Nat := if dieOfPort p = die then s.ownLoad p else mgetD s.fwc.load p 0

/-! ### Cell pools (03 R72-R76) -/

def Body.pool (s : Body) (die : Nat) : Pools := nth s.fwc.pools die {}

def Body.setPool (s : Body) (die : Nat) (x : Pools) : Body := { s with fwc := { s.fwc with pools := setNth s.fwc.pools die x } }

def laneReserve (v : Nat) : Nat := if v = 0 then 8 else 33

def mod24 (a b : Nat) : Nat := (a + 2 ^ 24 - b % 2 ^ 24) % 2 ^ 24

/-- Outstanding credit of a lane (03 R75). -/
def LPort.outstanding (x : LPort) (v : Nat) : Nat := mod24 (nth x.limitOut v 0) (nth x.received v 0)

/-- α × F (03 R75). -/
def alphaShare (alpha : Int) (f : Nat) : Nat := if alpha < 0 then f / 2 ^ alpha.natAbs else f * 2 ^ alpha.natAbs

/-- A link leaves UP: credit granted and unused returns to F (03 R76). -/
def Body.returnCredit (s : Body) (l : Nat) : Body :=
  (List.range 8).foldl (fun s v =>
    let x := s.lp l
    let pl := s.pool (dieOf l)
    let occ := nth x.occ v 0
    let back := (x.outstanding v + occ - laneReserve v) - (occ - laneReserve v)
    (s.setPool (dieOf l) { pl with shared := pl.shared + back }).setLp l
      { x with limitOut := setNth x.limitOut v (nth x.received v 0) }) s

/-- Class of an uncredited frame for PFC (03 R78, 05 R125): the class it takes on its gateway port. -/
def Body.ethClass (s : Body) (g : Nat) (pcp : Option (BitVec 3)) : Nat := s.pcpClass g (pcp.getD 0).toNat

/-- PFC thresholds of a class of a gateway port (03 R78). -/
def Body.pfcCheck (s : Body) (l c : Nat) : Body :=
  let x := s.lp l
  let on := (fld (mgetD s.profiles.inForce.gateway (physOf l / 8) 0) (8 * 42 + 7) (8 * 42)).testBit c
  let n := nth x.uncred c 0
  if !on then s
  else if n ≥ s.profiles.inForce.pfcXoff && !x.pfcOff.contains c then
    (s.setLp l { x with pfcOff := x.pfcOff ++ [c] }).putOut (.pfc l c true)
  else if n ≤ s.profiles.inForce.pfcXon && x.pfcOff.contains c then
    (s.setLp l { x with pfcOff := x.pfcOff.filter (· != c) }).putOut (.pfc l c false)
  else s

/-- Charge or return uncredited cells of a class (03 R78). -/
def Body.uncredit (s : Body) (l c : Nat) (up : Bool) (n : Nat) : Body :=
  let x := s.lp l
  let v := if up then nth x.uncred c 0 + n else nth x.uncred c 0 - n
  (s.setLp l { x with uncred := setNth x.uncred c v }).pfcCheck l c

/-- Class that an uncredited frame is charged to. -/
def uncredClass (f : BufFrame) : Nat :=
  match f.origin with | .eth _ c => c | _ => f.hdr.vl.toNat

/-- Return n cells of a frame to the pool they came from (03 R73, R75, R77). -/
def Body.returnCells (s : Body) (f : BufFrame) (n : Nat) : Body :=
  let pl := s.pool f.die
  match f.origin with
  | .own _ fromShared _ =>
    s.setPool f.die (if fromShared then { pl with shared := pl.shared + n } else { pl with orig := pl.orig + n })
  | .alp l v =>
    let x := s.lp l
    let occ := nth x.occ v 0
    let back := min n (x.outstanding v + occ - laneReserve v)
    (s.setPool f.die { pl with shared := pl.shared + back }).setLp l { x with occ := setNth x.occ v (occ - n) }
  | .udp l => (s.setPool f.die { pl with shared := pl.shared + n }).uncredit l (uncredClass f) false n
  | .eth l _ => (s.setPool f.die { pl with shared := pl.shared + n }).uncredit l (uncredClass f) false n

def Body.setFrame (s : Body) (f : BufFrame) : Body :=
  { s with fwc := { s.fwc with frames := s.fwc.frames.map fun g => if g.fid = f.fid then f else g } }

def Body.dropFrame (s : Body) (fid : Nat) : Body :=
  { s with fwc := { s.fwc with frames := s.fwc.frames.filter fun g => g.fid != fid } }

/-- The frame is still named: queued, on its way out, in a replay buffer, arriving, or held by a local function. -/
def Body.named (s : Body) (fid : Nat) : Bool :=
  s.tms.queue.any (fun e => e.copy.fid == fid)
    || s.lports.any fun x =>
        x.2.tx.any (fun t => t.copy.any fun c => c.fid == fid) || x.2.replay.any (fun g => g.heads.any fun c => c.fid == fid)
          || x.2.rxFid == some fid || x.2.launch == some fid

/-- Forget a frame nothing names any more. -/
def Body.collect (s : Body) (fid : Nat) : Body :=
  match s.frame fid with
  | some f => if f.copies = 0 && f.here.isNone && !s.named fid then s.dropFrame fid else s
  | none => s

/-- One copy is done with the buffer; with the last one the cells are freed (03 R79). -/
def Body.releaseCopy (s : Body) (fid : Nat) : Body :=
  match s.frame fid with
  | none => s
  | some f =>
    if f.copies ≤ 1 then
      let s := s.returnCells f f.cells
      (s.setFrame { f with copies := 0, cells := 0 }).collect fid
    else s.setFrame { f with copies := f.copies - 1 }

/-- The local function is done with a frame. -/
def Body.doneHere (s : Body) (fid : Nat) : Body :=
  match s.frame fid with
  | none => s
  | some f => if f.here.isSome then (s.setFrame { f with here := none }).releaseCopy fid else s

/-! ### LATE tails at 3.1 and 3.0 links (02 R48, Table 2-16) -/

/-- The link runs ALP 3.1 or 3.0. -/
def Body.oldLink (s : Body) (l : Nat) : Bool := !s.isGateway (physOf l) && (s.lp l).minor < 2

/-- Feature level of a group: the lowest of the highest minors of its modules, 3.1 for one not heard from (13 R354). -/
def Body.groupMinor (s : Body) (g : Group) : Nat :=
  (g.repl.filter fun r => r.kind == 2 && fld r.target 9 0 != s.moduleIndex).foldl
    (fun a r => min a (mgetD s.coll.features (fld r.target 9 0) 1)) s.hiMinor

/-- A Sett's frame of a group whose feature level knows no LATE. -/
def Body.levelBarsLate (s : Body) (f : BufFrame) : Bool :=
  match f.origin with
  | .own .. => (match s.group (ctxOf f.hdr s.homePlane f.ext).g with | some g => s.groupMinor g < 2 | none => false)
  | _ => false

/-- A CLAST frame, whose tail may be LATE. -/
def isClast (f : BufFrame) : Bool := f.eth.isNone && hasRedTail f.hdr.opc.toNat && rxClast f.ext

/-- Held whole at a 3.1 or 3.0 link, its CONF outstanding. -/
def Body.lateHeld (s : Body) (f : BufFrame) : Bool :=
  isClast f && f.verdict.isNone && f.rest.any (fun r => r.status.toNat == tLate)
    && s.tms.queue.any fun e => e.copy.fid == f.fid && s.oldLink e.lport

def Body.setVerdict (s : Body) (fid v : Nat) : Body :=
  { s with fwc := { s.fwc with frames := s.fwc.frames.map fun f =>
      if f.fid = fid then { f with verdict := some (BitVec.ofNat 8 v) } else f } }

/-! ### Resolution (04 Table 4-2, R99) -/

inductive Res where
  | drop (c : Ctr)
  | here
  | path (e : PathEntry) (mask : BitVec 512)

def allPorts : BitVec 512 := BitVec.allOnes 512

/-- The Pod entry, narrowed by rack refinement in the home plane (04 cases 5-7). -/
def Body.resolvePod (s : Body) (plane pod : Nat) (rack : Option Nat) : Res :=
  let e := s.podEntry plane pod
  if peKind e = 0 then .drop .routeNone
  else if plane != s.homePlane then .path e allPorts
  else match rack with
    | none => .path e allPorts
    | some r =>
      let m := s.rackEntry pod r
      .path e (if bit m 512 then BitVec.ofNat 512 m.toNat else allPorts)

/-- Another module of the home plane (04 case 4). -/
def Body.resolveModule (s : Body) (m : Nat) : Res :=
  let e := s.localEntry m
  if peKind e = 0 then s.resolvePod s.homePlane 511 none else .path e allPorts

/-- An endpoint-form DST (04 cases 3-7). -/
def Body.resolveEp (s : Body) (a : W32) : Res :=
  if adPlane a != s.homePlane then s.resolvePod (adPlane a) (adPod a) none
  else if adPod a != 511 then s.resolvePod (adPlane a) (adPod a) (some (adRack a))
  else if adIndex a = s.moduleIndex then .here
  else s.resolveModule (adIndex a)

/-- Endpoint address of a member of a group, by rank. -/
def Body.memberEp (s : Body) (g : W32) (rank : Nat) : W32 :=
  match s.group g with
  | some x => (nth x.members rank { ep := 0 }).ep
  | none => 0

/-- The address that gives a copy its route: the DST, or what its replication entry names (04 R99). -/
def Body.routeAddr (s : Body) (dst : W32) (repl : Option (Nat × W32)) : W32 :=
  match repl with
  | some (0, t) => t
  | some (1, t) => s.memberEp dst (fld t 17 0)
  | some (_, t) => infraAddr s.homePlane (fld t 9 0) 0
  | none => dst

/-- Route of a copy (04 R98, R99). -/
def Body.resolveCopy (s : Body) (dst : W32) (repl : Option (Nat × W32)) : Res :=
  match repl with
  | some (0, t) => s.resolvePod (adPlane t) (adPod t) none
  | some (1, t) =>
    let a := s.memberEp dst (fld t 17 0)
    s.resolvePod (adPlane a) (adPod a) (if adPlane a = s.homePlane then some (adRack a) else none)
  | some (_, t) => s.resolveModule (fld t 9 0)
  | none => s.resolveEp dst

/-! ### The spray choice (04 R102-R106) -/

/-- The next 16-bit draw of a die's generator. -/
def Body.draw (s : Body) (die : Nat) : Nat × Body :=
  let i := nth s.fwc.drawIdx die 0
  ((Config.draw16 die i).toNat, { s with fwc := { s.fwc with drawIdx := setNth s.fwc.drawIdx die (i + 1) } })

/-- Candidates with their weights, and whether they are standby members (04 R102). -/
def Body.candidates (s : Body) (e : PathEntry) (mask : BitVec 512) : List (Nat × Nat) × Bool :=
  let ms := (pePorts e).filter fun p => bit mask p && s.live p
  let w := ms.filter fun p => peWeight e p != 0
  if w.isEmpty then (ms.map fun p => (p, 1), true) else (w.map fun p => (p, peWeight e p), false)

/-- The first candidate whose running sum exceeds u (04 R104). -/
def drawn (u : Nat) : Nat → List (Nat × Nat) → Nat
  | _, [] => 0
  | a, (p, w) :: t => if a + w > u then p else drawn u (a + w) t

/-- Choose a logical port from a path set, or say why not. -/
def Body.spray (s : Body) (die : Nat) (e : PathEntry) (mask : BitVec 512) : Option Nat × Body :=
  let (cs, standby) := s.candidates e mask
  let s := if standby then s.bump .sprayStandby die else s
  if cs.isEmpty then (none, s.bump .routeDeadEnd die)
  else
    let w := cs.foldl (fun a c => a + c.2) 0
    let (r1, s) := s.draw die
    let (r2, s) := s.draw die
    let p1 := drawn (r1 * w / 65536) 0 cs
    let p2 := drawn (r2 * w / 65536) 0 cs
    let p := if s.loadSeen die p2 < s.loadSeen die p1 then p2 else p1
    (s.subportFor p, s)

/-! ### Limiters and policers (05 R132-R137) -/

/-- Installer record of a gateway group (16 Table 16-12), bytes from 0. -/
def Body.gwByte (s : Body) (g i : Nat) : Nat := fld (mgetD s.profiles.inForce.gateway g 0) (8 * i + 7) (8 * i)

/-- ALP_MTU of a gateway group (02 R70). -/
def Body.alpMtu (s : Body) (g : Nat) : Nat :=
  match s.gwByte g 41 / 2 % 4 with | 0 => 8248 | 1 => 4152 | 2 => 2104 | _ => 1080

/-- IP version of the route that a copy takes to a gateway group. -/
def Body.ipv4To (s : Body) (dst : W32) (repl : Option (Nat × W32)) : Bool :=
  let a := s.routeAddr dst repl
  peIpv4 (s.podEntry (adPlane a) (adPod a))

/-- Bytes of a copy on an egress port: ALP bytes, or the Ethernet frame with its IEEE 802.1Q tag (05 R135; entry 28). -/
def Body.wireBytes (s : Body) (l : Nat) (f : BufFrame) (repl : Option (Nat × W32)) : Nat :=
  match f.eth with
  | some e => e.bytes
  | none =>
    if s.isGateway (physOf l) then 14 + 4 + (if s.ipv4To f.hdr.dst repl then 20 else 40) + 8 + 8 + frameBytes f.hdr + 4
    else frameBytes f.hdr

/-! ### Back-pressure of held ports (05 R142) and credit (03 R75) -/

/-- Frames of a die that wait in its class queues for held ports. -/
def Body.heldWaiting (s : Body) (die : Nat) : List QEntry :=
  s.tms.queue.filter fun e => dieOf e.lport == die && !e.held && (s.lp e.lport).hold.isSome

/-- An older frame of its class waits outside the reserve. -/
def Body.behind (s : Body) (e : QEntry) : Bool :=
  s.tms.queue.any fun x => x.lport == e.lport && x.cls == e.cls && !x.held && x.seq < e.seq

/-- Bytes a frame needs in the reserve. -/
def Body.entryBytes (s : Body) (e : QEntry) : Nat :=
  match s.frame e.copy.fid with | some f => s.wireBytes e.lport f e.copy.repl | none => 0

/-- A held port's allotment cannot take the next frame of a class. -/
def Body.reserveFull (s : Body) (l : Nat) (h : Hold) : Bool :=
  h.used ≥ h.allot || s.tms.queue.any fun e => e.lport == l && !e.held && !s.behind e && h.used + s.entryBytes e > h.allot

/-- The die presses back: its waiting cells reach HOLD_CELL_CAP, or the allotment of one of its held ports is full. -/
def Body.holdPressed (s : Body) (die : Nat) : Bool :=
  (s.heldWaiting die).foldl (fun a e => a + s.cellsOfCopy e.copy) 0 ≥ s.profiles.inForce.holdCellCap
    || s.lports.any fun x => dieOf x.1 == die && (match x.2.hold with | some h => s.reserveFull x.1 h | none => false)

/-- The lane has a frame waiting for a held port on a die that presses back. -/
def Body.lanePressed (s : Body) (l v : Nat) : Bool :=
  s.tms.queue.any fun e => e.ingress == some (8 * l + v) && !e.held && (s.lp e.lport).hold.isSome && s.holdPressed (dieOf e.lport)

/-- A whole microsecond of hall time: HOLD_BACKPRESSURE counts it for each held port of a die that presses back while frames
wait there. -/
def Body.pressTick (s : Body) : Body :=
  let held := s.lports.filter fun x => x.2.hold.isSome && s.holdPressed (dieOf x.1) && !(s.heldWaiting (dieOf x.1)).isEmpty
  held.foldl (fun s x => s.bump .holdBackpressure x.1) s

/-- Raise a lane's CREDIT_LIMIT toward its target (03 R75). -/
def Body.grantLane (s : Body) (l v : Nat) : Body :=
  let x := s.lp l
  let die := dieOf l
  let pl := s.pool die
  let target := laneReserve v + min s.profiles.inForce.sharedCap (alphaShare s.profiles.inForce.alpha pl.shared)
  let out := x.outstanding v
  if x.state != .up || s.isGateway (physOf l) || out ≥ target || s.lanePressed l v || s.planes.dataRestart then s
  else
    let spare := laneReserve v - (out + nth x.occ v 0)
    let grant := min (target - out) (spare + pl.shared)
    let s := s.setPool die { pl with shared := pl.shared - (grant - spare) }
    s.setLp l { x with limitOut := setNth x.limitOut v ((nth x.limitOut v 0 + grant) % 2 ^ 24) }

/-- All lanes of a port. -/
def Body.grantPort (s : Body) (l : Nat) : Body := (List.range 8).foldl (fun s v => s.grantLane l v) s

/-- Counted length at a node (05 R135). -/
def counted (n : Node) (bytes : Nat) : Nat := ((bytes : Int) + n.overhead).toNat

/-- A policer's verdict on a frame of a colour: new colour, never a better one, and levels (05 R137). -/
def police (n : Node) (x : Limiter) (bytes colour : Nat) : Nat × Limiter :=
  let l : Int := (counted n bytes * 256 : Nat)
  if (n.caware && colour == 2) || x.p < l then (2, x)
  else if (n.caware && colour == 1) || x.c < l then (max 1 colour, { x with p := x.p - l })
  else (colour, { x with c := x.c - l, p := x.p - l })

/-- Full burst credit of a new stream (05 R134). -/
def fullCredit (n : Node) : Limiter := { c := n.size1 * 256, p := if n.mode = 1 then n.size2 * 256 else 0 }

/-! ### Streams (05 R126, R127) -/

/-- Key of a context's stream; host stream groups are below 4,096. -/
def ctxStream (c : CtxKey) : Nat := 4096 + c.g.toNat * 2 ^ 32 + c.opseq.toNat

/-- Stream key and profile of a frame (05 R126). A native Ethernet frame has no SRC, so the stream map gives it none: it goes to
stream group 0 (DESIGN CHOICE, entry 94). -/
def Body.streamOf (s : Body) (f : BufFrame) : Nat × Nat :=
  if f.eth.isNone && isGroupAddr f.hdr.dst then
    let k : CtxKey := ⟨f.hdr.dst, BitVec.ofNat 32 (rxOpseq f.ext)⟩
    (ctxStream k, match s.coll.ctxs.find? fun c => c.key == k with | some c => c.sprof | none => 0)
  else
    let g := if f.eth.isSome then 0 else fld (s.streamMapEntry (adPlane f.hdr.src) (adPod f.hdr.src)) 19 8
    (g, g)

def sameStream (l c key : Nat) (x : Stream) : Bool := x.lport == l && x.cls == c && x.key == key

/-- Stream queues of a die's ports. -/
def Body.streamsOn (s : Body) (die : Nat) : Nat := (s.tms.streams.filter fun x => dieOf x.lport == die).length

def Body.streamEmpty (s : Body) (x : Stream) : Bool :=
  !s.tms.queue.any fun e => e.lport == x.lport && e.cls == x.cls && e.stream == x.key

/-- Larger of two high-water records, field by field (05 R139). -/
def Hwm.fold (a b : Hwm) : Hwm :=
  { occ := max a.occ b.occ, occAt := if b.occ > a.occ then b.occAt else a.occAt
    soj := max a.soj b.soj, sojAt := if b.soj > a.soj then b.sojAt else a.sojAt
    nOver := max a.nOver b.nOver }

/-- Free a stream's descriptor, folding its marks into its profile's (05 R139). -/
def Body.freeStream (s : Body) (x : Stream) : Body :=
  { s with tms := { s.tms with
      streams := s.tms.streams.filter fun y => !sameStream x.lport x.cls x.key y
      profHwm := mset s.tms.profHwm x.prof ((mgetD s.tms.profHwm x.prof {}).fold x.hwm) } }

/-- Every limiter of the stream stands at its full burst credit (05 R127). -/
def limFull (n : Node) (x : Limiter) : Bool :=
  n.mode == 0 || (x.c ≥ (n.size1 * 256 : Nat) && (n.mode != 1 || x.p ≥ (n.size2 * 256 : Nat)))

/-- Free the descriptors of a die's streams that are empty and full, and below 1,024 free ones those that are only empty
(05 R127). -/
def Body.sweepStreams (s : Body) (die : Nat) : Body :=
  let idle := fun (s : Body) (x : Stream) => dieOf x.lport == die && s.streamEmpty x
  let done := s.tms.streams.filter fun x => idle s x && limFull (nodeOf (s.streamProfile x.prof)) x.lim
  let s := done.foldl (fun s x => s.freeStream x) s
  if s.streamsOn die + 1024 ≤ 65536 then s
  else (s.tms.streams.filter (idle s)).foldl (fun s x => (s.freeStream x).bump .streamEarlyReclaim die) s

/-- The stream queue of a frame, made when there is none; stream group 0 when the pool is empty. Where the port and class have
no queue of stream group 0 then, it is made beyond the pool (DESIGN CHOICE, entry 95). -/
def Body.takeStream (s : Body) (l c key prof : Nat) : Nat × Nat × Body :=
  if s.tms.streams.any (sameStream l c key) then (key, prof, s)
  else
    let new := fun (key prof : Nat) (s : Body) => { s with tms := { s.tms with
      streams := s.tms.streams ++ [{ lport := l, cls := c, key, prof, lim := fullCredit (nodeOf (s.streamProfile prof)) }] } }
    if s.streamsOn (dieOf l) < 65536 then (key, prof, new key prof s)
    else
      let s := s.bump .streamPoolFull (dieOf l)
      (0, 0, if s.tms.streams.any (sameStream l c 0) then s else new 0 0 s)

/-- Take entries out of the queues: a class or stream that becomes empty loses its deficit, and descriptors go back to the pool
(05 R127, R130). -/
def Body.unqueueAll (s : Body) (out : QEntry → Bool) : Body :=
  let gone := s.tms.queue.filter out
  if gone.isEmpty then s
  else
    let s := { s with tms := { s.tms with queue := s.tms.queue.filter fun e => !out e } }
    let s := { s with tms := { s.tms with
      classDef := s.tms.classDef.filter fun x => s.tms.queue.any fun e => 8 * e.lport + e.cls == x.1
      streams := s.tms.streams.map fun (x : Stream) => if s.streamEmpty x then { x with deficit := 0 } else x } }
    (dedupNat (gone.map fun e => dieOf e.lport)).foldl (fun s d => s.sweepStreams d) s

/-! ### Congestion profiles (03 R91-R93) -/

inductive CongAct where
  | pass
  | act

/-- The queue's averaged depth, in 2^-15 cells, after one more frame (03 R91; entry 22). -/
def avgNext (w : Nat) (avg : Nat) (depth : Nat) : Nat :=
  let d : Int := (depth * 32768 : Nat)
  ((avg : Int) + (d - avg) / (2 ^ w : Nat)).toNat

/-- Update the average of a class queue at an admission (03 R91). -/
def Body.congAvg (s : Body) (l c colour : Nat) : Nat × Body :=
  let k := 8 * l + c
  let avg := avgNext (s.congProfile l c colour).w (mgetD s.tms.avg k 0) (s.depth l c)
  (avg, { s with tms := { s.tms with avg := mset s.tms.avg k avg } })

/-- What the profile does to a frame of a colour at a depth in 2^-15 cells (03 R91). -/
def Body.congJudge (s : Body) (die l c colour avg : Nat) : CongAct × Body :=
  let p := s.congProfile l c colour
  if avg < p.minTh * 32768 then (.pass, s)
  else if avg ≥ p.maxTh * 32768 then (.act, s)
  else
    let (r, s) := s.draw die
    if r * 256 * ((p.maxTh - p.minTh) * 32768) < 65536 * p.pmax * (avg - p.minTh * 32768) then (.act, s) else (.pass, s)

def markCtr (drop : Bool) : Ctr := if drop then .congDrop else .congMark

/-! ### Egress enqueue (05 R126-R128, R137, R139, R141) -/

/-- Colour as the module reads it: 3 is red (02 R38). -/
def colourIn (c : BitVec 2) : Nat := min c.toNat 2

/-- Ingress key of a frame for R128: port and lane, or port and class. -/
def Body.ingressKey (_s : Body) (f : BufFrame) : Option Nat :=
  match f.origin with
  | .alp l v => some (8 * l + v)
  | .udp l => some (8 * l + f.hdr.vl.toNat)
  | .eth l _ => some (8 * l + uncredClass f)
  | .own .. => none

/-- The rate condition of R81 fails for this egress port: the ingress port is slower, or the Sett's 128 bytes per SCLK are. -/
def Body.tooSlow (s : Body) (f : BufFrame) (l : Nat) : Bool :=
  match f.origin with
  | .alp i _ => s.rate i < s.rate l
  | .udp i => s.rate i < s.rate l
  | .eth i _ => s.rate i < s.rate l
  | .own _ _ (some n) => 1024 * (s.sett n).sclk < 1000 * s.rate l
  | .own _ _ none => false

/-- Class on an egress port (05 R125). -/
def Body.classOn (s : Body) (l : Nat) (f : BufFrame) : Nat :=
  match f.eth with
  | some e => s.ethClass (physOf l / 8) e.pcp
  | none => f.hdr.vl.toNat

/-- Raise the occupancy marks of a class queue and of the stream that the frame is in (05 R139). -/
def Body.markOcc (s : Body) (l c key : Nat) : Body :=
  let n := s.depth l c
  let up := fun (h : Hwm) => if n > h.occ then { h with occ := n, occAt := s.clock.ns } else h
  { s with tms := { s.tms with
      classHwm := mset s.tms.classHwm (8 * l + c) (up (mgetD s.tms.classHwm (8 * l + c) {}))
      streams := s.tms.streams.map fun x => if sameStream l c key x then { x with hwm := up x.hwm } else x } }

/-- Move a held port's whole frames to its reserve while it has room, each class in order, once the drain at its start has ended
(05 R141, 09 R249). -/
def Body.toReserve (s : Body) (l : Nat) : Body :=
  (s.tms.queue.filter fun e => e.lport == l && !e.held).foldl (fun s e =>
    match (s.lp l).hold, s.frame e.copy.fid with
    | some h, some f =>
      let n := s.wireBytes l f e.copy.repl
      if !h.entering && h.used + n ≤ h.allot && !s.behind e && f.rest.isSome then
        let s := { s with tms := { s.tms with queue := s.tms.queue.map fun (x : QEntry) => if x.seq = e.seq then { x with held := true } else x } }
        (s.modLp l fun x => { x with hold := some { h with used := h.used + n } }).releaseCopy e.copy.fid
      else s
    | _, _ => s) s

/-- The colour after one policer, whether it drops the frame, and its levels; a change of colour is counted (05 R137). -/
def Body.meterBy (s : Body) (l c : Nat) (n : Node) (x : Limiter) (bytes colour : Nat) : Nat × Bool × Limiter × Body :=
  if n.mode = 1 ∧ n.police then
    let (c1, x) := police n x bytes colour
    (c1, s.isGateway (physOf l) && n.exceed && c1 == 2, x, if c1 != colour then s.bump .policeRecolour (8 * l + c) else s)
  else (colour, false, x, s)

/-- Meter a copy by its stream profile, then by its class node unless it is dropped: colour, whether it is dropped (05 R137). -/
def Body.meter (s : Body) (l c key prof bytes colour : Nat) : Nat × Bool × Body :=
  let x := match s.tms.streams.find? (sameStream l c key) with | some y => y.lim | none => {}
  let (c1, drop, x, s) := s.meterBy l c (nodeOf (s.streamProfile prof)) x bytes colour
  let s := { s with tms := { s.tms with
    streams := s.tms.streams.map fun z => if sameStream l c key z then { z with lim := x } else z } }
  if drop then (c1, true, s)
  else
    let (c2, drop, y, s) := s.meterBy l c (nodeOf (s.classNode l c)) (mgetD s.tms.classLim (8 * l + c) {}) bytes c1
    let n := nodeOf (s.classNode l c)
    (c2, drop, if n.mode = 1 ∧ n.police then { s with tms := { s.tms with classLim := mset s.tms.classLim (8 * l + c) y } } else s)

/-- Put a copy at the end of a queue. -/
def Body.pushEntry (s : Body) (f : BufFrame) (cp : Copy) (l c key prof : Nat) : Body :=
  let e : QEntry := { copy := cp, lport := l, cls := c, stream := key, sprof := prof, seq := s.tms.nextSeq
                      ingress := s.ingressKey f, slow := s.tooSlow f l, at_ := s.clock.ns.toNat }
  { s with tms := { s.tms with queue := s.tms.queue ++ [e], nextSeq := s.tms.nextSeq + 1 } }

/-- Enter one copy in its queue. -/
def Body.enqueue (s : Body) (f : BufFrame) (cp : Copy) (l : Nat) : Body :=
  let c := s.classOn l f
  let (k0, p0) := s.streamOf f
  let (key, prof, s) := s.takeStream l c k0 p0
  let (colour, drop, s) := s.meter l c key prof (s.wireBytes l f cp.repl) cp.colour.toNat
  if drop then ((s.bump .policeDrop (8 * l + c)).releaseCopy cp.fid).sweepStreams (dieOf l)
  else
    let s := (s.pushEntry f { cp with colour := BitVec.ofNat 2 colour } l c key prof).markOcc l c key
    let s := if s.streamsOn (dieOf l) + 1024 ≤ 65536 then s else s.sweepStreams (dieOf l)
    if (s.lp l).hold.isSome then s.toReserve l else s

/-- R77's condition on the egress queue of an uncredited frame; a held port of a die that presses back counts as full (05 R142).
QMAX is the profile's field on every egress port: DESIGN CHOICE (entry 96). -/
def Body.uncredOk (s : Body) (f : BufFrame) (l : Nat) (colour : Nat) : Bool :=
  let c := s.classOn l f
  let full := (s.lp l).hold.isSome && s.holdPressed (dieOf l)
  s.depth l c + f.cells ≤ (s.congProfile l c colour).qmax && !full

/-- The frame is subject to congestion profiles: VL0 and VL7 never are (03 R92). -/
def profiled (f : BufFrame) : Bool := f.eth.isSome || !(f.hdr.vl == 0 || f.hdr.vl == 7)

/-- ECN-capable as it leaves a gateway port: ALP-over-UDP is ECT(0), a native packet by its own field (03 R93). -/
def ecnOk (f : BufFrame) : Bool :=
  match f.eth with
  | some e => match e.ecn with | some b => b != 0 | none => false
  | none => true

/-- Credit for a whole frame on its lane (02 R55). -/
def LPort.credit (x : LPort) (v n : Nat) : Bool :=
  let d := mod24 (nth x.limitIn v 0) (nth x.sent v 0)
  n ≤ d && d < 2 ^ 23

/-- The group's datagrams carry a full UDP checksum (02 R69). -/
def Body.fullChecksum (s : Body) (l : Nat) : Bool := s.gwByte (physOf l / 8) 41 % 2 == 1

/-- A frame would launch in cut-through on this port: R81's conditions, with nothing queued or in launch there (entry 97). -/
def Body.cutThrough (s : Body) (f : BufFrame) (l : Nat) : Bool :=
  let x := s.lp l
  let gw := s.isGateway (physOf l)
  x.state == .up && !x.peerDraining && x.hold.isNone && x.launch.isNone && !(s.tms.queue.any fun e => e.lport == l)
    && !s.tooSlow f l && (gw || x.credit f.hdr.vl.toNat (frameCells f.hdr)) && !(gw && f.eth.isNone && s.fullChecksum l)

/-- Admit a copy at its egress port: congestion profile, then the queue (03 R91-R93). A frame admitted in cut-through is judged
at depth 0. An ENCAP frame at a gateway port goes to the unit that takes its Ethernet frame out (02 R53). -/
def Body.takeIn (s : Body) (f : BufFrame) (cp : Copy) (l : Nat) : Body :=
  if f.hdr.opc.toNat = opEncap ∧ f.eth.isNone ∧ s.isGateway (physOf l) then s.setFrame { f with here := some (.encap l) }
  else
  let c := s.classOn l f
  let colour := cp.colour.toNat
  let (avg, s) := s.congAvg l c colour
  let (a, s) := if profiled f then s.congJudge f.die l c colour (if s.cutThrough f l then 0 else avg) else (.pass, s)
  match a with
  | .pass => s.enqueue f cp l
  | .act =>
    let p := s.congProfile l c colour
    let drop := s.isGateway (physOf l) && (p.drop || !ecnOk f)
    let s := s.bump (markCtr drop) (4 * l + colour)
    if drop then s.releaseCopy cp.fid else s.enqueue f { cp with ce := true } l

/-- The local function of a frame addressed to the module; none: refused (02 R30-R32). -/
def Body.localOf (s : Body) (h : Hdr) (x : BitVec 128) : Option Local :=
  let o := h.opc.toNat
  if adQueue h.dst != 0 then none
  else match adEport h.dst with
    | 0 =>
      if o = opPut ∨ o = opGet ∨ o = opAtomic then some .fmem
      else if o = opGetResp ∨ o = opAtomResp ∨ o = opAck ∨ o = opNack then some .answer
      else if o = opRres ∨ o = opConf then some (.sett (ctxOf h s.homePlane x))
      else none
    | 1 => if o = opMgmt then some .mgmt else none
    | _ => none

/-- A frame that came without credit (03 R77). -/
def BufFrame.uncredited (f : BufFrame) : Option Nat :=
  match f.origin with | .udp l => some l | .eth l _ => some l | _ => none

/-- A copy on its egress port; one of a frame without credit meets R77's test of its queue there. -/
def Body.takeCopy (s : Body) (f : BufFrame) (cp : Copy) (l : Nat) : Body :=
  match f.uncredited with
  | some i => if s.uncredOk f l cp.colour.toNat then s.takeIn f cp l else (s.bump .udpAdmitDrop i).releaseCopy f.fid
  | none => s.takeIn f cp l

/-! ### Frames that the module originates (03 R73) -/

/-- Copy targets of a frame: its DST, or replication entries. One for the module itself goes to its local function. -/
def Body.sendTargets (s : Body) (f : BufFrame) (ts : List (Option (Nat × W32))) : Body :=
  ts.foldl (fun s t =>
    let cp : Copy := { fid := f.fid, repl := t, ce := f.hdr.ce, colour := BitVec.ofNat 2 (colourIn f.hdr.colour) }
    match s.resolveCopy f.hdr.dst t with
    | .drop c => (s.bump c f.die).releaseCopy f.fid
    | .here =>
      match s.localOf f.hdr f.ext, s.frame f.fid with
      | some w, some g => s.setFrame { g with here := some w }
      | _, _ => s.releaseCopy f.fid
    | .path e m =>
      match s.spray f.die e m with
      | (none, s) => s.releaseCopy f.fid
      | (some l, s) => s.takeCopy f cp l) s

/-- Cells for an originated frame: from the originated pool, then from the shared pool; none when it must wait (03 R73). -/
def Body.takeOwn (s : Body) (die : Nat) (f : BufFrame) : Option (BufFrame × Body) :=
  let pl := s.pool die
  let put := fun (f : BufFrame) (s : Body) => (f, { s with fwc := { s.fwc with frames := s.fwc.frames ++ [f] } })
  if pl.orig ≥ f.cells then some (put f (s.setPool die { pl with orig := pl.orig - f.cells }))
  else if pl.shared ≥ s.profiles.inForce.uncreditedFloor + f.cells then
    let from_ : Origin := match f.origin with | .own d _ n => .own d true n | o => o
    some (put { f with origin := from_ } (s.setPool die { pl with shared := pl.shared - f.cells }))
  else none

/-- The Sett that originates a reduce frame: the one that serves its context. -/
def Body.settOf (s : Body) (h : Hdr) (x : BitVec 128) : Option Nat :=
  let o := h.opc.toNat
  if (o = opRput ∨ o = opRres ∨ o = opConf) ∧ rxChunk x ≠ recordChunk then
    (s.coll.ctxs.find? fun c => c.key == ctxOf h s.homePlane x).map fun c => s.servingSett 20 c.sett
  else none

/-- An originator by number: Sett n, or 20 + the die of a memory controller. -/
def originKey (die : Nat) (sett : Option Nat) : Nat := sett.getD (20 + die)

/-- An originator that holds a frame starts no later one of its own. -/
def Body.originHolds (s : Body) (k : Nat) : Bool := s.fwc.origWait.any fun w => w.key == k

/-- Hold a frame; the wait is counted when it is for cells. -/
def Body.holdOwn (s : Body) (k : Nat) (f : BufFrame) (ts : List (Option (Nat × W32))) (cells : Bool) : Body :=
  let s := { s with fwc := { s.fwc with origWait := s.fwc.origWait ++ [{ key := k, frame := f, to_ := ts, counted := cells }] } }
  if cells then s.bump .origPoolWait f.die else s

/-- Originate a frame: it waits when cells are short or an earlier one of its originator waits (03 R73). -/
def Body.originate (s : Body) (die : Nat) (h : Hdr) (x : BitVec 128) (r : Rest) (ts : List (Option (Nat × W32))) : Body :=
  let fid := s.fwc.nextFid
  let sett := s.settOf h x
  let f : BufFrame := { fid, origin := .own die false sett, die, hdr := h, ext := x, rest := some r, cells := frameCells h,
                        copies := ts.length }
  let s := { s with fwc := { s.fwc with nextFid := fid + 1 } }
  let k := originKey die sett
  if ts.isEmpty then s
  else if s.originHolds k then s.holdOwn k f ts false
  else match s.takeOwn die f with
    | some (f, s) => s.sendTargets f ts
    | none => s.holdOwn k f ts true

/-- One waiting frame goes on when its cells are there; otherwise its originator stays blocked for this pass. -/
def Body.retryOne (p : List Nat × Body) (w : OrigWait) : List Nat × Body :=
  if p.1.contains w.key then p
  else
    let s := p.2
    match s.takeOwn w.frame.die w.frame with
    | some (g, s) =>
      (p.1, ({ s with fwc := { s.fwc with origWait := s.fwc.origWait.filter fun v => v.frame.fid != w.frame.fid } } : Body).sendTargets
        g w.to_)
    | none =>
      (w.key :: p.1, if w.counted then s else
        ({ s with fwc := { s.fwc with origWait := s.fwc.origWait.map fun v =>
            if v.frame.fid = w.frame.fid then { v with counted := true } else v } } : Body).bump .origPoolWait w.frame.die)

/-- After cells came free: each originator's waiting frames go on, in order. -/
def Body.retryAll (s : Body) : Body := (s.fwc.origWait.foldl Body.retryOne ([], s)).2

/-- Originate a frame to its DST. -/
def Body.send (s : Body) (die : Nat) (h : Hdr) (x : BitVec 128) (r : Rest) : Body := s.originate die h x r [none]

/-- A NACK to the sender of a refused frame (02 R52); an answer is never answered (02 R32). -/
def Body.nack (s : Body) (die : Nat) (h : Hdr) (reason word1 : Nat) : Body :=
  if isAnswer h.opc.toNat then s
  else
    let g := ownHdr s.own h.src opNack 0 2 h.tag.toNat false false
    s.send die g 0 (mkRest g 0 [BitVec.ofNat 64 (put reason 56), BitVec.ofNat 64 word1] 0 0 tGood)

/-- An ACK to the sender of an accepted frame with ACKREQ = 1 (02 R52). -/
def Body.ackFrame (s : Body) (die : Nat) (h : Hdr) : Body :=
  if h.ackreq then
    let g := ownHdr s.own h.src opAck 0 0 h.tag.toNat false false
    s.send die g 0 (mkRest g 0 [] 0 0 tGood)
  else s

/-! ### Replication (08 R215, R428) -/

/-- A replication entry as a copy target. -/
def Repl.key (r : Repl) : Nat × W32 := (r.kind, r.target)

/-- Entries of the list that a result or record from this module as root, or from an endpoint, goes to (08 R428). -/
def Body.replAll (s : Body) (g : Group) : List Repl :=
  g.repl.filter fun r => !(r.kind == 2 && fld r.target 9 0 == s.moduleIndex)

/-- Entries for one that arrives from another spine module. -/
def replDown (g : Group) : List Repl := g.repl.filter fun r => r.kind != 2

/-- A copy is dropped for a fenced member or a pod with no live member (08 R215). -/
def replFencedOut (g : Group) (r : Repl) : Bool :=
  match r.kind with
  | 0 => r.live == 0
  | 1 => (nth g.members (fld r.target 17 0) { ep := 0 }).fenced
  | _ => false

/-- Copy targets of a group frame, counting the dropped ones. -/
def Body.replicaTargets (s : Body) (g : Group) (rs : List Repl) : List (Option (Nat × W32)) × Body :=
  let out := rs.filter fun r => !replFencedOut g r
  (out.map fun r => some r.key, s.bumpBy .replFenced 0 (rs.length - out.length))

/-- Make copies of a buffered frame for replication entries. -/
def Body.replicate (s : Body) (fid : Nat) (g : Group) (rs : List Repl) : Body :=
  match s.frame fid with
  | none => s
  | some f =>
    let (ts, s) := s.replicaTargets g rs
    (s.setFrame { f with copies := f.copies + ts.length }).sendTargets f ts

/-! ### Native frames and ENCAP (02 R53, 04 R117) -/

/-- Header of an ENCAP frame that the module makes: its DST is not stated (entry 22); it goes on VL5. -/
def Body.encapHdr (s : Body) (len : Nat) : Hdr :=
  ownHdr s.own (BitVec.ofNat 32 ((Config.unstated 53).toNat % 2 ^ 31)) opEncap 5 len 0 false false

/-- Payload of an ENCAP frame (02, before R53). -/
def encapPayload (e : Eth) : List W64 :=
  let n := e.bytes - 4
  let bs := (e.data ++ List.replicate (n - e.data.length) 0).take n
  BitVec.ofNat 64 (put n 50) :: wordsOf (bs ++ List.replicate ((8 - n % 8) % 8) 0)

/-- The frame as an ENCAP frame. -/
def Body.encapped (s : Body) (f : BufFrame) (e : Eth) : BufFrame :=
  let ws := encapPayload e
  let h := s.encapHdr ws.length
  { f with hdr := h, eth := none, rest := some (mkRest h 0 ws 0 0 tGood), cells := frameCells h }

/-- Where a native frame goes: the entry's port, or the counter of its discard (04 R117, 02 R53). -/
def Body.ethDest (s : Body) (l : Nat) (e : Eth) : (Ctr × Nat ⊕ Nat) × Body :=
  let g := physOf l / 8
  if e.dstMac.getLsbD 40 then (.inl (.gwMiss, g), s)
  else match s.gwLookup (macvEntry g e.vid.toNat e.dstMac.toNat) with
    | (none, s) => (.inl (.gwMiss, g), s)
    | (some x, s) =>
      if s.isGateway (physOf (gwLport x)) || e.bytes ≤ 8188 then (.inr (gwLport x), s) else (.inl (.encapTooLong, l), s)

/-! ### Re-entry at Lookup (04 R107, 06 R151) -/

/-- A copy enters the pipeline again at Lookup: a native frame by the MACV entry of its ingress group, any other, a frame out of
an ENCAP frame among them, by its header. -/
def Body.reenter (s : Body) (cp : Copy) (l : Nat) : Body :=
  match s.frame cp.fid with
  | none => s
  | some f =>
    let s := s.bump .resprayFrames l
    let byHdr := fun (s : Body) (f : BufFrame) =>
      match s.resolveCopy f.hdr.dst cp.repl with
      | .drop c => (s.bump c f.die).releaseCopy cp.fid
      | .here => s.releaseCopy cp.fid
      | .path e m =>
        match s.spray (dieOf l) e m with
        | (none, s) => s.releaseCopy cp.fid
        | (some k, s) => s.takeIn f cp k
    match f.eth, f.origin with
    | some e, .eth i _ =>
      match s.ethDest i e with
      | (.inl (c, n), s) => (s.bump c n).releaseCopy cp.fid
      | (.inr k, s) =>
        if s.isGateway (physOf k) then s.takeIn f cp k
        else
          let g := { s.encapped f e with cells := f.cells }
          (s.setFrame g).takeIn g cp k
    | some _, _ =>
      let g := { f with eth := none }
      byHdr (s.setFrame g) g
    | none, _ => byHdr s f

/-- The allotment of a port out of hold returns to its die once its reserve is empty (09 R251). -/
def Body.returnAllot (s : Body) (l : Nat) : Body :=
  let n := (s.lp l).allotLeft
  if n = 0 || (s.lp l).hold.isSome || s.tms.queue.any (fun e => e.lport == l && e.held) then s
  else
    let d := dieOf l
    ({ s with tms := { s.tms with reserve := setNth s.tms.reserve d (nth s.tms.reserve d 0 + n) } } : Body).modLp l
      fun x => { x with allotLeft := 0 }

/-- Frames queued for a port and not launched re-enter, those of the reserve first; their cells count again in the buffer. -/
def Body.reenterQueued (s : Body) (l : Nat) : Body :=
  let es := s.tms.queue.filter fun e => e.lport == l
  let s := s.unqueueAll fun e => e.lport == l
  (es.filter (·.held) ++ es.filter fun e => !e.held).foldl (fun s e =>
    let s := if e.held then (match s.frame e.copy.fid with
      | some f => s.setFrame { f with copies := f.copies + 1 }
      | none => s) else s
    s.reenter e.copy l) s

/-- Frames whose header lies in a group not acknowledged, in replay order, then frames launched of which no group has carried a
byte (04 R107). -/
def LPort.unacked (x : LPort) : List Copy :=
  (x.replay.flatMap fun g => g.heads) ++ (x.tx.filter fun t => t.sent == 0).filterMap fun t => t.copy

/-- Take the unacknowledged copies off a port: one whose header was acknowledged and whose tail was not is lost (04 R108). -/
def Body.takeReplay (s : Body) (l : Nat) : List Copy × Body :=
  let x := s.lp l
  let cs := x.unacked
  let s := s.setLp l { x with replay := [], tx := [], launch := none, launchCopy := none, launchHop := none }
  let s := match x.launch with
    | some fid => if cs.any (fun c => c.fid == fid) then s else s.releaseCopy fid
    | none => s
  (cs, cs.foldl (fun s c => match s.frame c.fid with
    | some f => if x.launch = some c.fid then s else s.setFrame { f with copies := f.copies + 1 }
    | none => s) s)

/-- A lower SCLK takes effect once the Sett's result frame in launch has ended (03 R81). -/
def Body.settLaunching (s : Body) (n : Nat) : Bool :=
  s.lports.any fun x => x.2.tx.any fun t => match t.copy.bind fun c => s.frame c.fid with
    | some f => (match f.origin with | .own _ _ (some m) => m == n | _ => false)
    | none => false

def Body.applyLower (s : Body) : Body :=
  { s with setts := s.setts.map fun x => match x.2.lower with
    | some v => if s.settLaunching x.1 then x else (x.1, { x.2 with sclk := v, lower := none })
    | none => x }

/-- Frames whose header lies in a group not acknowledged re-enter whole (04 R107). -/
def Body.reenterReplay (s : Body) (l : Nat) : Body :=
  let (cs, s) := s.takeReplay l
  cs.foldl (fun s c => s.reenter c l) s.applyLower

/-- Copies not yet started of frames that were still arriving on a failed port are dropped and counted (04 R109). A group frame
whose copies its local function has not made yet counts as one. -/
def Body.cutIngress (s : Body) (l : Nat) : Body :=
  match (s.lp l).rxFid with
  | none => s
  | some fid =>
    let es := s.tms.queue.filter fun e => e.copy.fid == fid
    let waits := (s.frame fid).any fun f => f.here.isSome && isGroupAddr f.hdr.dst
    let s := (s.unqueueAll fun e => e.copy.fid == fid).bumpBy .ingressCut l (es.length + waits.toNat)
    let s := es.foldl (fun s _ => s.releaseCopy fid) s
    (s.modLp l fun x => { x with rxFid := none }).doneHere fid

/-- A command of the data plane: nothing while it does not run; afterwards the originators that wait for cells go on. -/
def onData (s : State) (f : Body → Body) : Ans := onBody s fun b => if b.dataRuns then (f b).retryAll else b

/-- A command of the data plane on a logical port: absent ports stop the model (00 R4). -/
def onDataPort (s : State) (l : Nat) (f : Body → Body) : Ans := if physOf l < s.hw.ports then onData s f else .fault (.absentPort l)

/-- A command of a link or of the optics behind a port. -/
def onLink (s : State) (l : Nat) (f : Body → Body) : Ans :=
  if physOf l < s.hw.ports then onBody s fun b => if b.linksRun then (f b).retryAll else b else .fault (.absentPort l)

end Sys2Proof.Machine
end

