-- ==== Sys2Proof/Machine/Launch.lean ====
section
/-! DEFINITION. TMS choosing and launching a port's next frame, limiter credit, published loads (05 R127-R136, R139; 03 R81, R82;
02 R54, R69, R70; 04 R105, R115). -/
namespace Sys2Proof.Machine

/-! ### Deficit round robin (05 R129, R130) -/

/-- A child of a scheduler: its key, level, weight, deficit, counted length of its head, committed state. -/
structure Child where
  key : Nat
  prio : Nat
  weight : Nat
  deficit : Nat
  len : Nat
  committed : Bool

/-- Rounds until a child's deficit reaches its head's length; answers the winner and the deficits. -/
def drrGo : Nat → List Child → Option (Nat × List (Nat × Nat))
  | 0, _ => none
  | _ + 1, [] => none
  | n + 1, c :: t =>
    let d := c.deficit + c.weight * 1024
    if d ≥ c.len then some (c.key, (c.key, d - c.len) :: t.map fun x => (x.key, x.deficit))
    else drrGo n (t ++ [{ c with deficit := d }])

/-- The children that compete: committed ones, or excess ones when there are none, at the highest PRIO, by key. -/
def contenders (cs : List Child) : List Child :=
  let com := cs.filter (·.committed)
  let pool := if com.isEmpty then cs else com
  let top := pool.foldl (fun a c => max a c.prio) 0
  sortBy (fun (a b : Child) => a.key < b.key) (pool.filter fun c => c.prio == top)

/-- The next child after the one served last at its PRIO, which goes on while its deficit allows. -/
def drrPick (last : Nat → Nat) (cs : List Child) : Option (Nat × List (Nat × Nat)) :=
  let q := contenders cs
  let k := last ((q.head?.map (·.prio)).getD 0)
  match q.find? fun c => c.key == k && c.deficit ≥ c.len with
  | some c => some (c.key, [(c.key, c.deficit - c.len)])
  | none =>
    let rot := q.filter (fun c => c.key > k) ++ q.filter fun c => c.key ≤ k
    drrGo (12 * rot.length + 1) rot

/-- Committed, excess or not eligible by its limiter (05 R132, R133). -/
def limState (n : Node) (x : Limiter) : Option Bool :=
  if n.mode = 1 ∧ !n.police then (if x.p < 0 then none else some (x.c ≥ 0))
  else if n.mode = 2 then (if x.c < 0 then none else some true)
  else some true

/-- A launch's charge on a limiter (05 R132, R133). -/
def limCharge (n : Node) (x : Limiter) (bytes : Nat) : Limiter :=
  let l : Int := (counted n bytes * 256 : Nat)
  if n.mode = 1 ∧ !n.police then { x with c := x.c - l, p := x.p - l }
  else if n.mode = 2 then { x with c := max (x.c - l) (-(n.size2 * 256 : Nat) : Int) }
  else x

/-! ### Eligibility (05 R128, R129; 02 R54, R55, R69; 03 R81) -/

def Body.queueOf (s : Body) (l c : Nat) : List QEntry := s.tms.queue.filter fun e => e.lport == l && e.cls == c

def oldest (l : List QEntry) : Option QEntry := best (fun (a b : QEntry) => a.seq < b.seq) l

/-- The rate condition of R81 failed, and its tail is not in the buffer. -/
def slowOpen (e : QEntry) (f : BufFrame) : Bool := e.slow && f.rest.isNone

/-- A stream's head frame may start: its tail is there where it is needed, a verdict where the link knows no LATE. -/
def Body.headReady (s : Body) (l : Nat) (e : QEntry) (f : BufFrame) : Bool :=
  let late := isClast f && (s.oldLink l || s.levelBarsLate f)
  let whole := late || (s.isGateway (physOf l) && f.eth.isNone && s.fullChecksum l)
  !slowOpen e f && (!whole || f.rest.isSome) && !(late && f.verdict.isNone && f.rest.any fun r => r.status.toNat == tLate)

/-- An ALP port holds downstream credit for the whole frame (02 R54). -/
def Body.hasCredit (s : Body) (l : Nat) (f : BufFrame) : Bool :=
  s.isGateway (physOf l) || (s.lp l).credit f.hdr.vl.toNat (frameCells f.hdr)

/-- An older frame of the same ingress port and lane waits in another stream of the class (05 R128). -/
def Body.orderHeld (s : Body) (e : QEntry) : Bool :=
  e.ingress.isSome && s.tms.queue.any fun o => o.lport == e.lport && o.cls == e.cls && o.stream != e.stream
    && o.ingress == e.ingress && o.seq < e.seq

/-- Head frames of the streams of a class. While frames of the class are in the reserve, the oldest of those goes first
(05 R143). -/
def Body.streamHeads (s : Body) (l c : Nat) : List QEntry :=
  let q := s.queueOf l c
  match oldest (q.filter (·.held)) with
  | some e => [e]
  | none => (dedupNat (q.map (·.stream))).filterMap fun k => oldest (q.filter fun e => e.stream == k)

/-- Count waits under R128 once each. -/
def Body.countWaits (s : Body) (l : Nat) : Body :=
  let hs := (List.range 8).flatMap fun c => (s.streamHeads l c).filter fun e => !e.waited && s.orderHeld e
  let s := s.bumpBy .orderWait (dieOf l) hs.length
  let seqs := hs.map (·.seq)
  { s with tms := { s.tms with queue := s.tms.queue.map fun (e : QEntry) => if seqs.contains e.seq then { e with waited := true } else e } }

/-- A stream as a child of its class. -/
def Body.streamChild (s : Body) (l c : Nat) (e : QEntry) : Option Child :=
  match s.tms.streams.find? (sameStream l c e.stream), s.frame e.copy.fid with
  | some x, some f =>
    let n := nodeOf (s.streamProfile x.prof)
    if s.orderHeld e || !s.headReady l e f then none
    else (limState n x.lim).map fun com =>
      { key := e.stream, prio := n.prio, weight := n.weight, deficit := x.deficit, len := counted n (s.wireBytes l f e.copy.repl)
        committed := com }
  | _, _ => none

/-- The class's choice: its stream's head frame, and the streams' deficits. -/
def Body.pickStream (s : Body) (l c : Nat) : Option (QEntry × List (Nat × Nat)) :=
  let hs := s.streamHeads l c
  match drrPick (fun p => mgetD s.tms.lastStream (4 * (8 * l + c) + p) 0) (hs.filterMap (s.streamChild l c)) with
  | none => none
  | some (k, ds) => (hs.find? fun e => e.stream == k).map fun e => (e, ds)

/-- A head frame of the class waits for its tail under R81: the class is not eligible. -/
def Body.slowHead (s : Body) (l c : Nat) : Bool :=
  (s.streamHeads l c).any fun e => match s.frame e.copy.fid with | some f => slowOpen e f | none => false

/-- A class as a child of its port. -/
def Body.classChild (s : Body) (l c : Nat) : Option (Child × QEntry × List (Nat × Nat)) :=
  if s.slowHead l c then none
  else match s.pickStream l c with
  | none => none
  | some (e, ds) =>
    let n := nodeOf (s.classNode l c)
    match limState n (mgetD s.tms.classLim (8 * l + c) {}), s.frame e.copy.fid with
    | some com, some f =>
      if !s.hasCredit l f then none
      else
        let x : Child := { key := c, prio := n.prio, weight := n.weight, deficit := mgetD s.tms.classDef (8 * l + c) 0
                           len := counted n (s.wireBytes l f e.copy.repl), committed := com }
        some (x, e, ds)
    | _, _ => none

/-- What the port launches next, with the new deficits of its classes and of the chosen class's streams. -/
def Body.pickFrame (s : Body) (l : Nat) : Option (QEntry × List (Nat × Nat) × List (Nat × Nat)) :=
  let x := s.lp l
  if x.state != .up || x.peerDraining || x.hold.isSome || x.launch.isSome then none
  else if (limState (nodeOf (s.portNode l)) (mgetD s.tms.portLim l {})).isNone then none
  else
    let cs := (List.range 8).filterMap (s.classChild l)
    match drrPick (fun p => mgetD s.tms.lastClass (4 * l + p) 0) (cs.map (·.1)) with
    | none => none
    | some (k, ds) => (cs.find? fun c => c.1.key == k).map fun c => (c.2.1, ds, c.2.2)

/-! ### What leaves (02 Table 2-17, R40, R48, R69, R70; 04 R115) -/

/-- Remote IP of an address behind a gateway group: version and address (04 R115). -/
def Body.remoteIp (s : Body) (g : Nat) (a : W32) (e : PathEntry) : Bool × Nat :=
  if peIpv4 e then (true, peBase4 e ||| (adRack a <<< 10) ||| (adSlot a <<< 4) ||| adEport a)
  else (false, beNat ((List.range 12).map fun i => BitVec.ofNat 8 (s.gwByte g (16 + i))) * 2 ^ 32 + (a.toNat / 32 * 32))

/-- The group's local address of a family, 0 when the family is disabled (16 Table 16-12). -/
def Body.localIp (s : Body) (g : Nat) (v4 : Bool) : Nat :=
  if v4 then beNat ((List.range 4).map fun i => BitVec.ofNat 8 (s.gwByte g (28 + i)))
  else beNat ((List.range 16).map fun i => BitVec.ofNat 8 (s.gwByte g i))

def Body.udpPort (s : Body) (g : Nat) : Nat :=
  let v := s.gwByte g 38 + 256 * s.gwByte g 39
  if v = 0 then 0x5A47 else v

/-- Next-hop MAC and remote IP of a copy; none when both lookups miss (04 R115). One lookup serves a launch. -/
def Body.nextHop (s : Body) (l : Nat) (dst : W32) (repl : Option (Nat × W32)) : Option (Nat × Nat) × Body :=
  let g := physOf l / 8
  let a := s.routeAddr dst repl
  let (v4, ip) := s.remoteIp g a (s.podEntry (adPlane a) (adPod a))
  let key := fun r => udp5Entry v4 g (s.localIp g v4) r (s.udpPort g)
  match s.gwLookup (key ip) with
  | (some e, s) => (some (gwNhMac e, ip), s)
  | (none, s) =>
    match s.gwLookup (key 0) with
    | (some e, s) => (some (gwNhMac e, ip), s)
    | (none, s) => (none, s)

/-- The header as the copy leaves with it. -/
def copyHdr (h : Hdr) (c : Copy) : Hdr :=
  if h.ce = c.ce ∧ h.colour = c.colour then h else sealHdr { h with ce := c.ce, colour := c.colour }

/-- The tail as it leaves on a link: a LATE tail carries the verdict on a 3.1 or 3.0 link. -/
def Body.tailOn (s : Body) (l : Nat) (f : BufFrame) (r : Rest) : Rest :=
  match f.verdict with
  | some v => if s.oldLink l ∧ isClast f ∧ r.status.toNat = tLate then { r with status := v } else r
  | none => r

/-- Record a frame that has left whole on a port, to the next hop its launch found. -/
def Body.frameOut (s : Body) (l : Nat) (f : BufFrame) (c : Copy) (hop : Option (Nat × Nat)) (r : Rest) : Body :=
  let h := copyHdr f.hdr c
  match f.eth, hop with
  | some e, _ => s.putOut (.eth l (if c.ce then { e with ecn := some 3 } else e))
  | none, some (mac, ip) =>
    s.putOut (.udp l (BitVec.ofNat 48 mac) (BitVec.ofNat 128 ip) c.ce h f.ext (some (s.tailOn l f r)))
  | none, none => s.putOut (.frame l h f.ext (some (s.tailOn l f r)))

/-- What a port does with the frame it has chosen: launch it, to a next hop on a gateway port, or refuse it for size or next hop,
or discard a CONF on a link that knows none. -/
inductive Bar where
  | go (hop : Option (Nat × Nat))
  | tooBig | noHop | noConf

def Body.barred (s : Body) (l : Nat) (f : BufFrame) (c : Copy) : Bar × Body :=
  if f.eth.isSome then (.go none, s)
  else if s.isGateway (physOf l) then
    if frameBytes f.hdr > s.alpMtu (physOf l / 8) then (.tooBig, s)
    else match s.nextHop l f.hdr.dst c.repl with
      | (some x, s) => (.go (some x), s)
      | (none, s) => (.noHop, s)
  else if s.oldLink l ∧ f.hdr.opc.toNat = opConf then (.noConf, s)
  else (.go none, s)

/-! ### Launch -/

/-- Deficits, levels and last served after a launch (05 R130, R132, R133). -/
def Body.chargeLaunch (s : Body) (l : Nat) (e : QEntry) (bytes : Nat) (dc ds : List (Nat × Nat)) : Body :=
  let k := 8 * l + e.cls
  let np := nodeOf (s.portNode l)
  let nc := nodeOf (s.classNode l e.cls)
  let ns := nodeOf (s.streamProfile e.sprof)
  let up := fun (x : Stream) =>
    if x.lport = l ∧ x.cls = e.cls then
      let x := match ds.find? fun d => d.1 == x.key with | some d => { x with deficit := d.2 } | none => x
      if x.key = e.stream then { x with lim := limCharge (nodeOf (s.streamProfile x.prof)) x.lim bytes } else x
    else x
  { s with tms := { s.tms with
      portLim := if np.mode = 0 then s.tms.portLim else mset s.tms.portLim l (limCharge np (mgetD s.tms.portLim l {}) bytes)
      classLim := if nc.mode = 0 then s.tms.classLim else mset s.tms.classLim k (limCharge nc (mgetD s.tms.classLim k {}) bytes)
      classDef := dc.foldl (fun m d => mset m (8 * l + d.1) d.2) s.tms.classDef
      lastClass := mset s.tms.lastClass (4 * l + nc.prio) e.cls
      lastStream := mset s.tms.lastStream (4 * k + ns.prio) e.stream
      streams := s.tms.streams.map up } }

/-- Raise the sojourn marks of a launched frame (05 R139). -/
def Body.markSoj (s : Body) (l : Nat) (e : QEntry) : Body :=
  let now := s.clock.ns
  let t := now.toNat - e.at_
  let alarm := Nat.blt (nodeOf (s.classNode l e.cls)).sojAlarm t
  let up := fun (h : Hwm) =>
    let h := if min 0xFFFFFFFF t > h.soj then { h with soj := min 0xFFFFFFFF t, sojAt := now } else h
    if alarm then { h with nOver := min 0xFFFF (h.nOver + 1) } else h
  { s with tms := { s.tms with
      classHwm := mset s.tms.classHwm (8 * l + e.cls) (up (mgetD s.tms.classHwm (8 * l + e.cls) {}))
      streams := s.tms.streams.map fun x => if sameStream l e.cls e.stream x then { x with hwm := up x.hwm } else x } }

/-- The copy's part of the buffer: a frame in the Bivouac reserve holds none (05 R141). -/
def Body.doneCopy (s : Body) (e : QEntry) : Body :=
  if e.held then (s.collect e.copy.fid).returnAllot e.lport else s.releaseCopy e.copy.fid

def Body.unqueue (s : Body) (e : QEntry) : Body := s.unqueueAll fun q => q.seq == e.seq

/-- A frame with LEVEL 1 or 2 exchanged with a peer module counts toward the pair's rate (10 R265). -/
def Body.countC (s : Body) (h : Hdr) (x : BitVec 128) (peer : W32) : Body :=
  let o := h.opc.toNat
  if (o = opRput ∨ o = opRres ∨ o = opConf) ∧ (rxLevel x = 1 ∨ rxLevel x = 2) ∧ s.isSpine peer then
    let m := adIndex peer
    { s with budget := { s.budget with levelC := mset s.budget.levelC m (mgetD s.budget.levelC m 0 + frameBytes h) } }
  else s

/-- The chosen frame starts on its port. -/
def Body.start (s : Body) (l : Nat) (e : QEntry) (f : BufFrame) (hop : Option (Nat × Nat)) (dc ds : List (Nat × Nat)) : Body :=
  let bytes := s.wireBytes l f e.copy.repl
  let v := f.hdr.vl.toNat
  let s := ((s.chargeLaunch l e bytes dc ds).markSoj l e).unqueue e
  let s := if f.hdr.src == s.own then s.countC f.hdr f.ext (s.routeAddr f.hdr.dst e.copy.repl) else s
  let s := if s.isGateway (physOf l) then s
    else s.modLp l fun x => { x with sent := setNth x.sent v ((nth x.sent v 0 + frameCells f.hdr) % 2 ^ 24)
                                     tx := x.tx ++ [{ copy := some e.copy, bytes }] }
  match f.rest with
  | some r => (s.frameOut l f e.copy hop r).doneCopy e
  | none => s.modLp l fun x => { x with launch := some e.copy.fid, launchCopy := some e.copy, launchHop := hop }

/-- Launch a port's next frame, if one is eligible (05 R129). -/
def Body.launchOn (s : Body) (l : Nat) : Body :=
  let s := s.countWaits l
  match s.pickFrame l with
  | none => s
  | some (e, dc, ds) =>
    match s.frame e.copy.fid with
    | none => s.unqueue e
    | some f =>
      match s.barred l f e.copy with
      | (.go hop, s) => s.start l e f hop dc ds
      | (.tooBig, s) => ((s.unqueue e).doneCopy e).nack f.die f.hdr nkTooBig (s.alpMtu (physOf l / 8))
      | (.noHop, s) => ((s.unqueue e).doneCopy e).bump .gwNoNexthop (physOf l / 8)
      | (.noConf, s) => (s.unqueue e).doneCopy e

/-- The frame being launched on a port ends with this tail. -/
def Body.endLaunch (s : Body) (l : Nat) (r : Rest) : Body :=
  let x := s.lp l
  match x.launch, x.launchCopy with
  | some fid, some c =>
    let s := s.setLp l { x with launch := none, launchCopy := none, launchHop := none }
    match s.frame fid with | some f => s.frameOut l f c x.launchHop r | none => s
  | _, _ => s

/-- The words that have come, zeros up to LEN, and STATUS POISON; the manual states no CRC for it, so that is free
(03 R82; entry 98). -/
def cutRest (h : Hdr) (sent : List W64) (crc : Nat) : Rest :=
  { payload := (sent ++ List.replicate h.len.toNat 0).take h.len.toNat, crc := BitVec.ofNat 32 crc, status := BitVec.ofNat 8 tPoison }

/-- A frame's data have not come for 64 CCLK while it was being launched; its copy's part of the cells goes with the bytes still
to come (03 R82). -/
def Body.underrun (s : Body) (l : Nat) (sent : List W64) : Body :=
  match (s.lp l).launch with
  | none => s
  | some fid =>
    match s.frame fid with
    | some f =>
      if f.rest.isSome then s
      else
        let r := cutRest f.hdr sent (Config.unstated (8000000 + s.free)).toNat
        let s := ({ s with free := s.free + 1 } : Body).bump .cutUnderrun l
        (s.setFrame { f with under := f.under + 1 }).endLaunch l r
    | none => s

/-! ### Credit of limiters (05 R134, R136) -/

/-- Add 16 CCLK of a rate in Mb/s to one level, cut to its size. -/
def addLevel (cclk rate size : Nat) (v : Int) (rem : Nat) : Int × Nat :=
  let n := rate * 512 + rem
  (min (v + (n / max 1 cclk : Nat)) (size * 256 : Nat), n % max 1 cclk)

def addCredit (cclk : Nat) (n : Node) (x : Limiter) : Limiter :=
  if n.mode = 0 then x
  else
    let (c, cr) := addLevel cclk n.rate1 n.size1 x.c x.cRem
    if n.mode = 1 then
      let (p, pr) := addLevel cclk n.rate2 n.size2 x.p x.pRem
      { c, p, cRem := cr, pRem := pr }
    else { x with c, cRem := cr }

/-- Add credit to the limiters a table of nodes names; nodes not listed have MODE NONE. -/
def addAll (cclk : Nat) (pick : Nat → Bool) (nodes : Map (BitVec 256)) (m : Map Limiter) : Map Limiter :=
  nodes.foldl (fun m x =>
    let n := nodeOf x.2
    if n.mode != 0 && pick x.1 then mset m x.1 (addCredit cclk n (mgetD m x.1 {})) else m) m

/-- One addition to every limiter of a die (05 R136). -/
def Body.limiterTick (s : Body) (die : Nat) : Body :=
  let k := s.profiles.inForce.cclk
  let s := { s with tms := { s.tms with
    portLim := addAll k (fun i => dieOf i == die) s.tables.portNode.act s.tms.portLim
    classLim := addAll k (fun i => dieOf (i / 8) == die) s.tables.classNode.act s.tms.classLim
    streams := s.tms.streams.map fun (x : Stream) =>
      if dieOf x.lport = die then { x with lim := addCredit k (nodeOf (s.streamProfile x.prof)) x.lim } else x } }
  s.sweepStreams die

/-- A die publishes the loads of its physical ports (04 R105). -/
def Body.publish (s : Body) (die : Nat) : Body :=
  let ps := (List.range 128).map (fun k => 128 * die + k) |>.filter fun p => p < s.variant.ports
  { s with fwc := { s.fwc with load := ps.foldl (fun m p => mset m p (s.ownLoad p)) s.fwc.load } }

end Sys2Proof.Machine
end

