-- ==== Sys2Proof/Machine/FrameCmds.lean ====
section
/-! DEFINITION. Frames arriving: headers, tails, datagrams, Ethernet frames, ENCAP (02 R29-R53, R68-R70; 03 R77, R78, R83;
04 R98, R116, R117). -/
namespace Sys2Proof.Machine

/-! ### Parse (02 R29-R39) -/

/-- The counter of the check a header fails, after its HCRC; none when it passes. -/
def hdrBars (h : Hdr) : Option Ctr :=
  let o := h.opc.toNat
  if bit h.src 31 then some .hdrBadSrc
  else if h.ver != 3 then some .hdrBadVer
  else if o ≥ 13 then some .opcReserved
  else if !shapeOk h || (h.spec && !hasRedTail o) then some .hdrBadShape
  else none

/-! ### Lookup (04 Table 4-2; 02 Table 2-2, R31) -/

inductive Dest where
  | drop (c : Ctr)
  | nack
  | loc (w : Local)
  | path (e : PathEntry) (mask : BitVec 512)

def Body.destOf (s : Body) (h : Hdr) (x : BitVec 128) : Dest :=
  let o := h.opc.toNat
  if isGroupAddr h.dst then
    if fld h.dst 27 26 != 0 then .drop .hdrBadDst
    else if o != opRput && o != opRres && o != opConf then .drop .groupBadOpc
    else if (s.groupIndex h.dst).isNone then .drop .groupMiss
    else .loc (.sett (ctxOf h s.homePlane x))
  else match s.resolveEp h.dst with
    | .drop c => .drop c
    | .here => (match s.localOf h x with | some w => .loc w | none => .nack)
    | .path e m => .path e m

/-! ### Buffering -/

def Body.addFrame (s : Body) (f : BufFrame) : Body :=
  { s with fwc := { s.fwc with frames := s.fwc.frames ++ [f], nextFid := f.fid + 1 } }

/-- The copy of a frame that arrived, with the colour the module reads (02 R38). -/
def inCopy (f : BufFrame) : Copy := { fid := f.fid, ce := f.hdr.ce, colour := BitVec.ofNat 2 (colourIn f.hdr.colour) }

/-- Count a frame's cells as received on its lane (02 R55, 03 R75). -/
def Body.receiveCells (s : Body) (l v n : Nat) : Body :=
  s.modLp l fun x => { x with received := setNth x.received v ((nth x.received v 0 + n) % 2 ^ 24)
                              occ := setNth x.occ v (nth x.occ v 0 + n) }

/-- A frame on a port with credit goes where its DST resolves (04 R98). -/
def Body.route (s : Body) (f : BufFrame) : Body :=
  match s.destOf f.hdr f.ext with
  | .drop c => (s.bump c f.die).releaseCopy f.fid
  | .nack => (s.releaseCopy f.fid).nack f.die f.hdr nkBadAddr 0
  | .loc w => s.setFrame { f with here := some w }
  | .path e m =>
    match s.spray f.die e m with
    | (none, s) => s.releaseCopy f.fid
    | (some l, s) => s.takeIn f (inCopy f) l

/-! ### Groups that are discarded (02 R60; entry 99) -/

/-- Nothing has been done with the frame but to queue it: no copy launched or made, no local function at work on it. -/
def Body.untouched (s : Body) (f : BufFrame) : Bool :=
  f.copies == 1 && f.under == 0 && !(s.coll.ctxs.any fun c => c.waiting.contains f.fid)
    && !s.planes.ctlQueue.contains (.frame f.fid)
    && (f.here.isSome || s.tms.queue.any fun e => e.copy.fid == f.fid && e.copy.repl.isNone && !e.held)

/-- Take a frame back as though it had not come: its sender counts its cells once and sends it again. -/
def Body.withdraw (s : Body) (l : Nat) (f : BufFrame) : Body :=
  let v := f.hdr.vl.toNat
  let s := s.unqueueAll fun e => e.copy.fid == f.fid
  (s.modLp l fun x => { x with received := setNth x.received v (mod24 (nth x.received v 0) f.cells)
                               occ := setNth x.occ v (nth x.occ v 0 - f.cells) }).dropFrame f.fid

/-- A tail that came in the group is taken back from a frame that began before it and has not left. -/
def Body.untail (s : Body) (l fid : Nat) : Body :=
  match s.frame fid with
  | some f => if s.untouched f then (s.setFrame { f with rest := none }).modLp l fun x => { x with rxFid := some fid } else s
  | none => s

/-- Discard the group that is arriving: what came of it and is still here goes; what has left is not taken again. -/
def Body.discardGroup (s : Body) (l : Nat) : Body :=
  let p := s.lp l
  let here := fun fid => (s.frame fid).any s.untouched
  let lct := p.rxFid.bind fun f => (s.frame f).bind fun f => if f.hdr.opc.toNat = opLctrl then some f.fid else none
  let cut := lct.isSome || p.rxFid.any fun f => p.rxHere.contains f
  let s := s.setLp l { p with rxHere := [], rxTails := [], rxFid := if cut then none else p.rxFid
                              rxSeen := p.rxHere.map (fun fid => if here fid then none else some fid) ++ p.rxSeen }
  let s := match lct with | some f => s.dropFrame f | none => s
  let s := p.rxHere.foldl (fun s fid => match s.frame fid with
    | some f => if s.untouched f then s.withdraw l f else s
    | none => s) s
  (p.rxTails.filter fun f => !p.rxHere.contains f).foldl (fun s f => s.untail l f) s

/-- A header on an ALP link, in group g: the next group expected is the only one taken. Words of idle are no header (02 R35). A
bad HCRC discards the group and asks for it again (02 R60). A header that the group had brought before and whose frame has
left is not taken again. -/
def Body.header (s : Body) (l : Nat) (g : BitVec 12) (h : Hdr) (x : BitVec 128) : Body :=
  let p := s.lp l
  if s.isGateway (physOf l) || (p.state != .up && p.state != .draining) || p.rxFid.isSome || p.badGroup || g != p.rxNext
      || h.src == 0xFFFFFFFF then s
  else if h.hcrc != hcrcOf h then (s.setLp l { p with retry := some (p.retry.getD g), badGroup := true }).discardGroup l
  else match p.rxSeen with
  | some fid :: seen =>
    let open_ := (s.frame fid).any fun f => f.rest.isNone
    s.setLp l { p with rxSeen := seen, rxHere := p.rxHere ++ [fid], rxFid := if open_ then some fid else none }
  | seen =>
    let fid := s.fwc.nextFid
    let f : BufFrame := { fid, origin := .alp l h.vl.toNat, die := dieOf l, hdr := h, ext := if h.ext then x else 0
                          cells := frameCells h, copies := 1 }
    if h.opc.toNat = opLctrl ∧ (hdrBars h).isNone then
      -- link-local: not buffered against credit; its tail settles it (Table 2-15)
      (s.addFrame { f with cells := 0, copies := 0 }).setLp l { p with rxFid := some fid }
    else
      let s := (s.setLp l { p with rxSeen := seen.drop 1, rxHere := p.rxHere ++ [fid] }).receiveCells l h.vl.toNat f.cells
      match hdrBars h with
      | some c =>
        (({ s with fwc := { s.fwc with nextFid := fid + 1 } } : Body).bump c l).returnCells f f.cells
      | none =>
        let s := ((s.addFrame f).modLp l fun y => { y with rxFid := some fid }).route f
        if (s.frame fid).isSome then s else s.modLp l fun y => { y with rxFid := none }

/-! ### Tails (02 R48, 03 R83) -/

/-- A tail section cut or filled to the header's LEN. -/
def fitRest (h : Hdr) (r : Rest) : Rest :=
  let n := h.len.toNat
  { r with payload := (r.payload ++ List.replicate (n - r.payload.length) 0).take n }

/-- A bad CRC or a reserved STATUS poisons the frame; POISON and CHKFAIL stay what they are. -/
def Body.judgeTail (s : Body) (die : Nat) (h : Hdr) (x : BitVec 128) (r : Rest) : Rest × Body :=
  let bad := if r.status.toNat = tChkfail then r else { r with status := BitVec.ofNat 8 tPoison }
  if !Rest.crcGood r h x then (bad, s.bump .framePoisoned die)
  else if r.status.toNat > 3 then (bad, s)
  else (r, s)

/-- A good CONF settles the LATE frames of its chunk that wait for it (02 R48). Its verdict code goes into their STATUS as it
stands, also one above 2 (DESIGN CHOICE, entry 100). -/
def Body.confSettles (s : Body) (f : BufFrame) (r : Rest) : Body :=
  if f.hdr.opc.toNat != opConf || r.status.toNat != tGood then s
  else
    let hit := s.fwc.frames.filter fun g => s.lateHeld g && g.hdr.dst == f.hdr.dst && rxGroup g.ext == rxGroup f.ext
      && rxOpseq g.ext == rxOpseq f.ext && rxChunk g.ext == rxChunk f.ext
    hit.foldl (fun s g => s.setVerdict g.fid (fld (nth r.payload 0 0) 63 56)) s

/-- The ports that launch the frame end it with this tail; copies an underrun ended, and the rest of the frame, free their
cells; a held port's reserve can take it now (03 R82, 05 R141). -/
def Body.spreadTail (s : Body) (f : BufFrame) (r : Rest) : Body :=
  let on := s.lports.filter fun x => x.2.launch == some f.fid
  let s := on.foldl (fun s x => (s.endLaunch x.1 r).releaseCopy f.fid) s
  let s := (List.range f.under).foldl (fun s _ => s.releaseCopy f.fid) s
  let held := dedupNat ((s.tms.queue.filter fun e => e.copy.fid == f.fid && (s.lp e.lport).hold.isSome).map (·.lport))
  held.foldl (fun s l => s.toReserve l) s

/-- The tail of the frame that is arriving on a port, in group g. -/
def Body.tail (s : Body) (l : Nat) (g : BitVec 12) (r : Rest) : Body :=
  let p := s.lp l
  match p.rxFid with
  | none => s
  | some fid =>
    if p.badGroup || g != p.rxNext then s
    else match s.frame fid with
    | none => s.setLp l { p with rxFid := none }
    | some f =>
      let r := fitRest f.hdr r
      if f.hdr.opc.toNat = opLctrl then
        let s := s.setLp l { p with rxFid := none }
        let t := fld (nth r.payload 0 0) 63 56
        (if t = 0 ∨ t > 4 then s.bump .lctrlReserved l else s).dropFrame fid
      else
        let s := s.setLp l { p with rxFid := none, rxTails := p.rxTails ++ [fid] }
        let (r, s) := s.judgeTail f.die f.hdr f.ext r
        let s := s.setFrame { f with rest := some r, under := 0 }
        let s := if f.here.isSome then s.countC f.hdr f.ext f.hdr.src else s
        ((s.spreadTail f r).confSettles f r).collect fid

/-! ### Admission without credit (03 R77, R78) -/

/-- The pool test: the floor, or the PFC headroom of a class that has sent XOFF. The headroom's 640 cells are the class's
occupancy above PFC_XOFF: DESIGN CHOICE (entry 101). -/
def Body.poolOk (s : Body) (l cls charge : Nat) : Bool :=
  let x := s.lp l
  let f := (s.pool (dieOf l)).shared
  s.profiles.inForce.uncreditedFloor + charge ≤ f
    || (x.pfcOff.contains cls && nth x.uncred cls 0 + charge ≤ s.profiles.inForce.pfcXoff + 640 && charge ≤ f)

/-- Take a frame without credit into the buffer. -/
def Body.takeUncred (s : Body) (l : Nat) (f : BufFrame) : Body :=
  let pl := s.pool f.die
  ((s.setPool f.die { pl with shared := pl.shared - f.cells }).addFrame f).uncredit l (uncredClass f) true f.cells

/-- Admit to a known egress port, or count the refusal. -/
def Body.admitUncred (s : Body) (l out charge : Nat) (f : BufFrame) (c : Ctr) : Body :=
  if s.poolOk l (uncredClass f) charge && s.uncredOk { f with cells := charge } out (inCopy f).colour.toNat then
    (s.takeUncred l f).takeIn f (inCopy f) out
  else s.bump c l

/-! ### ALP over UDP (02 R68-R70, 04 R116) -/

/-- The counter of the condition of R68 that a datagram breaks: of several, the first in this order (DESIGN CHOICE, entry 102;
entry 22 for LCTRL inside a datagram). -/
def Body.udpBars (s : Body) (g : Nat) (u : Udp) : Option Ctr :=
  let ip := s.localIp g u.v4
  if ip = 0 ∨ u.dstIp.toNat ≠ ip ∨ u.fragOrOptions then some .udpBadIp
  else if !u.csumOk then some .udpBadCsum
  else if u.sver != 1 || u.hall.toNat != s.profiles.inForce.hallId || u.hdr.opc.toNat == opLctrl then some .udpBadShim
  else if u.bytes != frameBytes u.hdr then some .udpBadLen
  else none

/-- The inner SRC lies behind this group and gives the outer source address (04 R116). -/
def Body.srcMatches (s : Body) (g : Nat) (u : Udp) : Bool :=
  let a := u.hdr.src
  let e := s.podEntry (adPlane a) (adPod a)
  peKind e == 2 && peGw e == g && s.remoteIp g a e == (u.v4, u.srcIp.toNat)

/-- A learned UDP5 entry: next hop and endpoint with QUEUE cleared (04 R116). -/
def Body.learnUdp (s : Body) (l : Nat) (u : Udp) : Body :=
  let g := physOf l / 8
  let k := udp5Entry u.v4 g (s.localIp g u.v4) u.srcIp.toNat (s.udpPort g)
  s.learn (dieOf l) (setFld (setFld k 164 117 u.srcMac.toNat) 116 85 (u.hdr.src.toNat / 32 * 32))

/-- A datagram for the ALP-over-UDP port. R70's size comes before R116's source: DESIGN CHOICE (entry 103). -/
def Body.datagram (s : Body) (l : Nat) (u : Udp) : Body :=
  let g := physOf l / 8
  if !s.isGateway (physOf l) || (s.lp l).state != .up || u.dstPort.toNat != s.udpPort g then s
  else match s.udpBars g u with
    | some c => s.bump c l
    | none =>
      if u.hdr.hcrc != hcrcOf u.hdr then s.bump .hdrBadHcrc l
      else match hdrBars u.hdr with
        | some c => s.bump c l
        | none =>
          if u.bytes > s.alpMtu g then s.nack (dieOf l) u.hdr nkTooBig (s.alpMtu g)
          else if !s.srcMatches g u then s.bump .gwSrcMismatch g
          else
            let s := s.learnUdp l u
            let h := if u.ecnCe ∧ !u.hdr.ce then sealHdr { u.hdr with ce := true } else u.hdr
            let x := if h.ext then u.ext else 0
            let (r, s) := s.judgeTail (dieOf l) h x (fitRest h u.rest)
            let f : BufFrame := { fid := s.fwc.nextFid, origin := .udp l, die := dieOf l, hdr := h, ext := x, rest := some r
                                  cells := frameCells h, copies := 1 }
            let s := s.confSettles f r
            match s.destOf h x with
            | .drop c => s.bump c (dieOf l)
            | .nack => s.nack (dieOf l) h nkBadAddr 0
            | .loc w =>
              if s.poolOk l h.vl.toNat f.cells then s.takeUncred l { f with here := some w } else s.bump .udpAdmitDrop l
            | .path e m =>
              match s.spray f.die e m with
              | (none, s) => s
              | (some out, s) => s.admitUncred l out f.cells f .udpAdmitDrop

/-! ### Native Ethernet frames (02 R53, 03 R77, 04 R117) -/

def Body.ethernet (s : Body) (l : Nat) (e : Eth) : Body :=
  let g := physOf l / 8
  if !s.isGateway (physOf l) || (s.lp l).state != .up || e.bytes < 64 || e.bytes > 9216 then s
  else
    let cls := s.ethClass g e.pcp
    let s := s.learn (dieOf l) (setFld (macvEntry g e.vid.toNat e.srcMac.toNat) 175 165 l)
    match s.ethDest l e with
    | (.inl (c, n), s) => s.bump c n
    | (.inr out, s) =>
      let f : BufFrame := { fid := s.fwc.nextFid, origin := .eth l cls, die := dieOf l, hdr := s.encapHdr 0, eth := some e
                            rest := some { payload := [], crc := 0 }, cells := cellsOf e.bytes, copies := 1 }
      s.admitUncred l out 36 (if s.isGateway (physOf out) then f else s.encapped f e) .ethAdmitDrop

/-- The Ethernet frame of an ENCAP payload, given without FCS. -/
def ethOf (bs : List Byte) : Eth :=
  let at_ := fun (i n : Nat) => beNat ((bs.drop i).take n)
  let tagged : Bool := at_ 12 2 = 0x8100
  let ip := if tagged then 18 else 14
  let typ := at_ (ip - 2) 2
  { dstMac := BitVec.ofNat 48 (at_ 0 6), srcMac := BitVec.ofNat 48 (at_ 6 6)
    vid := if tagged then BitVec.ofNat 12 (at_ 14 2) else 0
    pcp := if tagged then some (BitVec.ofNat 3 (at_ 14 1 / 32)) else none
    ecn := if typ = 0x0800 then some (BitVec.ofNat 2 (at_ (ip + 1) 1))
           else if typ = 0x86DD then some (BitVec.ofNat 2 (at_ (ip + 1) 1 / 16)) else none
    bytes := bs.length + 4, data := bs }

/-- An ENCAP frame at a gateway egress port: its Ethernet frame leaves there. -/
def Body.decap (s : Body) (fid : Nat) : Body :=
  match s.frame fid with
  | none => s
  | some f =>
    match f.here, f.rest with
    | some (.encap l), some r =>
      if !Rest.crcGood r f.hdr f.ext || r.status.toNat != tGood then s.doneHere fid
      else
        let n := fld (nth r.payload 0 0) 63 50
        let bs := (payloadBytes (r.payload.drop 1)).take n
        let g : BufFrame := { f with eth := some (ethOf bs), here := none }
        (s.setFrame g).takeIn g (inCopy g) l
    | _, _ => s

/-! ### The commands -/

/-- A frame that comes while the data plane restarts is lost, but its cells count as received on the lane (01 Table 1-5, 02 R55). -/
def Body.headerLost (s : Body) (l : Nat) (g : BitVec 12) (h : Hdr) : Body :=
  let p := s.lp l
  let v := h.vl.toNat
  if s.isGateway (physOf l) || (p.state != .up && p.state != .draining) || p.badGroup || g != p.rxNext || h.src == 0xFFFFFFFF
      || h.opc.toNat == opLctrl || h.hcrc != hcrcOf h then s
  else match p.rxSeen with
  | some _ :: seen => s.setLp l { p with rxSeen := seen }
  | _ => s.setLp l { p with received := setNth p.received v ((nth p.received v 0 + frameCells h) % 2 ^ 24) }

def execFrameArrival (p : RxPlace) (h : Hdr) (x : BitVec 128) (s : State) : Ans := onLink s p.port.val fun b =>
  if !b.lportExists p.port.val then b else if b.dataRuns then b.header p.port.val p.group h x
  else if b.planes.dataRestart then b.headerLost p.port.val p.group h else b

def execFrameTailArrival (p : RxPlace) (r : Rest) (s : State) : Ans :=
  onDataPort s p.port.val fun b => b.tail p.port.val p.group r

def execFrameLaunch (l : Fin 2048) (s : State) : Ans := onDataPort s l.val fun b => b.launchOn l.val

def execCutUnderrun (d : DryLaunch) (s : State) : Ans := onDataPort s d.port.val fun b => b.underrun d.port.val d.sent

def execLimiterCreditUpdate (die : Fin 4) (s : State) : Ans := onData s fun b => b.limiterTick die.val

def execLoadPublish (die : Fin 4) (s : State) : Ans := onData s fun b => b.publish die.val

def execAlpOverUdpDatagram (l : Fin 2048) (u : Udp) (s : State) : Ans := onDataPort s l.val fun b => b.datagram l.val u

def execEthernetFrameArrival (l : Fin 2048) (e : Eth) (s : State) : Ans := onDataPort s l.val fun b => b.ethernet l.val e

def execEncap (fid : Nat) (s : State) : Ans := onData s fun b => b.decap fid

end Sys2Proof.Machine
end

