-- ==== Sys2Proof/Machine/Link.lean ====
section
/-! DEFINITION. ALP links: groups, control words, replay, version negotiation, time requests, failure (02 R57-R67; 06 R150-R153;
04 R107; 10 R267). -/
namespace Sys2Proof.Machine

/-! ### Cell pools of a die (03 R73) -/

def alpPorts (s : Body) (die : Nat) : List Nat :=
  ((List.range 128).map fun k => 128 * die + k).filter fun p => p < s.variant.ports && !s.isGateway p

/-- Replay and lane-reserve cells of a die's ALP ports. -/
def Body.poolSizes (s : Body) (die : Nat) : Nat × Nat :=
  let ls := (alpPorts s die).flatMap s.lportsOf
  (ls.foldl (fun a l => a + s.replayGroups l * 20) 0, ls.length * 239)

/-- Compute the pools again for the modes in force: the shared pool takes up the difference. -/
def Body.resizePools (s : Body) (die : Nat) : Body :=
  let pl := s.pool die
  let (r, n) := s.poolSizes die
  s.setPool die { pl with shared := pl.shared + pl.replay + pl.laneReserve - (r + n), replay := r, laneReserve := n }

/-! ### When a port may train (06 R150, R153, R164; 12 R333) -/

def Body.usesLambda (s : Body) (l w : Nat) : Bool :=
  if s.isGateway (physOf l) then true
  else match (s.phys (physOf l)).split with
    | 1 => w / 2 == l % 4
    | 2 => w == l % 4
    | _ => true

/-- The laser of a wavelength of a port's group is lit. -/
def Body.lit (s : Body) (p w : Nat) : Bool :=
  let c := s.cart (p / 32)
  c.state == .atPower && mgetD c.lasers (4 * w + p / 8 % 4) .ok != .lost

/-- Every wavelength the logical port uses has light to send. -/
def Body.hasSource (s : Body) (l : Nat) : Bool := (List.range 4).all fun w => !s.usesLambda l w || s.lit (physOf l) w

/-- The port's engine was not found at bring-up: its ports stay DISABLED (15 R392). -/
def Body.noEngine (s : Body) (l : Nat) : Bool := s.lantern.oeMissing.getLsbD (physOf l / 64)

def Body.mayTrain (s : Body) (l : Nat) : Bool :=
  !s.power.draining && s.lportExists l && !s.noEngine l && (s.lpe l).enable && !(s.lpe l).drain && s.through (physOf l) && !s.portage.inconsistent.getLsbD (physOf l / 8)
    && (mget s.portage.trans (physOf l / 8)).all (fun t => !t.changing.contains (physOf l)) && s.hasSource l

/-- A port with nothing against it goes to TRAINING, otherwise to what keeps it dark; one of an inconsistent group stays DISABLED
(06 R164). -/
def Body.retrain (s : Body) (l : Nat) : Body :=
  s.modLp l fun x => { x with
    lock := false
    state := if s.portage.inconsistent.getLsbD (physOf l / 8) then .disabled
      else if !s.through (physOf l) then .circuit else if s.mayTrain l then .training
      else if s.lportExists l && !s.noEngine l && (s.lpe l).enable && !s.hasSource l then .noLightSource else .disabled }

/-! ### Version negotiation (02 R64, R65) -/

/-- An LCTRL frame leaves: a header, its words and a tail, which travel in groups as every frame does (02 Table 2-15). -/
def Body.lctrl (s : Body) (l : Nat) (ws : List Nat) : Body :=
  (s.putOut (.lctrl l s.own (ws.map (BitVec.ofNat 64)))).modLp l fun x =>
    { x with tx := x.tx ++ [{ copy := none, bytes := 24 + 8 * ws.length }] }

/-- Send VERSION, to apply at least 64 groups ahead. -/
def Body.sendVersion (s : Body) (l : Nat) : Body :=
  let a := ((s.lp l).gseq + 64).toNat
  s.lctrl l [put 1 56 + put 3 52 + put s.hiMinor 48 + put s.loMinor 44 + put a 32, 0]

/-- After a firmware activation every link is negotiated again, without leaving UP (02 R65). -/
def Body.renegotiate (s : Body) : Body :=
  (s.lports.filter fun x => x.2.state == .up && !s.isGateway (physOf x.1)).foldl (fun s x => s.sendVersion x.1) s

/-- The link carries LCTRL. -/
def LPort.talks (x : LPort) : Bool := x.state == .version || x.state == .versionMismatch || x.state == .up

/-- PCS lock: negotiation begins, or a gateway port is UP. -/
def Body.pcsLock (s : Body) (l : Nat) : Body :=
  let x := s.lp l
  if x.state != .training || x.lock then s
  else if s.isGateway (physOf l) then s.setLp l { x with lock := true, light := true, state := .up }
  else
    (s.setLp l { x with lock := true, light := true, state := .version, report := .none, chosen := none, gseq := 0, replay := []
                        tx := [], rxNext := 0, ackSeq := 0xFFF, retry := none, badGroup := false, replaying := false
                        rxHere := [], rxTails := [], rxSeen := [], launch := none, launchCopy := none, launchHop := none
                        reqTimes := [], peerDraining := false, rot := 0 }).sendVersion l

/-- A link message is not taken: the link does not carry it, its SRC is that of idle words, or is a group address, which is
counted (02 R29, R35). -/
def Body.lctrlBars (s : Body) (l : Nat) (src : W32) : Option Body :=
  if !(s.lp l).talks || s.isGateway (physOf l) || src == 0xFFFFFFFF then some s
  else if bit src 31 then some (s.bump .hdrBadSrc l)
  else none

/-- A VERSION frame (02 R64). One whose major is not 3 leaves no common minor (DESIGN CHOICE, entry 104). -/
def Body.versionIn (s : Body) (l : Nat) (src : W32) (w0 : W64) : Body :=
  let x := s.lp l
  match s.lctrlBars l src with
  | some s => s
  | none =>
    let hi := min (fld w0 51 48) s.hiMinor
    let bad := fld w0 55 52 != 3 || hi < fld w0 47 44 || hi < s.loMinor
    let x := { x with peerId := src }
    if src = s.own then s.setLp l (if x.state = .up then x else { x with report := .linkIdClash })
    else if bad then s.setLp l (if x.state = .up then x else { x with state := .versionMismatch, report := .versionMismatch })
    else
      let x := { x with report := .none, state := if x.state = .up then .up else .version }
      if s.own.toNat < src.toNat then
        (s.setLp l { x with chosen := some hi, applyGseq := BitVec.ofNat 12 (fld w0 43 32) }).lctrl l
          [put 2 56 + put hi 48 + put (fld w0 43 32) 32, 0]
      else s.setLp l x

/-- A VERSION_ACK frame. -/
def Body.versionAckIn (s : Body) (l : Nat) (src : W32) (w0 : W64) : Body :=
  let x := s.lp l
  let m := fld w0 51 48
  match s.lctrlBars l src with
  | some s => s
  | none => if m > s.hiMinor || m < s.loMinor then s else s.setLp l { x with chosen := some m, applyGseq := BitVec.ofNat 12 (fld w0 43 32) }

/-! ### Express links (10 R267) -/

/-- The spine module at the far end, when it is not the one the port map names. -/
def Body.expressPeer (s : Body) (l : Nat) : Option Nat :=
  let x := s.lp l
  let named := fld (mgetD s.profiles.inForce.portMap (physOf l) 0) 63 32
  if s.isSpine x.peerId && x.peerId.toNat != named && adIndex x.peerId != s.moduleIndex then some (adIndex x.peerId) else none

/-- The port reached UP: an express link is disabled until both tables have been changed. -/
def Body.expressUp (s : Body) (l : Nat) : Body :=
  match s.expressPeer l with
  | none => s
  | some q =>
    let s := (s.modLp l fun x => { x with express := some q }).setLpe l fun e => { e with enable := false }
    ((s.clpChange 1 (.expressOn l q)).clpChange 3 (.expressOn l q)).expressEnable

/-- The express link left UP. -/
def Body.expressDown (s : Body) (l : Nat) : Body :=
  if (s.lp l).express.isNone then s
  else
    let s := (s.modLp l fun x => { x with express := none }).setLpe l fun e => { e with enable := true }
    (s.clpChange 1 (.expressOff l)).clpChange 3 (.expressOff l)

/-! ### Reaching and leaving UP -/

/-- Take a port out of Bivouac hold (09 R252). -/
def Body.leaveHold (s : Body) (l : Nat) : Body :=
  match (s.lp l).hold with
  | none => s
  | some h =>
    let s := (s.modLp l fun x => { x with hold := none, allotLeft := x.allotLeft + h.allot }).setLpe l fun e => { e with hold := false }
    if (s.lp l).state = .up ∨ (s.lp l).drain = some .hold then s.returnAllot l
    else ((s.reenterQueued l).returnAllot l).emit 0x20A [l]

/-- A pod has a live member in its path set. -/
def Body.podLive (s : Body) (a : W32) : Bool := (pePorts (s.podEntry (adPlane a) (adPod a))).any s.live

/-- Ranks suspected for want of a path are cleared when their pod has a live candidate again (12 R319). -/
def Body.pathsBack (s : Body) : Body :=
  s.coll.groups.foldl (fun s x =>
    (x.2.members.zipIdx).foldl (fun s m =>
      if m.1.noPath && s.podLive m.1.ep then
        ({ s with coll := { s.coll with groups := s.coll.groups.map fun y =>
            if y.1 = x.1 then (y.1, { y.2 with members := setNth y.2.members m.2 { m.1 with suspect := false, noPath := false } }) else y } } : Body).emit
          0x303 [put 1 50 + put m.2 32 + x.2.addr.toNat]
      else s) s) s

/-- The chosen minor takes effect: an UP link changes its minor, another comes UP with all counts zero (02 R55, R64, R65). -/
def Body.linkUp (s : Body) (l : Nat) : Body :=
  let x := s.lp l
  match x.chosen with
  | none => s
  | some m =>
    let zero := [0, 0, 0, 0, 0, 0, 0, 0]
    if x.state = .up then s.setLp l { x with minor := m, chosen := none }
    else if x.state != .version then s
    else
      let s := s.setLp l { x with state := .up, minor := m, chosen := none, limitOut := zero, received := zero, limitIn := zero
                                  sent := zero }
      let s := ((s.grantPort l).expressUp l).pathsBack
      if x.hold.any (fun h => h.leftUp) then s.leaveHold l else s

/-- What every way out of UP does: credit back, CLP's express changes undone, its clock candidate gone. -/
def Body.leaveUp (s : Body) (l : Nat) : Body :=
  let s := (s.returnCredit l).expressDown l
  { s with clock := { s.clock with cands := mdel s.clock.cands l } }

/-- A port leaves UP or DRAINING badly: its frames are sprayed again (04 R107-R109). -/
def Body.sprayAgain (s : Body) (l : Nat) : Body := ((s.reenterQueued l).reenterReplay l).cutIngress l

/-- Frames of unacknowledged groups go to the head of a held port's queues, then to the reserve, now that its drain has ended
(05 R144; 09 R249). -/
def Body.replayToQueue (s : Body) (l : Nat) : Body :=
  let old := sortBy (fun (a b : QEntry) => a.seq < b.seq) (s.tms.queue.filter fun e => e.lport == l)
  let (cs, s) := s.takeReplay l
  let s := { s with tms := { s.tms with queue := s.tms.queue.filter fun e => e.lport != l } }
  let s := cs.foldl (fun s c => match s.frame c.fid with
    | none => s
    | some f =>
      let k := s.classOn l f
      let (k0, p0) := s.streamOf f
      let (key, prof, s) := s.takeStream l k k0 p0
      s.pushEntry f c l k key prof) s
  let s := old.foldl (fun (s : Body) e =>
    { s with tms := { s.tms with queue := s.tms.queue ++ [{ e with seq := s.tms.nextSeq }], nextSeq := s.tms.nextSeq + 1 } }) s
  (s.modLp l fun x => { x with hold := x.hold.map fun h => { h with entering := false } }).toReserve l

/-- The port enters FAILED, or another dark state given (02 R62; 04 R107). A held port keeps its frames, and takes part again
when it has come UP (09 R250, R252). -/
def Body.failTo (s : Body) (l : Nat) (st : PState) : Body :=
  let x := s.lp l
  if x.state = .up ∨ x.state = .draining then
    let s := (s.setLp l { x with state := st, lock := false, retry := none, badGroup := false, rxHere := [], rxTails := []
                                 rxSeen := [] }).leaveUp l
    if x.hold.isSome then
      ((s.modLp l fun y => { y with hold := y.hold.map fun h => { h with leftUp := true } }).replayToQueue l).cutIngress l
    else s.sprayAgain l
  else s.setLp l { x with state := st, lock := false }

/-! ### Drains (06 R151) -/

/-- Start a drain of a port in UP; a held port keeps its queue, which follows the unacknowledged frames into the reserve
(09 R249). -/
def Body.startDrain (s : Body) (l : Nat) (c : DrainCause) : Body :=
  let x := s.lp l
  if x.state != .up then s
  else
    let s := s.setLp l { x with state := .draining, drain := some c }
    if x.hold.isSome then s else s.reenterQueued l

/-- Nothing of the drain is left to wait for; a gateway port waits only for its frame in launch. -/
def Body.drained (s : Body) (l : Nat) : Bool :=
  let x := s.lp l
  x.launch.isNone && (s.isGateway (physOf l) || (x.tx.isEmpty && x.replay.isEmpty))

/-! ### Groups (02 R57-R61) -/

def lstateOf (s : PState) : Nat :=
  match s with | .version | .versionMismatch => 1 | .up => 2 | .draining => 3 | _ => 0

/-- A control word with its CC8 (02 Table 2-13). -/
def controlWord (x : LPort) (gseq : BitVec 12) : BitVec 144 :=
  let a := if x.minor = 0 then x.rot % 8 else 2 * (x.rot % 4)
  let b := if x.minor = 0 then 0 else a + 1
  let v : Nat := put gseq.toNat 132 + put x.ackSeq.toNat 120 + (match x.retry with | some g => put 1 119 + put g.toNat 107 | none => 0)
    + put a 104 + put (nth x.limitOut a 0) 80 + (if x.minor = 0 then 0 else put b 77 + put (nth x.limitOut b 0) 53)
    + put (lstateOf x.state) 49
  BitVec.ofNat 144 (v + crc8 (beBytes 17 (v / 256)))

/-- The control slice of codeword j: START, set in codeword 0 alone, and nine bits of the control word (02 R57). -/
def controlSlice (cw : BitVec 144) (j : Nat) : BitVec 10 :=
  BitVec.ofNat 10 (put (if j = 0 then 1 else 0) 9 + fld cw (143 - 9 * j) (135 - 9 * j))

/-- The control slices of a group's 16 codewords. -/
def controlSlices (cw : BitVec 144) : List (BitVec 10) := (List.range 16).map (controlSlice cw)

/-- What fills a group: launched frames that stay, frames that start and that end in it, bytes of LCTRL frames, bytes left. -/
structure Filled where
  tx : List TxFrame := []
  heads : List Copy := []
  tails : List Nat := []
  lctrl : Nat := 0
  left : Nat := 0

/-- Put launched bytes into what room a group has. A frame whose tail has not come keeps its last 8 bytes back. -/
def fillGroup (open_ : Option Nat) : Nat → List TxFrame → Filled
  | room, [] => { left := room }
  | room, t :: ts =>
    let cut := match t.copy, open_ with | some c, some f => if c.fid = f then 8 else 0 | _, _ => 0
    let n := min room (t.bytes - cut - t.sent)
    let heads := match t.copy with | some c => if t.sent = 0 && n > 0 then [c] else [] | none => []
    let ends := match t.copy with | some c => [c.fid] | none => []
    let lctrl := if t.copy.isNone then n else 0
    if t.sent + n < t.bytes then { tx := { t with sent := t.sent + n } :: ts, heads, lctrl, left := room - n }
    else
      let y := fillGroup open_ (room - n) ts
      { y with heads := heads ++ y.heads, tails := ends ++ y.tails, lctrl := lctrl + y.lctrl }

/-- Bytes of a frame have not come: no idle word goes inside a frame, so the group waits for them (02 R35, R54; entry 105). -/
def Filled.waits (y : Filled) : Bool := y.left != 0 && !y.tx.isEmpty

/-- Send one group, filled up with idle words between frames, or idle codewords while the replay buffer is full (02 R35, R59). -/
def Body.transmit (s : Body) (l : Nat) : Body :=
  let s := s.grantPort l
  let x := s.lp l
  let y := { x with rot := (x.rot + 1) % 8, replaying := false }
  if s.isGateway (physOf l) || !(x.talks || x.state == .draining) || !x.lock then s
  else if x.replay.length ≥ s.replayGroups l then
    (s.setLp l y).putOut (.group l (controlSlices (controlWord x (x.gseq - 1))) [] [] 0 640 true)
  else
    let f := fillGroup x.launch 5120 x.tx
    if f.waits then s
    else
      let g : TxGroup := { gseq := x.gseq, heads := f.heads, tails := f.tails, lctrl := f.lctrl / 8, idle := f.left / 8 }
      ((s.setLp l { y with gseq := x.gseq + 1, tx := f.tx, replay := x.replay ++ [g] }).putOut
        (.group l (controlSlices (controlWord x x.gseq)) (f.heads.map (·.fid)) f.tails g.lctrl g.idle false)).applyLower

/-- Groups that an ACKSEQ covers leave the replay buffer (02 R59). -/
def acked (ack : BitVec 12) (g : TxGroup) : Bool := (ack - g.gseq).toNat < 2048

def Body.takeAck (s : Body) (l : Nat) (ack : BitVec 12) : Body :=
  let x := s.lp l
  let gone := x.replay.filter (acked ack)
  let s := s.setLp l { x with replay := x.replay.filter fun g => !acked ack g }
  let fids := gone.flatMap fun g => g.heads.map (·.fid) ++ g.tails
  fids.foldl (fun s f => s.collect f) s

/-- A group goes out again: idle words in place of its LCTRL frames, the next lanes of the rotation in its control word. -/
def Body.resend (s : Body) (l : Nat) (r : TxGroup) : Body :=
  let x := s.lp l
  (s.setLp l { x with rot := (x.rot + 1) % 8 }).putOut
    (.group l (controlSlices (controlWord x r.gseq)) (r.heads.map (·.fid)) r.tails 0 (r.idle + r.lctrl) false)

/-- Serve a replay request; true when it fails the link (02 R61, R62). -/
def Body.takeRetry (s : Body) (l : Nat) (g : BitVec 12) : Body × Bool :=
  let x := s.lp l
  if x.replaying && x.reqSeq == g then (s, false)
  else
    let now := s.clock.ns.toNat
    let past := if x.reqSeq = g then x.reqTimes.filter (fun t => now ≤ t + 100000) else []
    if !x.replay.any (fun r => r.gseq == g) || past.length ≥ 3 then (s, x.state == .up || x.state == .draining)
    else
      let again := x.replay.dropWhile fun r => r.gseq != g
      let s := s.setLp l { x with reqSeq := g, reqTimes := past ++ [now], replaying := true }
      (again.foldl (fun s r => s.resend l r) s, false)

/-- The receiver's side of a group: the next one expected is good; one that skips ahead is asked for again (02 R60). -/
def rxGroup_ (x : LPort) (g : BitVec 12) : LPort :=
  if g = x.rxNext then
    if x.badGroup then { x with badGroup := false }
    else { x with rxNext := g + 1, ackSeq := g, retry := if x.retry = some g then none else x.retry, rxHere := [], rxTails := []
                  rxSeen := [] }
  else if (g - x.rxNext).toNat < 2048 then { x with retry := some (x.retry.getD x.rxNext) }
  else x

/-- Credit limits that a control word reports (02 R58, Table 2-16). -/
def takeCredit (x : LPort) (cw : BitVec 144) : LPort :=
  let l := setNth x.limitIn (fld cw 106 104) (fld cw 103 80)
  { x with limitIn := if x.minor = 0 then l else setNth l (fld cw 79 77) (fld cw 76 53) }

/-- A control word; one whose CC8 fails is not used (02 R57). Idle codewords carry the GSEQ of a group they are not
(02 R59; DEDUCED, entry 106). R62 takes no action on a held port (09 R250). -/
def Body.control (s : Body) (l : Nat) (cw : BitVec 144) (idle : Bool) : Body :=
  let x := s.lp l
  if s.isGateway (physOf l) || !x.lock || !(x.talks || x.state == .draining)
      || crc8 (beBytes 17 (fld cw 143 8)) != fld cw 7 0 then s
  else
    let x := if idle then x else rxGroup_ x (BitVec.ofNat 12 (fld cw 143 132))
    let x := if x.state = .up ∨ x.state = .draining then takeCredit x cw else x
    let x := { x with peerDraining := fld cw 52 49 == 3 }
    let s := (s.setLp l x).takeAck l (BitVec.ofNat 12 (fld cw 131 120))
    if !bit cw 119 then s.modLp l fun y => { y with replaying := false }
    else
      let (s, fail) := s.takeRetry l (BitVec.ofNat 12 (fld cw 118 107))
      if fail && (s.lp l).hold.isNone then s.failTo l .failed else s

/-- A codeword of the group expected cannot be decoded: the group is discarded, and this ends its arrival (02 R60; entry 99). -/
def Body.badCodeword (s : Body) (l : Nat) (g : BitVec 12) : Body :=
  let x := s.lp l
  if s.isGateway (physOf l) || !x.lock || g != x.rxNext then s
  else (s.setLp l { x with retry := some (x.retry.getD g), badGroup := false }).discardGroup l

/-! ### Time requests (02 R66) -/

def fracOf (x : LPort) (f : W16) : Nat := if x.minor = 2 then f.toNat else 0

def Body.timeReqOut (s : Body) (l : Nat) : Body :=
  let x := s.lp l
  if s.isGateway (physOf l) || x.state != .up then s
  else
    let id := x.timeId + 1
    (s.setLp l { x with timeId := id, timeOut := some (id, s.clock.ns, s.clock.frac) }).lctrl l
      [put 3 56 + put id.toNat 48, s.clock.ns.toNat, put (fracOf x s.clock.frac) 48]

def Body.timeReqIn (s : Body) (l : Nat) (w0 t1 : W64) (f1 : W16) (t2 : W64) (f2 : W16) : Body :=
  let x := s.lp l
  if s.isGateway (physOf l) || !x.talks then s
  else s.lctrl l [put 4 56 + put (fld w0 55 48) 48, t1.toNat, t2.toNat, s.clock.ns.toNat,
    put (fracOf x f1) 48 + put (fracOf x f2) 32 + put (fracOf x s.clock.frac) 16 + put s.clock.dist.toNat 8
      + put (clkCode s.clock.state) 4]

/-- Light arrives (06 R153, Table 6-4). -/
def Body.lightIn (s : Body) (l : Nat) : Body :=
  let x := s.lp l
  let s := s.setLp l { x with light := true }
  if (x.state = .failed ∨ x.state = .disabled) ∧ s.mayTrain l then s.retrain l else s

/-! ### The commands of this file -/

def execPcsLock (l : Fin 2048) (s : State) : Ans := onLink s l.val fun b => b.pcsLock l.val

def execLightArrival (l : Fin 2048) (s : State) : Ans := onLink s l.val fun b => b.lightIn l.val

def execVersion (l : Fin 2048) (src : W32) (w0 : W64) (s : State) : Ans := onLink s l.val fun b => b.versionIn l.val src w0

def execVersionAck (l : Fin 2048) (src : W32) (w0 : W64) (s : State) : Ans :=
  onLink s l.val fun b => b.versionAckIn l.val src w0

def execLinkUp (l : Fin 2048) (s : State) : Ans := onLink s l.val fun b => b.linkUp l.val

def execGroupTransmit (l : Fin 2048) (s : State) : Ans := onLink s l.val fun b => b.transmit l.val

def execCodewordDecodeFailure (l : Fin 2048) (g : BitVec 12) (s : State) : Ans :=
  onLink s l.val fun b => b.badCodeword l.val g

def execTimeReqSend (l : Fin 2048) (s : State) : Ans := onLink s l.val fun b => b.timeReqOut l.val

def execTimeReq (l : Fin 2048) (w0 t1 : W64) (f1 : W16) (t2 : W64) (f2 : W16) (s : State) : Ans :=
  onLink s l.val fun b => b.timeReqIn l.val w0 t1 f1 t2 f2

end Sys2Proof.Machine
end

