-- ==== Sys2Proof/Machine/Mgmt.lean ====
section
/-! DEFINITION. In-band management frames: their making and the check of R356 (13 R356, Table 13-8). -/
namespace Sys2Proof.Machine

/-- The 128-bit MAC of a management frame. -/
def mgmtMac (key : List Byte) (h : Hdr) (w0 w1 : W64) : List Byte :=
  let hb := hdrBytes h
  (digestBytes (hmac384 key (hb.take 8 ++ (hb.drop 12).take 2 ++ beBytes 8 w0.toNat ++ beBytes 8 w1.toNat))).take 16

/-- The plane key that signs: slot 0, or slot 1 when slot 0 is empty (DESIGN CHOICE, entry 37). -/
def Body.planeKey (s : Body) : Option (List Byte) := if s.sec.plane0.isSome then s.sec.plane0 else s.sec.plane1

/-- Send a management message to a spine module. -/
def Body.sendMgmtTo (s : Body) (plane idx w0 : Nat) : Body :=
  match s.planeKey with
  | none => s
  | some k =>
    let h := ownHdr s.own (infraAddr plane idx 1) opMgmt 7 4 0 false false
    let a := BitVec.ofNat 64 w0
    let b := BitVec.ofNat 64 (put (clkCode s.clock.state) 62 + s.clock.ns.toNat % 2 ^ 62)
    let m := mgmtMac k h a b
    s.send 0 h 0 (mkRest h 0 ([a, b] ++ wordsOf m) 0 0 tGood)

/-- Send a management message to a spine module of the home plane. -/
def Body.sendMgmt (s : Body) (idx w0 : Nat) : Body := s.sendMgmtTo s.homePlane idx w0

/-- Tell the modules of a group's MODULE entries the minors spoken here (13 R354). -/
def Body.sendFeatures (s : Body) (g : Group) : Body :=
  (g.repl.filter fun r => r.kind == 2 && fld r.target 9 0 != s.moduleIndex).foldl (fun s r =>
    s.sendMgmt (fld r.target 9 0) (put 0x30 56 + put s.hiMinor 52 + put s.loMinor 48 + put (s.activeSlot 0).release.toNat 32)) s

/-- The MAC verifies under a plane key. -/
def Body.macGood (s : Body) (h : Hdr) (ws : List W64) : Bool :=
  let m := payloadBytes ((ws.drop 2).take 2)
  [s.sec.plane0, s.sec.plane1].any fun k => k.any fun k => mgmtMac k h (nth ws 0 0) (nth ws 1 0) == m

/-- A management frame in the buffer: accepted, and whether without the time check. -/
def Body.mgmtOk (s : Body) (f : BufFrame) (r : Rest) : Bool × Bool :=
  let w1 := nth r.payload 1 0
  let free := fld w1 63 62 == 0 || s.clock.state == .free
  let t := fld w1 61 0
  let now := s.clock.ns.toNat
  let near := now ≤ t + 1000000 && t ≤ now + 1000000
  let alp := match f.origin with | .alp .. => true | _ => false
  let ok := f.hdr.len == 4 && Rest.crcGood r f.hdr f.ext && r.status.toNat == tGood && s.isSpine f.hdr.src && alp
    && s.macGood f.hdr r.payload && (free || near)
  (ok, free)

/-- A management frame of one of the given subtypes: run its effect, or count it as rejected; then it leaves the buffer. One
accepted is acknowledged when it asks (02 R52). A frame
of another subtype is left to its own command. -/
def Body.mgmtIn (s : Body) (fid sub : Nat) (act : Body → Nat → W64 → Body) : Body :=
  match s.frame fid with
  | none => s
  | some f =>
    match f.here, f.rest with
    | some .mgmt, some r =>
      let w0 := nth r.payload 0 0
      let t := fld w0 63 56
      let known := t == 0x30 || (0x40 ≤ t && t ≤ 0x44) || (0x50 ≤ t && t ≤ 0x52)
      if known && t != sub then s
      else
        let (ok, free) := s.mgmtOk f r
        if !ok || !known then (s.bump .mgmtReject 0).doneHere fid
        else
          let s := if free then s.bump .mgmtUntimed 0 else s
          ((act s (adIndex f.hdr.src) w0).doneHere fid).ackFrame f.die f.hdr
    | _, _ => s

end Sys2Proof.Machine
end

