-- ==== Sys2Proof/Machine/Optics.lean ====
section
/-! DEFINITION. Drains, Bivouac hold, the Portage matrix, lasers and cartridges (06 R149-R166; 05 R141-R144; 09 R249-R252). -/
namespace Sys2Proof.Machine

/-! ### Portage cells (06 R157, R162) -/

/-- Index of a cell of a group: receive side (i, j), transmit side (j, i). -/
def cellIdx (tx : Bool) (row col : Nat) : Nat := (if tx then 64 else 0) + 8 * row + col

/-- Cells that are on under a map: crossing i → j takes receive (i, j) and transmit (j, i). -/
def cellsOfMap (m : W32) : BitVec 128 :=
  BitVec.ofNat 128 ((List.range 8).foldl (fun a q =>
    a ||| put 1 (cellIdx false q (partnerOf m q)) ||| put 1 (cellIdx true (partnerOf m q) q)) 0)

abbrev allThrough : W32 := 0x76543210

def Body.cellsOf (s : Body) (g : Nat) : BitVec 128 := mgetD s.portage.cells g (cellsOfMap allThrough)

/-- A map that R157 accepts. -/
def mapValid (m : W32) : Bool := (List.range 8).all fun q => partnerOf m (partnerOf m q) == q

/-- The map that a group's cells form, if they form one (06 R164). -/
def mapOfCells (c : BitVec 128) : Option W32 :=
  let m := BitVec.ofNat 32 ((List.range 8).foldl (fun a q =>
    a + put (((List.range 8).find? fun j => c.getLsbD (cellIdx false q j)).getD q) (4 * q)) 0)
  if mapValid m && cellsOfMap m == c then some m else none

def allCells : List (Bool × Nat × Nat) :=
  [false, true].flatMap fun t => (List.range 8).flatMap fun r => (List.range 8).map fun c => (t, r, c)

/-- Writes that take the cells to a target: off before on; `all` writes every cell (06 R160, R164). -/
def cellWrites (cur target : BitVec 128) (all : Bool) : List CellWrite :=
  let ws := allCells.filterMap fun x =>
    let i := cellIdx x.1 x.2.1 x.2.2
    if all || cur.getLsbD i != target.getLsbD i then some { tx := x.1, row := x.2.1, col := x.2.2, on := target.getLsbD i : CellWrite }
    else none
  ws.filter (fun w => !w.on) ++ ws.filter fun w => w.on

def wearKey (g : Nat) (w : CellWrite) : Nat := 128 * g + cellIdx w.tx w.row w.col

def Body.wear (s : Body) (g : Nat) (w : CellWrite) : Nat := mgetD s.portage.wear (wearKey g w) 0

/-- Position of a cell in an event. -/
def cellWord (g : Nat) (w : CellWrite) : Nat := put w.col 12 + put w.row 8 + put (if w.tx then 1 else 0) 6 + g

/-- OCB raises the wear counter before a write (06 R162). -/
def Body.raiseWear (s : Body) (g : Nat) (w : CellWrite) : Body :=
  let n := min 0xFFFFFFFF (s.wear g w + 1)
  let s := { s with portage := { s.portage with wear := mset s.portage.wear (wearKey g w) n } }
  if n = 900000000 then s.emit 0x208 [cellWord g w, n] else s

def Body.setCell (s : Body) (g : Nat) (w : CellWrite) : Body :=
  let c := s.cellsOf g
  let i := cellIdx w.tx w.row w.col
  let b : BitVec 128 := 1 <<< i
  { s with portage := { s.portage with cells := mset s.portage.cells g (if w.on then c ||| b else c &&& ~~~ b) } }

/-! ### Drains and darkness through the port table (01 R21) -/

def undrain (m : Map LpEntry) (l : Nat) : Map LpEntry := match mget m l with | some e => mset m l { e with drain := false } | none => m

/-- Clear DRAIN of the ports, with one flip. -/
def Body.clearDrain (s : Body) (ls : List Nat) : Body := s.portFlip fun b => { b with lp := ls.foldl undrain b.lp }

/-- Drain a port, writing DRAIN to the port table. -/
def Body.drainPort (s : Body) (l : Nat) (c : DrainCause) : Body :=
  if (s.lp l).state = .up then (s.setLpe l fun e => { e with drain := true }).startDrain l c else s

/-- Drain a port in UP; any other port that is not a circuit goes dark at the flip that sets its DRAIN. -/
def Body.drainOrDark (s : Body) (l : Nat) (c : DrainCause) : Body :=
  match (s.lp l).state with
  | .up => s.drainPort l c
  | .draining => s
  | .circuit => s
  | _ => (s.setLpe l fun e => { e with drain := true }).modLp l fun x => { x with state := .disabled, lock := false }

/-! ### Transitions (06 R158-R161) -/

def Body.setTrans (s : Body) (g : Nat) (t : Transition) : Body := { s with portage := { s.portage with trans := mset s.portage.trans g t } }

/-- The requester hears that one group has ended, with a status. -/
def Body.reportGroup (s : Body) (g : Nat) (src : OcbSource) (status : Nat) : Body :=
  match src with
  | .host r =>
    let upd := s.portage.open_.map fun x =>
      if x.1 = r then (x.1, x.2.1.filter (· != g), x.2.2 || status != 0) else x
    let ended := upd.find? fun x => x.1 == r && x.2.1.isEmpty
    let s := { s with portage := { s.portage with open_ := upd.filter fun x => !(x.1 == r && x.2.1.isEmpty) } }
    (match ended with | some x => s.completeRef r (if x.2.2 then 5 else 0) 0 0 | none => s)
  | .peer a q tg p1 p2 =>
    (s.auditModule 4 3 g status).sendMgmt a (put 0x51 56 + put a 46 + put q 36 + put tg 30 + put p1 27 + put p2 24
      + put (if status = 0 then 0 else 4) 16 + put status 8)
  | .clp => s.auditModule 4 3 g status
  | .fallback => s

/-- Ports of the transition take their new state. -/
def Body.landPorts (s : Body) (ps : List Nat) : Body :=
  ps.foldl (fun s p =>
    let s := (s.setPhys p fun e => { e with blank := !s.through p }).clearDrain (s.lportsOf p)
    (s.lportsOf p).foldl (fun s l => s.retrain l) s) s

/-- The end of a transition: the map, GEN, BYPASS_DONE (06 R160 step 4), or what R161 leaves. -/
def Body.endTrans (s : Body) (g : Nat) (t : Transition) (ok : Bool) : Body :=
  let p := s.portage
  let e := s.bypass g
  let s := if ok then
      let n : BypassEntry := { partner := t.target, gen := e.gen + 1 }
      { s with portage := { p with mapA := mset p.mapA g n, mapB := mset p.mapB g n, active := !p.active
                                   inconsistent := p.inconsistent &&& ~~~ ((1 : W64) <<< g), trans := mdel p.trans g } }
    else { s with portage := { p with trans := mdel p.trans g } }
  let s := if ok then (s.emit 0x205 [put (e.gen + 1).toNat 32 + g]).lanternPut fun l =>
      { l with portageInconsistent := l.portageInconsistent &&& ~~~ ((1 : W64) <<< g) } else s
  (s.landPorts t.changing).reportGroup g t.src (if ok then 0 else 5)

/-- Start the write at the head of the list, or end. -/
def Body.nextWrite (s : Body) (g : Nat) (t : Transition) : Body :=
  match t.todo with
  | w :: _ => (s.setTrans g t).raiseWear g w
  | [] => s.endTrans g t (!t.back)

/-- Every drain has ended: blank, then write the cells (06 R160). -/
def Body.beginWrites (s : Body) (g : Nat) (t : Transition) : Body :=
  let s := t.changing.foldl (fun s p => s.setPhys p fun e => { e with blank := true }) s
  let s := t.changing.foldl (fun s p => (s.lportsOf p).foldl (fun s l => s.modLp l fun x => { x with state := .disabled }) s) s
  s.nextWrite g { t with todo := cellWrites (s.cellsOf g) (cellsOfMap t.target) (s.portage.inconsistent.getLsbD g) }

/-- A laser's planned switch to its spare has ended: all its ports have drained (06 R155). -/
def Body.laserSettle (s : Body) (g : Nat) : Body :=
  let c := g / 4
  let k := g % 4
  let ls := ((List.range 8).map fun q => 8 * g + q).flatMap s.lportsOf
  (List.range 4).foldl (fun s w =>
    let x := s.cart c
    let busy := ls.any fun l => s.usesLambda l w && (s.lp l).drain == some .laser
    if mgetD x.lasers (4 * w + k) .ok = .degraded ∧ mget x.spare w = some k ∧ !busy then
      let s := (s.setCart c { x with lasers := mset x.lasers (4 * w + k) .spared }).emit 0x201 [put k 6 + put w 4 + c]
      ls.foldl (fun s l =>
        if s.usesLambda l w ∧ (s.lp l).state = .disabled ∧ (s.lp l).drain = none then s.retrain l else s) s
    else s) s

/-! ### PORT commands that wait -/

def modePort (d : Desc) : Nat := d.f 2 8 0
def modeGroup (d : Desc) : Bool := d.f 2 9 9 == 1
def modePorts (d : Desc) : List Nat :=
  if modeGroup d then (List.range 8).map fun q => modePort d / 8 * 8 + q else [modePort d]

/-- Logical ports of a PORT HOLD or RELEASE list (11 Table 11-6). -/
def portList (b : List Byte) : List Nat := (u16s b).map fun v => v % 2048

def anyDraining (s : Body) (ls : List Nat) : Bool := ls.any fun l => (s.lp l).drain.isSome

/-- Profiles of a port's class queues that hold DROP, in both banks: they act as MARK from a change to ALP on (03 R427). -/
def Body.dropProfiles (s : Body) (p : Nat) : List Nat :=
  let t := s.tables.cong
  let born := fld (mgetD s.profiles.inForce.portMap p 0x40000) 23 21 != 0
  (List.range 32).flatMap fun k =>
    let i := 32 * p + k
    let drops := fun (m : Map (BitVec 256)) => (List.range 3).any fun c => (congOf (mgetD m i (congDefault born)) c).drop
    (if drops t.a then [2 * i] else []) ++ (if drops t.b then [2 * i + 1] else [])

/-- Every port ended its drain: set the new mode and let the ports train (06 R149). -/
def Body.setMode (s : Body) (d : Desc) : Body :=
  let ps := modePorts d
  let kind := d.f 2 14 12
  let marks := if modeGroup d && kind == 0 then (ps.filter s.isGateway).flatMap s.dropProfiles else []
  let s := { s with tables := { s.tables with congMark := dedupNat (s.tables.congMark ++ marks) } }
  let s := s.clearDrain (ps.flatMap s.lportsOf)
  let s := ps.foldl (fun s p => s.setPhys p fun e =>
    if modeGroup d then { e with gkind := kind, split := if kind = 0 then e.split else 0 } else { e with split := d.f 2 11 10 }) s
  let s := s.resizePools (dieOfPort (modePort d))
  let s := ps.foldl (fun s p => s.prune p) s
  ps.foldl (fun s p => (List.range 4).foldl (fun s k => s.retrain (4 * p + k)) s) s

/-- A PORT MODE command that still runs affects this port. -/
def Body.modeRuns (s : Body) (p : Nat) : Bool :=
  s.portage.portCmds.any fun r => match s.desc r with
    | some e => e.op == 1 && (modePorts e).contains p
    | none => false

/-- Whether a waiting PORT command's ports have ended their drains, and its effect then. -/
def Body.portDone (s : Body) (d : Desc) : Option Body :=
  match d.op with
  | 1 => if anyDraining s ((modePorts d).flatMap s.lportsOf) then none else some (s.setMode d)
  | 2 =>
    let l := d.f 2 10 0
    if (s.lp l).drain.isSome then none
    else some ((s.setLpe l fun e => { e with enable := false }).modLp l fun x => { x with state := .disabled })
  | 4 =>
    let c := d.f 2 7 4
    let ls := ((List.range 32).map fun q => 32 * c + q).flatMap s.lportsOf
    if anyDraining s ls then none
    else
      let s := (s.setCart c { s.cart c with state := .prepared, cmd := none }).clearDrain ls
      let s := ls.foldl (fun s l => if (s.lp l).state = .circuit then s else s.failTo l .noLightSource) s
      some (s.emit 0x204 [put c 4 + 1])
  | 5 => if anyDraining s (portList d.buf) then none else some s
  | _ => some s

/-- Complete the PORT commands whose ports have ended their drains. -/
def Body.portSettle (s : Body) : Body :=
  s.portage.portCmds.foldl (fun s r =>
    match s.desc r with
    | none => { s with portage := { s.portage with portCmds := s.portage.portCmds.filter (· != r) } }
    | some d =>
      match s.portDone d with
      | none => s
      | some s =>
        ({ s with portage := { s.portage with portCmds := s.portage.portCmds.filter (· != r) } } : Body).completeRef r 0 0 0) s

/-- A drain ends: what its cause makes of the port, and what waited for it. -/
def Body.concludeDrain (s : Body) (l : Nat) (timeout : Bool) : Body :=
  let x := s.lp l
  match x.drain with
  | none => s
  | some c =>
    let s := if timeout then s.bump .drainTimeout l else s
    let s := if x.hold.isSome then s.replayToQueue l else s.reenterReplay l
    let s := (s.modLp l fun y => { y with drain := none }).setLpe l fun e => { e with drain := false }
    let s := if x.state != .draining then s
      else if c = .hold then s.modLp l fun y => { y with state := .up }
      else (s.leaveUp l).modLp l fun y =>
        { y with state := .disabled, lock := false, hold := y.hold.map fun h => { h with leftUp := true } }
    let g := physOf l / 8
    let s := match mget s.portage.trans g with
      | some t =>
        if t.draining.contains l then
          let t := { t with draining := t.draining.filter (· != l) }
          if t.draining.isEmpty then (s.setTrans g t).beginWrites g t else s.setTrans g t
        else s
      | none => s
    (s.laserSettle g).portSettle

/-- A port that left DRAINING in another way has ended its drain too. -/
def Body.settleDrain (s : Body) (l : Nat) : Body :=
  if (s.lp l).drain.isSome && (s.lp l).state != .draining then s.concludeDrain l false else s

/-- Lose a link: FAILED, or another state, with the end of any drain (06 R155, R156). -/
def Body.loseLink (s : Body) (l : Nat) (st : PState) : Body := (s.failTo l st).settleDrain l

/-- What a loss of lock or of control words makes of a port by its state: an UP port fails, but a held one only trains again
(09 R250); one not yet UP trains again (02 R62). -/
def Body.linkLost (s : Body) (l : Nat) : Body :=
  let x := s.lp l
  match x.state with
  | .up | .draining => s.loseLink l (if x.hold.isSome then .training else .failed)
  | .version | .versionMismatch => s.modLp l fun y => { y with state := .training, lock := false }
  | _ => s

/-- PCS lock lost for 1 µs (02 R62). A port whose peer drained and that holds no unacknowledged group trains again and sprays
nothing again (06 R152). -/
def Body.lockLost (s : Body) (l : Nat) : Body :=
  let s := s.modLp l fun y => { y with light := false }
  let x := s.lp l
  let quiet := (x.state == .up || x.state == .draining) && x.peerDraining && x.replay.isEmpty && !s.isGateway (physOf l)
  if quiet && x.hold.isNone then
    ((s.leaveUp l).modLp l fun y => { y with state := .training, lock := false }).settleDrain l
  else (s.linkLost l).modLp l fun y => { y with lock := false }

/-- No valid control word for 2 µs (02 R62). -/
def Body.controlLost (s : Body) (l : Nat) : Body := if s.isGateway (physOf l) then s else s.linkLost l

/-- A write and its read-back have ended (06 R160, R161). -/
def Body.cellDone (s : Body) (g : Nat) (ok : Bool) : Body :=
  match mget s.portage.trans g with
  | none => s
  | some t =>
    match t.draining, t.todo with
    | [], w :: rest =>
      if ok then (s.setCell g w).nextWrite g { t with todo := rest, tries := 0 }
      else if t.tries < 2 then (s.setTrans g { t with tries := t.tries + 1 }).raiseWear g w
      else if !t.back then
        let s := s.emit 0x206 [cellWord g w, s.wear g w]
        s.nextWrite g { t with todo := cellWrites (s.cellsOf g) t.before false, tries := 0, back := true }
      else
        let s := (s.emit 0x207 [g]).lanternPut fun l => { l with portageInconsistent := l.portageInconsistent ||| ((1 : W64) <<< g) }
        let p := s.portage
        let s := { s with portage := { p with inconsistent := p.inconsistent ||| ((1 : W64) <<< g), trans := mdel p.trans g } }
        let ls := ((List.range 8).map fun q => 8 * g + q).flatMap s.lportsOf
        (ls.foldl (fun s l => s.loseLink l .disabled) (s.clearDrain (t.changing.flatMap s.lportsOf))).reportGroup g t.src 5
    | _, _ => s

/-! ### OCB requests (06 R158, R159) -/

/-- One group of a request: group, EXPECT_GEN, target without its reserved bits. -/
structure OcbItem where
  g : Nat
  gen : W32
  target : W32

def ocbItems (b : List Byte) : List OcbItem :=
  (pieces 16 (b.length / 16) b).map fun r =>
    { g := leAt r 0 4 % 64, gen := BitVec.ofNat 32 (leAt r 4 4), target := BitVec.ofNat 32 (leAt r 8 4) &&& 0x77777777 }

/-- Positions that change under a target; every position of an inconsistent group. -/
def Body.changingOf (s : Body) (i : OcbItem) : List Nat :=
  (List.range 8).filter fun q =>
    s.portage.inconsistent.getLsbD i.g || partnerOf (s.bypass i.g).partner q != partnerOf i.target q

/-- R159 refuses this group. -/
def Body.ocbRefused (s : Body) (clp : Bool) (i : OcbItem) : Bool :=
  let inc := s.portage.inconsistent.getLsbD i.g
  let ports := (s.changingOf i).map fun q => 8 * i.g + q
  s.profiles.inForce.portageOwner.getLsbD i.g != clp || (!inc && (s.bypass i.g).gen != i.gen)
    || (mget s.portage.trans i.g).isSome
    || (s.isGateway (8 * i.g) && (List.range 8).any fun q => partnerOf i.target q != q)
    || (ports.flatMap s.lportsOf).any (fun l => (s.lp l).hold.isSome)
    || (cellWrites (s.cellsOf i.g) (cellsOfMap i.target) inc).any fun w => s.wear i.g w ≥ 1000000000

/-- Start one group's transition: its ports drain first (06 R160). -/
def Body.startTrans (s : Body) (i : OcbItem) (src : OcbSource) : Body :=
  let ports := (s.changingOf i).map fun q => 8 * i.g + q
  let ls := ports.flatMap s.lportsOf
  let dr := ls.filter fun l => (s.lp l).state == .up || (s.lp l).state == .draining
  let t : Transition := { target := i.target, before := s.cellsOf i.g, draining := dr, todo := [], src, changing := ports }
  let s := s.setTrans i.g t
  let s := ls.foldl (fun s l => s.drainOrDark l .portage) s
  if dr.isEmpty then s.beginWrites i.g t else s

/-- CLP asks OCB for one group; the status of Table 11-8 that refuses it, or 0 (10 R266, R268). A refused request is audited. -/
def Body.clpRequest (s : Body) (g : Nat) (target : W32) (src : OcbSource) : Nat × Body :=
  let i : OcbItem := { g, gen := (s.bypass g).gen, target }
  if !mapValid target || g ≥ s.variant.groups then (stBadDesc, s)
  else if s.ocbRefused true i then (stIllegal, s.auditModule 4 3 g stIllegal)
  else
    let s := { s with portage := { s.portage with dwell := if s.portage.dwell.contains g then s.portage.dwell else s.portage.dwell ++ [g] } }
    (0, s.startTrans i src)

/-- Restore two positions to through; submitted now, or when EXPRESS_DWELL has passed (10 R268). -/
def Body.expressRestore (s : Body) (g p q : Nat) : Body :=
  let m := (s.bypass g).partner
  let t := setFld (setFld m (4 * p + 2) (4 * p) p) (4 * q + 2) (4 * q) q
  if s.portage.dwell.contains g || (mget s.portage.trans g).isSome then
    { s with portage := { s.portage with deferred := s.portage.deferred ++ [(g, t)] } }
  else (s.clpRequest g t .clp).2

/-- EXPRESS_DWELL has passed for a group: its first deferred change is submitted. -/
def Body.dwellOver (s : Body) (g : Nat) : Body :=
  let s := { s with portage := { s.portage with dwell := s.portage.dwell.filter (· != g) } }
  match s.portage.deferred.find? fun x => x.1 == g with
  | none => s
  | some x =>
    let s := { s with portage := { s.portage with deferred := s.portage.deferred.erase x } }
    (s.clpRequest g x.2 .clp).2

/-- It waits while the control plane restarts (01 Table 1-5). -/
def Body.dwellEnds (s : Body) (g : Nat) : Body :=
  if s.planes.controlRestart then { s with planes := { s.planes with ctlQueue := s.planes.ctlQueue ++ [.dwell g] } } else s.dwellOver g

/-! ### The fallback map (06 R165) -/

def Body.fallbackOf (s : Body) (g : Nat) : BitVec 128 :=
  mgetD s.profiles.inForce.fallback g (BitVec.ofNat 128 (put 1 32 + allThrough.toNat))

def Body.logFrozen (s : Body) (g : Nat) (w : CellWrite) : Body :=
  let e : Ev := { code := 0x208, p := [BitVec.ofNat 64 (cellWord g w), BitVec.ofNat 64 (s.wear g w)], time := s.clock.ns }
  { s with mram := { s.mram with eventLog := s.mram.eventLog ++ [e] } }

/-- The write in progress of a running transition ends. -/
def Body.finishWrites (s : Body) : Body :=
  s.portage.trans.foldl (fun s x => match x.2.draining, x.2.todo with
    | [], w :: _ => s.setCell x.1 w
    | _, _ => s) s

/-- OCB ends running transitions after the write in progress and takes the groups with KEEP = 0 to their fallback; frozen cells
are skipped and logged. -/
def Body.applyFallback (s : Body) : Body :=
  let s := s.finishWrites
  let s := { s with portage := { s.portage with trans := [], open_ := [], deferred := [] } }
  ((List.range s.variant.groups).filter fun g => !bit (s.fallbackOf g) 32).foldl (fun s g =>
    ((cellWrites (s.cellsOf g) (cellsOfMap (BitVec.ofNat 32 (fld (s.fallbackOf g) 31 0))) false).foldl (fun s w =>
      if s.wear g w ≥ 1000000000 then s.logFrozen g w else (s.raiseWear g w).setCell g w) s).auditModule 4 3 g 0) s

/-! ### Lasers and cartridges (06 R155, R156) -/

def laserWord (c w k : Nat) : Nat := put k 6 + put w 4 + c

def laserPorts (s : Body) (c w k : Nat) : List Nat :=
  (((List.range 8).map fun q => 32 * c + 8 * k + q).flatMap s.lportsOf).filter fun l =>
    s.usesLambda l w && (s.lp l).state != .circuit

/-- Bias current is high: a free spare is reserved for the laser, and its ports in UP drain before the switch. -/
def Body.laserDegraded (s : Body) (c w k : Nat) : Body :=
  let x := s.cart c
  if x.state != .atPower || mgetD x.lasers (4 * w + k) .ok != .ok then s
  else
    let s := (s.setCart c { x with lasers := mset x.lasers (4 * w + k) .degraded }).emit 0x200 [laserWord c w k]
    if (mget x.spare w).isSome then s
    else
      let s := s.setCart c { s.cart c with spare := mset x.spare w k }
      ((laserPorts s c w k).foldl (fun s l => s.drainPort l .laser) s).laserSettle (4 * c + k)

/-- Output power is gone: the spare takes over when it is free, or reserved for this very laser. -/
def Body.laserFailed (s : Body) (c w k : Nat) : Body :=
  let x := s.cart c
  let st := mgetD x.lasers (4 * w + k) .ok
  if x.state != .atPower || st == .lost then s
  else
    let ls := laserPorts s c w k
    let free := (mget x.spare w).isNone || (mget x.spare w == some k && st == .degraded)
    if free then
      let s := (s.setCart c { x with lasers := mset x.lasers (4 * w + k) .spared, spare := mset x.spare w k }).emit 0x201
        [laserWord c w k]
      let hit := ls.filter fun l => (s.lp l).state == .up || (s.lp l).state == .draining
      hit.foldl (fun s l => s.loseLink l .failed) s
    else
      let s := s.setCart c { x with lasers := mset x.lasers (4 * w + k) .lost }
      (ls.foldl (fun s l => s.loseLink l .noLightSource) s).emit 0x202 [laserWord c w k]

def cartPorts (s : Body) (c : Nat) : List Nat :=
  (((List.range 32).map fun q => 32 * c + q).flatMap s.lportsOf).filter fun l => (s.lp l).state != .circuit

def Body.cartRemoved (s : Body) (c : Nat) : Body :=
  let x := s.cart c
  let s := s.setCart c { x with state := .absent, lasers := [], spare := [] }
  match x.state with
  | .absent | .prepared => s
  | _ => ((cartPorts s c).foldl (fun s l => s.loseLink l .noLightSource) s).emit 0x203 [put c 4 + 1]

def Body.cartInserted (s : Body) (c : Nat) : Body :=
  let x := s.cart c
  if x.state != .absent && x.state != .prepared then s
  else s.setCart c { x with state := .inserted, lasers := [], spare := [] }

/-- The lasers stand at target power: the cartridge's ports train. -/
def Body.cartAtPower (s : Body) (c : Nat) : Body :=
  let x := s.cart c
  if x.state != .inserted then s
  else
    let s := s.setCart c { x with state := .atPower }
    (cartPorts s c).foldl (fun s l =>
      if (s.lp l).state = .noLightSource ∨ (s.lp l).state = .disabled then s.retrain l else s) s

/-! ### The commands -/

def execControlWord (l : Fin 2048) (cw : CtlWord) (s : State) : Ans :=
  onLink s l.val fun b => (b.control l.val cw.word cw.idle).settleDrain l.val

def execPcsLockLostTimeout (l : Fin 2048) (s : State) : Ans := onLink s l.val fun b => b.lockLost l.val

def execControlWordTimeout (l : Fin 2048) (s : State) : Ans := onLink s l.val fun b => b.controlLost l.val

def execDrainComplete (l : Fin 2048) (s : State) : Ans := onLink s l.val fun b =>
  if (b.lp l.val).state = .draining ∧ b.drained l.val then b.concludeDrain l.val false else b

def execDrainTimeout (l : Fin 2048) (s : State) : Ans := onLink s l.val fun b =>
  if (b.lp l.val).state = .draining ∧ !b.isGateway (physOf l.val) then b.concludeDrain l.val true else b

def execPortageCellWriteComplete (g : Fin 64) (readBackOk : Bool) (s : State) : Ans :=
  if g.val < s.hw.groups then onBody s fun b => b.cellDone g.val readBackOk else .fault (.absentGroup g.val)

def execLaserDegraded (c : Fin 16) (w k : Fin 4) (s : State) : Ans :=
  if c.val < s.hw.cartridges then onBody s fun b => if b.linksRun then b.laserDegraded c.val w.val k.val else b
  else .fault (.absentCartridge c.val)

def execLaserFailed (c : Fin 16) (w k : Fin 4) (s : State) : Ans :=
  if c.val < s.hw.cartridges then onBody s fun b => if b.linksRun then b.laserFailed c.val w.val k.val else b
  else .fault (.absentCartridge c.val)

def execCartridgeRemoved (c : Fin 16) (s : State) : Ans :=
  if c.val < s.hw.cartridges then onBody s fun b => b.cartRemoved c.val else .fault (.absentCartridge c.val)

def execCartridgeInserted (c : Fin 16) (s : State) : Ans :=
  if c.val < s.hw.cartridges then onBody s fun b => b.cartInserted c.val else .fault (.absentCartridge c.val)

def execCartridgeAtPower (c : Fin 16) (s : State) : Ans :=
  if c.val < s.hw.cartridges then onBody s fun b => if b.linksRun then b.cartAtPower c.val else b
  else .fault (.absentCartridge c.val)

def execHoldLimitExpiry (l : Fin 2048) (s : State) : Ans := onLink s l.val fun b => b.leaveHold l.val

def execExpressDwellExpiry (g : Fin 64) (s : State) : Ans :=
  if g.val < s.hw.groups then onBody s fun b => if b.linksRun then b.dwellEnds g.val else b else .fault (.absentGroup g.val)

end Sys2Proof.Machine
end

