-- ==== Sys2Proof/Machine/PortCmds.lean ====
section
/-! DEFINITION. PORT commands (11 Table 11-5 class 4; 06 R149, R151, R156, R159; 09 R249-R252; 14 R377). -/
namespace Sys2Proof.Machine

/-- Leave a command to complete when its ports have ended their drains; it may do so at once. -/
def Body.portWait (s : Body) (r : CmdRef) : HostRes :=
  { s := ({ s with portage := { s.portage with portCmds := s.portage.portCmds ++ [r] } } : Body).portSettle, later := true }

/-! ### MODE (06 R149) -/

def modeBusy (s : Body) (d : Desc) : Nat :=
  let bad := (modePorts d).any fun p => s.modeRuns p || !s.through p || (mget s.portage.trans (p / 8)).isSome
    || (s.lportsOf p).any fun l => (s.lp l).hold.isSome
  if bad then stIllegal else 0

def specPortMode : CmdSpec :=
  { cls := 4, op := 1, control := true
    bad0 := fun s _ d => modePort d ≥ s.variant.ports || d.f 2 14 12 > 3 || d.f 2 11 10 == 3
    pre := fun s _ d => modeBusy s d
    mode := .atomic (fun _ => 0) (fun _ _ _ => false) fun s r d _ =>
      (((modePorts d).flatMap s.lportsOf).foldl (fun s l => s.drainOrDark l .mode) s).portWait r }

/-! ### ADMIN (06 R151) -/

def adminRun (s : Body) (r : CmdRef) (d : Desc) (_ : List Byte) : HostRes :=
  let l := d.f 2 10 0
  let x := s.lp l
  if d.f 2 16 16 = 1 then
    let s := s.setLpe l fun e => { e with enable := true }
    { s := if x.state = .disabled ∧ x.drain = none ∧ s.mayTrain l then s.retrain l else s }
  else match x.state with
    | .up => (s.drainPort l .admin).portWait r
    | .circuit => { s := s.setLpe l fun e => { e with enable := false } }
    | .draining => { s := (s.setLpe l fun e => { e with enable := false }).loseLink l .disabled }
    | _ => { s := (s.setLpe l fun e => { e with enable := false }).modLp l fun x => { x with state := .disabled, lock := false } }

def specPortAdmin : CmdSpec :=
  { cls := 4, op := 2, control := true
    bad0 := fun s _ d => !s.lportExists (d.f 2 10 0)
    mode := .atomic (fun _ => 0) (fun _ _ _ => false) adminRun }

/-! ### BYPASS_SET (06 R159) -/

def bypassCount (d : Desc) : Nat := d.f 4 6 0

def bypassRun (s : Body) (r : CmdRef) (_ : Desc) (b : List Byte) : HostRes :=
  let is := ocbItems b
  match is.find? (s.ocbRefused false) with
  | some i => { s, status := stIllegal, d0 := i.g }
  | none =>
    let s := { s with portage := { s.portage with open_ := s.portage.open_ ++ [(r, dedupNat (is.map (·.g)), false)] } }
    { s := is.foldl (fun s i => s.startTrans i (.host r)) s, later := true }

def specBypass : CmdSpec :=
  { cls := 4, op := 3, control := true
    bad0 := fun _ _ d => bypassCount d = 0 || bypassCount d > 64
    mode := .atomic (fun d => 16 * bypassCount d)
      (fun s _ b => (ocbItems b).any fun i => i.g ≥ s.variant.groups || !mapValid i.target) bypassRun }

/-! ### PREPARE_REMOVE (06 R156, 14 R377) -/

def removeScope (d : Desc) : Nat := d.f 2 0 0

def cartRun (s : Body) (r : CmdRef) (d : Desc) (_ : List Byte) : HostRes :=
  let c := d.f 2 7 4
  ((cartPorts s c).foldl (fun s l => s.drainOrDark l .cartridge) (s.setCart c { s.cart c with cmd := some r })).portWait r

/-- The module enters REMOVING; a copy that is joining returns to FREE (14 R377). -/
def Body.enterRemoving (s : Body) (r : CmdRef) : Body :=
  { s with
    power := { s.power with state := .removing, removeCmd := some r }
    mss := { s.mss with windows := s.mss.windows.filter fun (w : Nat × Window) => w.2.state != .syncing && w.2.state != .shadow } }

/-- R376 turns the removal of the module away. -/
def Body.removeBarred (s : Body) : Bool :=
  s.mss.windows.any (fun w => w.2.state == .active || w.2.state == .solo || w.2.state == .stateLost)
    || s.lports.any (fun x => x.2.hold.isSome) || !s.portage.portCmds.isEmpty || !s.portage.trans.isEmpty

def specPrepare : CmdSpec :=
  { cls := 4, op := 4, control := true
    bad0 := fun s _ d => removeScope d == 1 && d.f 2 7 4 ≥ s.variant.cartridges
    pre := fun s _ d =>
      if removeScope d = 1 then (if (s.cart (d.f 2 7 4)).state = .absent ∨ (s.cart (d.f 2 7 4)).cmd.isSome then stIllegal else 0)
      else if s.removeBarred then stIllegal else 0
    mode := .atomic (fun _ => 0) (fun _ _ _ => false) fun s r d b =>
      if removeScope d = 1 then cartRun s r d b else { s := s.enterRemoving r, later := true } }

/-- The descriptor's SCOPE is the one a row of the table names. -/
def scopeIs (b : Body) (r : CmdRef) (scope : Nat) : Bool := match b.desc r with
  | some d => removeScope d == scope
  | none => false

/-! ### HOLD and RELEASE (09 R249-R252) -/

def listCount (d : Desc) : Nat := d.f 4 11 0

def listBad (s : Body) (_ : Desc) (b : List Byte) : Bool := (portList b).any fun l => !s.lportExists l

/-- Allotment of each named port from its die's reserve (09 R251). -/
def Body.allotment (s : Body) (ls : List Nat) (l : Nat) : Nat :=
  let total := (ls.filter fun k => dieOf k == dieOf l).foldl (fun a k => a + s.rate k) 0
  min (s.rate l * 125000 * s.profiles.inForce.holdLimit) (nth s.tms.reserve (dieOf l) 0 * s.rate l / max 1 total)

/-- Enter hold: launching stops, and a port in UP drains with its queue kept. -/
def Body.enterHold (s : Body) (l allot : Nat) : Body :=
  let d := dieOf l
  let s := { s with tms := { s.tms with reserve := setNth s.tms.reserve d (nth s.tms.reserve d 0 - allot) } }
  let up : Bool := (s.lp l).state = .up
  let s := (s.modLp l fun x => { x with hold := some { allot, entering := up } }).setLpe l fun e => { e with hold := true }
  if up then s.drainPort l .hold else s.toReserve l

def holdRun (s : Body) (r : CmdRef) (_ : Desc) (b : List Byte) : HostRes :=
  let ls := dedupNat (portList b)
  let busy := fun (l : Nat) => (s.lp l).state == .circuit || (s.lp l).hold.isSome || (s.lp l).drain.isSome || s.modeRuns (physOf l)
    || (mget s.portage.trans (physOf l / 8)).any (fun t => t.changing.contains (physOf l))
  if ls.any busy then .no s stIllegal
  else
    let al := ls.map fun l => (l, s.allotment ls l)
    (al.foldl (fun s x => s.enterHold x.1 x.2) s).portWait r

def specHold : CmdSpec :=
  { cls := 4, op := 5, control := true
    bad0 := fun _ _ d => listCount d = 0 || listCount d > 2048
    mode := .atomic (fun d => 2 * listCount d) listBad holdRun }

def specRelease : CmdSpec :=
  { cls := 4, op := 6, control := true
    bad0 := fun _ _ d => listCount d = 0 || listCount d > 2048
    mode := .atomic (fun d => 2 * listCount d) listBad fun s _ _ b =>
      { s := ((dedupNat (portList b)).foldl (fun s l => s.leaveHold l) s).portSettle } }

/-! ### The commands -/

def execPortMode (r : CmdRef) (s : State) : Ans := onBody s fun b => hostCmd specPortMode b r [] 0

def execPortAdmin (r : CmdRef) (s : State) : Ans := onBody s fun b => hostCmd specPortAdmin b r [] 0

def execPortBypassSet (r : CmdRef) (data : List Byte) (s : State) : Ans := onBody s fun b => hostCmd specBypass b r data 0

def execPortPrepareRemoveCartridge (r : CmdRef) (s : State) : Ans :=
  onBody s fun b => if scopeIs b r 1 then hostCmd specPrepare b r [] 0 else b

def execPortPrepareRemoveModule (r : CmdRef) (s : State) : Ans :=
  onBody s fun b => if scopeIs b r 0 then hostCmd specPrepare b r [] 0 else b

def execPortHold (r : CmdRef) (data : List Byte) (s : State) : Ans := onBody s fun b => hostCmd specHold b r data 0

def execPortRelease (r : CmdRef) (data : List Byte) (s : State) : Ans := onBody s fun b => hostCmd specRelease b r data 0

end Sys2Proof.Machine
end

