-- ==== Sys2Proof/Machine/Coll.lean ====
section
/-! DEFINITION. Contexts: geometry, expected inputs, placement, reservation, opening, context records, completion
(08 R198-R225, 10 R254-R261). -/
namespace Sys2Proof.Machine

/-! ### Policy fields (08 Table 8-6) -/

def polContrib (p : BitVec 1024) : Nat := fld p 905 904
def polDeliver (p : BitVec 1024) : Nat := fld p 903 902
def polChunklog (p : BitVec 1024) : Nat := fld p 901 897
def polDepth (p : BitVec 1024) : Nat := fld p 896 892
def polFrameb (p : BitVec 1024) : Nat := fld p 891 890
def polPrio (p : BitVec 1024) : Nat := fld p 885 883
def polOpbytes (p : BitVec 1024) : Nat := fld p 855 816
def polRoot (p : BitVec 1024) : Nat := fld p 815 798
def polSprof (p : BitVec 1024) : Nat := fld p 763 752
def polDeadline (p : BitVec 1024) : Nat := fld p 751 728
def polWindow (p : BitVec 1024) : Nat := fld p 727 712

/-- A policy record that CTX POLICY refuses: a reserved or out-of-range value of Table 8-6 (entry 32). -/
def polBad (p : BitVec 1024) : Bool :=
  let a := arithOf p
  a.ifmt > 9 || a.ofmt > 9 || a.rop > 10 || a.mode == 3 || polContrib p == 3 || polDeliver p == 3
    || (polChunklog p != 0 && (polChunklog p < 12 || polChunklog p > 20)) || polDepth p > 16

def Ctx.ar (c : Ctx) : Arith := arithOf c.pol

/-- Level 0 contributions are multiplied by their weights (07 R174; the gradient of an UPDATE with weights, R194). -/
def Ctx.weighs (c : Ctx) : Bool := c.ar.rop == ropWsum || (c.ar.rop == ropUpdate && !c.weights.isEmpty)

/-- Low 28 bits of OPSEQ and PSEL (08 R200). -/
def opNum (o : W32) : Nat := fld o 27 0
def pselOf (o : W32) : Nat := fld o 31 28

def Body.isRoot (s : Body) (c : Ctx) : Bool := c.rootmod == s.moduleIndex

/-- Group ID of a group address. -/
def gidOf (a : W32) : Nat := fld a 25 0

/-! ### Chunks and elements (07 R169, 08 R204) -/

/-- Bits of one input element, a pair counting once. -/
def Arith.elemBits (a : Arith) : Nat := if a.pair then 2 * fmtBits a.ifmt else fmtBits a.ifmt

/-- Elements of an operation. -/
def opElems (p : BitVec 1024) : Nat := polOpbytes p * 8 / (arithOf p).elemBits

/-- Elements of a full chunk; a chunk of an UPDATE context is one region (09 R240). -/
def Ctx.perChunk (c : Ctx) : Nat :=
  if c.nchunk ≤ 1 then opElems c.pol
  else if c.ar.rop = ropUpdate then opElems c.pol / c.nchunk
  else 2 ^ c.chunklog * 8 / c.ar.elemBits

/-- Elements of chunk n. -/
def Ctx.elems (c : Ctx) (n : Nat) : Nat := min c.perChunk (opElems c.pol - n * c.perChunk)

def Ctx.project (c : Ctx) : Bool := c.ar.rop == ropProject

/-- Elements of a result or transit partial of chunk n (07 R185). -/
def Ctx.outElems (c : Ctx) (n : Nat) : Nat := if c.project then (c.elems n + 3) / 4 else c.elems n

/-- The input index is a partial of another module. -/
def InIdx.isModule : InIdx → Bool
  | .module _ => true
  | _ => false

/-- Format of an input's frames (07 R173). -/
def Ctx.inFmt (c : Ctx) (i : InIdx) : Nat := if i.isModule then c.ar.transit else c.ar.ifmt

def Ctx.inScaled (c : Ctx) (i : InIdx) : Bool := i.isModule && c.ar.transitScaled

/-- Elements of chunk n as an input carries them. -/
def Ctx.inElems (c : Ctx) (i : InIdx) (n : Nat) : Nat := if i.isModule then c.outElems n else c.elems n

/-- Elements of a full frame of an input. -/
def Ctx.inFull (c : Ctx) (i : InIdx) : Nat := fullElems (c.inFmt i) (c.inScaled i) c.ar.pair (polFrameb c.pol)

/-- Format of what this module sends on: OFMT at the root, the transit format elsewhere (07 R179, R180). -/
def Body.outFmt (s : Body) (c : Ctx) : Nat := if s.isRoot c then c.ar.ofmt else c.ar.transit

def Body.outScaled (s : Body) (c : Ctx) : Bool := if s.isRoot c then c.ar.scaledOut else c.ar.transitScaled

def Body.outFull (s : Body) (c : Ctx) : Nat := fullElems (s.outFmt c) (s.outScaled c) c.ar.pair (polFrameb c.pol)

/-- Result frames of chunk n. -/
def Body.outFrames (s : Body) (c : Ctx) (n : Nat) : Nat := ceilDiv (c.outElems n) (s.outFull c)

/-! ### Expected inputs (08 R214, R216, R222) -/

def samePod (a b : W32) : Bool := adPlane a == adPlane b && adPod a == adPod b

/-- Ranks of a pod, ascending. -/
def Group.ranksIn (g : Group) (t : W32) : List Nat := (g.members.zipIdx.filter fun m => samePod m.1.ep t).map (·.2)

def Group.member (g : Group) (r : Nat) : Member := nth g.members r { ep := 0 }

/-- LIVE of a pod: members whose FENCED bit is clear (08 Table 8-4). -/
def Group.liveIn (g : Group) (t : W32) : Nat := ((g.ranksIn t).filter fun r => !(g.member r).fenced).length

/-- CLP computes LIVE of every POD entry. -/
def Group.relive (g : Group) : Group :=
  { g with repl := g.repl.map fun r => if r.kind = 0 then { r with live := g.liveIn r.target } else r }

/-- The group as a context sees it: the replication list as it stood at open, with LIVE as it is now (08 R202, R215). -/
def Ctx.view (c : Ctx) (g : Group) : Group := { g with repl := c.repl }.relive

/-- Members with FENCED set. -/
def Group.nFenced (g : Group) : Nat := (g.members.filter fun m => m.fenced).length

/-- The expected-input list of this module's stage at open (XPTR). -/
def Body.expectOf (s : Body) (g : Group) (root : Bool) : List InIdx :=
  g.repl.flatMap fun r =>
    match r.kind with
    | 0 =>
      let ms := (g.ranksIn r.target).filter fun m => !(g.member m).fenced
      if r.pre then (match ms with | m :: _ => [.pod m] | [] => []) else ms.map .rank
    | 1 => if (g.member (fld r.target 17 0)).fenced then [] else [.rank (fld r.target 17 0)]
    | 2 => if root && fld r.target 9 0 != s.moduleIndex then [.module (fld r.target 9 0)] else []
    | _ => []

/-- The rank that contributes chunk n; none under ALL (08 R198). -/
def Ctx.owner (c : Ctx) (n : Nat) : Option Nat :=
  match polContrib c.pol with
  | 1 => some (n % max 1 c.ownn)
  | 2 => some (polRoot c.pol)
  | _ => none

/-- The input has left the expected sets since open (08 R214). -/
def Ctx.gone (c : Ctx) : InIdx → Bool
  | .rank r => c.fencedSince.contains r
  | .pod p => c.podsGone.contains p
  | .module _ => false

/-- Input index of a rank served here: its own, or its PRE pod's. -/
def Ctx.indexOf (c : Ctx) (g : Group) (r : Nat) : Option InIdx :=
  c.expect.find? fun i => match i with
    | .rank q => q == r
    | .pod p => samePod (g.member p).ep (g.member r).ep
    | .module _ => false

/-- Expected inputs of chunk n, and whether one of them is enough (a contributor behind another module). -/
def Ctx.wanted (c : Ctx) (g : Group) (n : Nat) : List InIdx × Bool :=
  match c.owner n with
  | none => (c.expect.filter fun i => !c.gone i, false)
  | some r =>
    if c.fencedSince.contains r then ([], false)
    else match c.indexOf g r with
      | some i => (if c.gone i then [] else [i], false)
      | none => (c.expect.filter InIdx.isModule, true)

/-- A chunk that will have no result: its contributors are fenced (08 R215). -/
def Body.noResult (s : Body) (c : Ctx) (g : Group) (n : Nat) : Bool :=
  match c.owner n with
  | some r => c.fencedSince.contains r
  | none => s.isRoot c && !c.expect.isEmpty && (c.wanted g n).1.isEmpty

/-- Aliased ranks among the expected inputs (08 R222). -/
def Ctx.aliased (c : Ctx) : Nat :=
  (c.expect.filter fun i => match i with | .rank r => c.aliases.contains r | _ => false).length

/-! ### Reservation (08 R222, R223) -/

/-- Slots of the staging and of the working region at a depth. -/
def Body.needAt (s : Body) (c : Ctx) (depth : Nat) : Nat × Nat :=
  let e := c.elems 0
  let inB := e * c.ar.elemBits / 8
  let trB := c.outElems 0 * (if c.ar.pair then c.ar.elemBits else fmtBits c.ar.transit) / 8
  let outB := c.outElems 0 * (if c.ar.pair then c.ar.elemBits else fmtBits (s.outFmt c)) / 8
  let nMod := (c.expect.filter InIdx.isModule).length
  let nLoc := c.expect.length - nMod
  let staged :=
    if polContrib c.pol = 0 then (nLoc + c.aliased) * inB + nMod * trB
    else (if nLoc = 0 then trB else inB) + c.aliased * inB
  (ceilDiv (depth * staged) 65536, ceilDiv (depth * (e * c.ar.accWidth + outB)) 65536)

/-- Contexts that may hold a descriptor: 4,096 on M00 (00 Table 0-3), else 65,536 (00 Table 0-7). -/
def Body.descLimit (s : Body) : Nat := if s.variant.hasFmem then 65536 else 4096

/-- The first step of R223 that holds the reservation on Sett n: step, SRAM slots, spill slots. -/
def Body.stepFor (s : Body) (n : Nat) (need : Nat × Nat) : Option (Nat × Nat × Nat) :=
  let x := s.sett n
  let (st, wk) := need
  if (s.coll.ctxs.filter fun c => c.grant != 0).length ≥ s.descLimit then none
  else if x.slots ≥ st + wk ∧ x.resident > 0 then some (1, st + wk, 0)
  else if !s.variant.hasFmem then none
  else if x.slots ≥ wk ∧ s.coll.spillFree ≥ st ∧ x.resident > 0 then some (2, wk, st)
  else if s.coll.spillFree ≥ st + wk then some (3, 0, st + wk)
  else none

/-- Depths tried: the policy's, halved down to 2 (10 R261). -/
def depthsFrom : Nat → Nat → List Nat
  | 0, d => [d]
  | n + 1, d => if d / 2 < 2 then [d] else d :: depthsFrom n (d / 2)

/-- The largest depth that fits, with its step. -/
def Body.fit (s : Body) (c : Ctx) : Option (Nat × Nat × Nat × Nat) :=
  (depthsFrom 5 c.depth).findSome? fun d => (s.stepFor c.sett (s.needAt c d)).map fun x => (d, x)

/-! ### Choosing the Sett (10 R257, R258, R262) -/

/-- Takes new contexts: in service, or DUPLICATE and not yet its die's test subject (12 Table 12-3, R328). -/
def takesNew (x : Sett) : Bool := x.state == .inService || (x.state == .duplicate && x.test == .none)

/-- What a load of 1 is in the model's numbers. -/
abbrev loadOne : Nat := 1000000000000

/-- Load of a Sett: work share, or reserved SRAM share (10 R258). -/
def settLoad (x : Sett) : Nat := max (min loadOne x.loadAll) ((384 - x.slots) * loadOne / 384)

def settsOf (die : Nat) : List Nat := (List.range 5).map fun k => 5 * die + k

def Body.inServiceOf (s : Body) (die : Nat) : List Nat := (settsOf die).filter fun n => takesNew (s.sett n)

/-- Mean load of a die's in-service Setts. -/
def Body.dieLoad (s : Body) (die : Nat) : Nat :=
  let l := s.inServiceOf die
  (l.foldl (fun a n => a + settLoad (s.sett n)) 0) / max 1 l.length

/-- The least-loaded Sett of a list, lower number on a tie. -/
def Body.leastLoaded (s : Body) (l : List Nat) : Option Nat :=
  best (fun a b => settLoad (s.sett a) < settLoad (s.sett b)) l

/-- Dies in ascending order of load, lower number on a tie. -/
def Body.diesByLoad (s : Body) : List Nat :=
  sortBy (fun a b => s.dieLoad a < s.dieLoad b) ((List.range 4).filter fun d => !(s.inServiceOf d).isEmpty)

def settHash (k : CtxKey) : Nat := crc32c (beBytes 4 (gidOf k.g) ++ beBytes 4 k.opseq.toNat) % 256

/-- The Sett of a new context (10 R257, R258; HBM row of Table 10-3). -/
def Body.chooseSett (s : Body) (c : Ctx) : Nat :=
  let pref := (mgetD s.tables.settSel.act (settHash c.key) 0).toNat % 32
  let die := pref / 5
  let other := s.diesByLoad.filter fun d => d != die && s.dieLoad d + loadOne / 5 ≤ s.dieLoad die
  let n := if settLoad (s.sett pref) ≥ s.profiles.inForce.satLoad * (loadOne / 1000) then
      (match other with | d :: _ => (s.leastLoaded (s.inServiceOf d)).getD pref | [] => pref)
    else pref
  let n := if (s.sett n).resident > 0 then n
    else
      let order := (n / 5) :: s.diesByLoad.filter fun d => d != n / 5
      (order.findSome? fun d => s.leastLoaded ((s.inServiceOf d).filter fun k => (s.sett k).resident > 0)).getD n
  let need := s.needAt { c with sett := n } c.depth
  let spills := match s.stepFor n need with | some (st, _) => st != 1 | none => true
  if s.budget.satHbm.contains (n / 5) && spills then
    (s.diesByLoad.findSome? fun d => if d = n / 5 then none else s.leastLoaded ((s.inServiceOf d).filter fun k =>
      match s.stepFor k need with | some (1, _) => true | _ => false)).getD n
  else n

/-! ### Opening (08 R203-R204, 10 R254-R260, 09 R240-R242) -/

/-- Module set of a context, ascending (10 R255). -/
def Body.moduleSet (s : Body) (g : Group) : List Nat :=
  sortNat (dedupNat (s.moduleIndex :: (g.repl.filter fun r => r.kind == 2).map fun r => fld r.target 9 0))

def rotatedRoot (m : List Nat) (k : CtxKey) : Nat := nth m ((gidOf k.g + opNum k.opseq) % max 1 m.length) 0

/-- CHUNKLOG lowered while there are fewer chunks than the depth (10 R260). -/
def shrinkLog (op depth : Nat) : Nat → Nat → Nat
  | 0, l => l
  | n + 1, l => if ceilDiv op (2 ^ l) < depth ∧ l > 16 then shrinkLog op depth n (l - 1) else l

def Window.serves (w : Window) : Bool := w.state == .active || w.state == .primary || w.state == .solo

/-- The update window a policy names, when it is bound to the group. -/
def Body.boundWindow (s : Body) (k : CtxKey) (p : BitVec 1024) : Option Window :=
  match mget s.mss.windows (polWindow p) with
  | some w => if w.update && w.group == gidOf k.g then some w else none
  | none => none

/-- Step descriptor of a new UPDATE context (09 R242). -/
def pickStep (w : Window) (p : Policy) : Option (BitVec 512) :=
  let want := (w.lastStep + 1 : W64)
  let slot := mgetD w.slots (want.toNat % 16) 0
  if (stepD slot).step = want then some slot else if (stepD p.step).step = want then some p.step else none

abbrev causeCombination : Nat := 1
abbrev causeNoFunction : Nat := 2
abbrev causeSize : Nat := 3

/-- The element counts that R169 requires of every chunk. -/
def blockedOk (a : Arith) (per total : Nat) : Bool :=
  let outBlocked := isMx a.ofmt || a.scaledOut
  let q := if a.rop == ropProject && outBlocked then 1024 else 256
  !a.blocked || (per % q == 0 && total % q == 0)

/-- The descriptor CLP builds at open, or the CAUSE of its refusal (08 R204; entry 33). -/
def Body.buildCtx (s : Body) (k : CtxKey) (g : Group) (p : Policy) : Ctx × Nat :=
  let f := s.profiles.inForce
  let a := arithOf p.params
  let op := polOpbytes p.params
  let tree := op ≤ f.tree1Max
  let depth0 := if polDepth p.params = 0 then f.depthDefault else polDepth p.params
  let log0 := if polChunklog p.params = 0 then f.chunkDefault else polChunklog p.params
  let upd := a.rop == ropUpdate
  let w := s.boundWindow k p.params
  let log := if tree || upd then log0 else shrinkLog op depth0 8 log0
  let nchunk := if tree then 1 else match upd, w with | true, some x => x.nregion | _, _ => ceilDiv op (2 ^ log)
  let ms := s.moduleSet g
  let root := match upd, w with
    | true, some x => if x.serves then s.moduleIndex else x.buddy
    | _, _ => rotatedRoot ms k
  let depth := if tree then 1 else depth0
  let c0 : Ctx :=
    { key := k, pol := p.params, weights := p.weights, proj := p.proj, step := p.step, epoch := g.epoch
      alg := if tree then 0 else 1, levelc := ms.length > 1, nchunk, rootmod := root, chunklog := log, depth
      prio := polPrio p.params, sprof := polSprof p.params
      deadline := if polDeadline p.params = 0 then 10000 else polDeadline p.params
      ownn := g.members.length, opened := s.clock.ns, since := s.clock.ns, repl := g.repl
      aliases := (g.members.zipIdx.filter fun m => m.1.aliasv).map (·.2) }
  let c1 := { c0 with expect := s.expectOf g (root == s.moduleIndex) }
  let c1 := { c1 with nin := if polContrib p.params = 0 then c1.expect.length else 1 }
  let c := { c1 with sett := s.chooseSett c1 }
  let updBad := upd && (match w with
    | none => true
    | some x => (c.nchunk != x.nregion) || c.elems 0 != x.rp || opElems p.params != x.rp * x.nregion
        || x.state == .stateLost
        || (match pickStep x p with | none => true | some d => (stepD d).bad || !ruleMatches (stepD d).rule x.rule))
  let updBig := upd && (match w with | some x => x.rp * fmtBits a.ifmt / 8 > 1048576 | none => false)
  let cause :=
    if upd && !s.variant.hasFmem then causeNoFunction
    else if op = 0 || nchunk > 0xFFFFFE then causeSize
    else if !a.legal || !blockedOk a c.perChunk (opElems p.params) then causeCombination
    else if updBig then causeSize
    else if updBad then causeCombination
    else 0
  let step := match w with | some x => (if upd then (pickStep x p).getD p.step else p.step) | none => p.step
  ({ c with step }, cause)

/-! ### The list of contexts -/

def Body.ctx (s : Body) (k : CtxKey) : Option Ctx := s.coll.ctxs.find? fun c => c.key == k

def Body.putCtx (s : Body) (c : Ctx) : Body :=
  { s with coll := { s.coll with ctxs := s.coll.ctxs.map fun d => if d.key = c.key then c else d } }

def Body.modCtx (s : Body) (k : CtxKey) (f : Ctx → Ctx) : Body :=
  { s with coll := { s.coll with ctxs := s.coll.ctxs.map fun d => if d.key = k then f d else d } }

def Body.stage (s : Body) (k : StageKey) : Option Stage := s.coll.stages.find? fun t => t.key == k

/-- Enter or replace a stage by its key. -/
def stageIn (t : Stage) : List Stage → List Stage
  | [] => [t]
  | u :: l => if u.key = t.key then t :: l else u :: stageIn t l

def Body.putStage (s : Body) (t : Stage) : Body := { s with coll := { s.coll with stages := stageIn t s.coll.stages } }

def Body.modGroup (s : Body) (a : W32) (f : Group → Group) : Body :=
  match s.groupIndex a with
  | none => s
  | some i => match mget s.coll.groups i with
    | none => s
    | some g => { s with coll := { s.coll with groups := mset s.coll.groups i (f g) } }

def Body.settFor (s : Body) (c : Ctx) : Nat := s.servingSett 20 c.sett

/-! ### Context records (08 R210, Table 8-8) -/

/-- Words 0 to 2 of a record. -/
def recordHead (c : Ctx) (g : Group) (kind code cause countc countr : Nat) : List W64 :=
  [BitVec.ofNat 64 (put kind 56 + put code 48 + put c.chunklog 43 + put c.depth 38 + put c.alg 36 + put cause 32 + c.epoch.toNat),
   BitVec.ofNat 64 (put countc 40 + put (polRoot c.pol) 22 + put (if kind = 3 then c.flags.toNat else 0) 16),
   BitVec.ofNat 64 (put (g.member (polRoot c.pol)).ep.toNat 32 + put countr 13)]

/-- RANKS: two entries a word (08 Table 8-8). -/
def rankWords : List Nat → List W64
  | [] => []
  | [a] => [BitVec.ofNat 64 (put a 32)]
  | a :: b :: t => BitVec.ofNat 64 (put a 32 + b) :: rankWords t

def sumWords (l : List W64) : W64 := l.foldl (· + ·) 0

def kindOf (p : List W64) : Nat := fld (nth p 0 0) 63 56
def codeOf (p : List W64) : Nat := fld (nth p 0 0) 55 48

/-- Send a record: OPEN and CLOSE to the replication list, ADMIT to the root module (08 R428). -/
def Body.sendRecord (s : Body) (c : Ctx) (g : Group) (kind : Nat) (words : List W64) : Body :=
  let up := kind == 2
  let lowest := best (· < ·) (c.expect.filterMap fun i => match i with | .rank r => some r | .pod p => some p | .module _ => none)
  let x := redX { group := gidOf c.key.g, epoch := c.epoch.toNat, opseq := c.key.opseq.toNat, chunk := recordChunk, fmt := 9,
                  rop := c.ar.rop, rank := if up then lowest.getD 0 else 0, clast := true,
                  level := if up then 1 else if c.levelc then 2 else 1 }
  let h := ownHdr s.own c.key.g (if up then opRput else opRres) (if up then 1 else 2) words.length 0 true false
  let r := mkRest h x words (sumWords words) 0 tGood
  let die := s.settFor c / 5
  if up then s.originate die h x r [some (2, BitVec.ofNat 32 c.rootmod)]
  else
    let v := c.view g
    let (ts, s) := s.replicaTargets v (s.replAll v)
    s.originate die h x r ts

/-- OPEN (08 Table 8-8); CODE 0 REDUCED, 1 PASS_THROUGH. -/
def Body.sendOpen (s : Body) (c : Ctx) (g : Group) (code : Nat) : Body :=
  s.sendRecord c g 1 (recordHead { c with depth := c.nextDepth.getD c.depth } g 1 code 0 c.nchunk 0)

def Body.sendAdmit (s : Body) (c : Ctx) (g : Group) (code : Nat) : Body :=
  s.sendRecord c g 2 (recordHead c g 2 code 0 0 0)

/-! ### Release and close (08 R206, R225, 10 R281) -/

/-- Free the reservation: SRAM slots and the resident entry at once, spill slots when their scrub ends. -/
def Body.releaseCtx (s : Body) (c : Ctx) : Body :=
  if c.grant = 0 then s
  else
    let s := s.modSett c.sett fun x =>
      { x with slots := min 384 (x.slots + c.sram + c.trim.1), resident := if c.grant ≤ 2 then min 256 (x.resident + 1) else x.resident }
    let n := c.spill + c.trim.2
    let s := if n = 0 then s else { s with coll := { s.coll with scrub := s.coll.scrub ++ [(n, 0)] } }
    s.modCtx c.key fun d => { d with grant := 0, sram := 0, spill := 0, trim := (0, 0), succ := none, nextDepth := none }

/-- Frames of a stage's arrival log. -/
def Stage.logged (t : Stage) : Nat := t.log.foldl (fun a p => a + p.length) 0

/-- Pending work slots become retired or wasted (13 R359). -/
def Body.settleTd (s : Body) (sett : Nat) (c : Ctr) (n : Nat) : Body :=
  if n = 0 then s else (s.bumpBy c sett n).plainBump .tdPending sett (2 ^ 64 - n)

/-- Drop a stage: its log entries are free, its slots settle as retired or wasted (13 R359). -/
def Body.dropStage (s : Body) (sett : Nat) (t : Stage) : Body :=
  let s := s.modSett sett fun x => { x with log := x.log - t.logged }
  let s := { s with coll := { s.coll with stages := s.coll.stages.filter fun u => u.key != t.key } }
  s.settleTd sett .tdWasted t.pendingSlots

/-- Drop every stage of a context. -/
def Body.dropStages (s : Body) (c : Ctx) : Body :=
  (s.coll.stages.filter fun t => t.key.ctx == c.key).foldl (fun s t => s.dropStage (s.settFor c) t) s

/-- OPLOW rises past every closed OPSEQ below the lowest one still open (08 R206). -/
def Body.raiseOplow (s : Body) (a : W32) : Body :=
  match s.group a with
  | none => s
  | some g =>
    let rel := fun (o : W32) => (opNum o + 2 ^ 28 - g.oplow) % 2 ^ 28
    let lowOpen := best (· < ·) ((s.coll.ctxs.filter fun c => c.key.g == a).map fun c => rel c.key.opseq)
    let closedRel := (s.coll.closed.filter fun x => x.1.g == a && rel x.1.opseq < 4096).map fun x => rel x.1.opseq + 1
    let top := (closedRel.filter fun n => match lowOpen with | some l => n ≤ l | none => true).foldl max 0
    let low := (g.oplow + top) % 2 ^ 28
    let s := s.modGroup a fun g => { g with oplow := low }
    { s with coll := { s.coll with closed := s.coll.closed.filter fun x =>
        x.1.g != a || (opNum x.1.opseq + 2 ^ 28 - low) % 2 ^ 28 < 4096 } }

/-- Chunks whose result stands: confirmed at the root, passed downward elsewhere and in PASS_THROUGH. -/
def Body.haveOf (s : Body) (c : Ctx) : List Nat := if s.isRoot c && c.st != .passThrough then c.confirmed else c.passed

/-- Ranks that a status lists, with SUSPECT in bit 31 (08 Table 8-9). -/
def Body.statusRanks (s : Body) (c : Ctx) (g : Group) (status : Nat) : List Nat :=
  let mark := fun r => r + (if (g.member r).suspect then 2 ^ 31 else 0)
  match status with
  | 2 => (sortNat c.fencedSince).map mark
  | 3 =>
    match (List.range c.nchunk).find? fun n => !((s.haveOf c).contains n) && !s.noResult c g n with
    | none => []
    | some n =>
      let t := s.stage ⟨c.key, n⟩
      let miss := (c.wanted g n).1.filter fun i => !(match t with
        | some t => t.inputs.any fun x => x.idx == i && x.complete
        | none => false)
      (sortNat (miss.filterMap fun i => match i with | .rank r => some r | .pod p => some p | .module _ => none)).map mark
  | _ => []

/-- Forget RPUT frames that waited for a context that has closed (08 R203, R207). -/
def Body.dropWaiting (s : Body) (c : Ctx) : Body :=
  c.waiting.foldl (fun s f => (s.bump .rputClosed (s.settFor c)).doneHere f) s

/-- Close a context with a status of Table 8-9. -/
def Body.closeCtx (s : Body) (k : CtxKey) (status cause : Nat) : Body :=
  match s.ctx k, s.group k.g with
  | some c, some g =>
    let ranks := s.statusRanks c g status
    let list := ranks.take 2042
    let s := if status != 0 && s.isRoot c then
        s.sendRecord c g 3 (recordHead c g 3 status cause (s.haveOf c).length ranks.length ++ rankWords list)
      else s
    let s := if status = 0 then s else
      s.emit 0x300 ([put k.opseq.toNat 32 + k.g.toNat, put ranks.length 18 + put c.flags.toNat 12 + put cause 8 + status]
        ++ ((rankWords (list.take 8)).map BitVec.toNat))
    let s := (s.dropStages c).dropWaiting c
    let s := s.releaseCtx c
    let s := { s with coll := { s.coll with ctxs := s.coll.ctxs.filter (fun d => d.key != k)
                                            closed := s.coll.closed ++ [(k, BitVec.ofNat 8 status)] } }
    (s.raiseOplow k.g).retryAll
  | _, _ => s

/-- Close a context whose every chunk has its result, with the first status of Table 8-9 that applies (08 Table 8-7, R215). -/
def Body.closeIfDone (s : Body) (k : CtxKey) : Body :=
  match s.ctx k, s.group k.g with
  | some c, some g =>
    let all := (List.range c.nchunk).all fun n => (s.haveOf c).contains n || s.noResult c g n
    let status := if !c.fencedSince.isEmpty then 2 else if c.st == .passThrough then 1 else 0
    if all && (c.st == .running || c.st == .passThrough) then s.closeCtx k status 0 else s
  | _, _ => s

end Sys2Proof.Machine
end

