-- ==== Sys2Proof/Machine/Mem.lean ====
section
/-! DEFINITION. Fabric memory as bytes, window areas, and PUT frames that the module itself sends (09 Tables 9-2, 9-5, R237, R244).
A byte that nothing has written reads 0: CREATE fills a window with zeros (09 R228). -/
namespace Sys2Proof.Machine

abbrev Memory := List Host.Cell

/-- Read one byte. -/
def Memory.get : Memory → Nat → Byte
  | [], _ => 0
  | (k, v) :: t, a => if k = a then v else Memory.get t a

/-- Write one byte; a zero byte is not listed. -/
def Memory.put : Memory → Nat → Byte → Memory
  | [], a, b => if b = 0 then [] else [(a, b)]
  | (k, v) :: t, a, b =>
    if a < k then (if b = 0 then (k, v) :: t else (a, b) :: (k, v) :: t)
    else if a = k then (if b = 0 then t else (k, b) :: t)
    else (k, v) :: Memory.put t a b

/-- Canonical form: addresses strictly rising, no zero byte listed. -/
def Memory.wf : Memory → Bool
  | [] => true
  | (k, v) :: t => v != 0 && (match t with | [] => true | (j, _) :: _ => decide (k < j)) && Memory.wf t

/-- The n bytes from an address. -/
def Memory.read (m : Memory) (a : Nat) : Nat → List Byte
  | 0 => []
  | n + 1 => m.get a :: Memory.read m (a + 1) n

/-- Write bytes from an address. -/
def Memory.write (m : Memory) (a : Nat) : List Byte → Memory
  | [] => m
  | b :: t => Memory.write (m.put a b) (a + 1) t

/-- Every byte of a range back to zero. -/
def Memory.clear (m : Memory) (a n : Nat) : Memory := m.filter fun c => c.1 < a || a + n ≤ c.1

/-! ### Windows -/

abbrev unitBytes : Nat := 2097152

def Body.win (s : Body) (wid : Nat) : Option Window := mget s.mss.windows wid

def Body.setWin (s : Body) (wid : Nat) (w : Window) : Body :=
  { s with mss := { s.mss with windows := mset s.mss.windows wid w } }

def Window.addr (w : Window) (off : Nat) : Nat := w.base * unitBytes + off

def Body.winRead (s : Body) (w : Window) (off n : Nat) : List Byte := Memory.read s.mss.mem (w.addr off) n

def Body.winWrite (s : Body) (w : Window) (off : Nat) (bs : List Byte) : Body :=
  { s with mss := { s.mss with mem := Memory.write s.mss.mem (w.addr off) bs } }

/-- Bytes of state per parameter (07 Table 7-11). -/
def Window.sb (w : Window) : Nat := 4 * ruleState w.rule

def Window.regionBytes (w : Window) : Nat := w.rp * w.sb

/-- FP32 words of a region's state, plane by plane (09 "In-fabric update"; entry 29). -/
def Body.regionState (s : Body) (w : Window) (c : Nat) : List W32 :=
  (pieces 4 (w.rp * ruleState w.rule) (s.winRead w (c * w.regionBytes) w.regionBytes)).map fun b => BitVec.ofNat 32 (beNat b)

def w32Bytes (l : List W32) : List Byte := l.flatMap fun x => beBytes 4 x.toNat

/-- A region marked dirty while a copy runs (09 R245). -/
def Window.touch (w : Window) (c : Nat) : Window :=
  match w.joining with
  | some j => if !j.shadow && !j.dirty.contains c then { w with joining := some { j with dirty := j.dirty ++ [c] } } else w
  | none => w

/-- Write a region's new state as one unit (07 R189). -/
def Body.writeRegion (s : Body) (wid : Nat) (w : Window) (c : Nat) (st : List W32) : Body :=
  (s.winWrite w (c * w.regionBytes) (w32Bytes st)).setWin wid (w.touch c)

/-- A region's step rises, and LAST_STEP with the last of them (09 R243). -/
def Body.regionDone (s : Body) (wid c : Nat) (step : W64) : Body :=
  match s.win wid with
  | none => s
  | some w =>
    let rs := if (mgetD w.regionStep c 0).toNat < step.toNat then mset w.regionStep c step else w.regionStep
    let all := (List.range w.nregion).all fun n => mgetD rs n 0 == step
    s.setWin wid { w with regionStep := rs, lastStep := if all then step else w.lastStep }

/-- The step's gradients of a region are with the other copy and not acknowledged: the region's state is written (09 R244). -/
def Body.gradientOut (s : Body) (wid c : Nat) (step : W64) : Bool :=
  s.mss.sent.any fun x => match x.2 with | .gradient v n t => v == wid && n == c && t == step | _ => false

/-- Region c of the window has the step's new state (09 R243). -/
def Body.regionAt (s : Body) (wid : Nat) (w : Window) (c : Nat) (step : W64) : Bool :=
  mgetD w.regionStep c 0 == step || s.gradientOut wid c step

/-- Die whose stack holds a byte of fabric memory: 4 KiB units in turn over the fitted stacks (09 R227; entry 30). -/
def Body.memDie (s : Body) (addr : Nat) : Nat :=
  let l := setBits 20 s.variant.fittedHbm
  nth l (addr / 4096 % max 1 l.length) 0 / 5

/-! ### Frames to another module's fabric memory -/

/-- A PUT from the module to module `idx` of a plane; `what` is kept until its answer when ACKREQ is set (02 R32). -/
def Body.ownPut (s : Body) (die plane idx wid off : Nat) (words : List W64) (what : Option Sent) : Body :=
  let tag := s.mss.nextTag
  let h := ownHdr s.own (infraAddr plane idx 0) opPut 3 words.length tag.toNat true what.isSome
  let x := memX off wid 0
  let s := { s with mss := { s.mss with nextTag := tag + 1, sent := match what with
    | some v => s.mss.sent ++ [(tag, v)]
    | none => s.mss.sent } }
  s.send die h x (mkRest h x words 0 0 tGood)

abbrev gradArea : Nat := 0x800000000000
abbrev digestArea : Nat := 0xC00000000000
abbrev slotArea : Nat := 0xFFFFFFFFF000

/-- Words of a 64-byte step descriptor, most significant first (07 Table 7-10). -/
def stepWords (d : BitVec 512) : List W64 := (pieces 8 8 (beBytes 64 d.toNat)).map fun b => BitVec.ofNat 64 (beNat b)

/-- Send a region's gradients to the other copy, up to 8,192 bytes a frame; the last one asks for an ACK (09 R244; entry 31). -/
def Body.sendGradients (s : Body) (die wid : Nat) (w : Window) (c : Nat) (gs : List W32) (what : Option Sent) : Body :=
  let fs := (pieces 2048 (gs.length + 1) gs).zipIdx
  fs.foldl (fun s f =>
    let last := f.2 + 1 == fs.length
    s.ownPut die w.bplane w.buddy wid (gradArea + 4 * (c * w.rp + 2048 * f.2)) (wordsOf (w32Bytes f.1))
      (if last then what else none)) s

end Sys2Proof.Machine
end

