-- ==== Sys2Proof/Machine/Stage.lean ====
section
/-! DEFINITION. Chunk stages at a Sett: accumulation, projection, conversion, update, checks, verdicts, poison and rebuild, the
frames of a result (03 R84-R89, 07 R171-R197, 08 R216-R219, 12 R308-R314). -/
namespace Sys2Proof.Machine

/-! ### Inputs and elements -/

/-- Frames of the input may be accumulated: an aliased rank waits for the first of its two senders (08 R217). -/
def eligible (c : Ctx) (i : Input) : Bool :=
  !i.lost && (match i.idx with | .rank r => !c.aliases.contains r || i.complete | _ => true)

/-- Weight of a Level 0 contribution (07 R174); one the host never supplied is unstated (entry 22). -/
def Ctx.weightOf (c : Ctx) (i : InIdx) : Option Num :=
  match i with
  | .rank r =>
    if c.weighs then
      some (decodeFmt 1 (match c.weights[r]? with | some w => w.toNat | none => (Config.unstated r).toNat % 2 ^ 32))
    else none
  | _ => none

def frameElems (c : Ctx) (n : Nat) (i : InIdx) (f : InFrame) : List Elem :=
  decodeElems (c.inFmt i) (c.inScaled i) c.ar.pair f.payload (c.inElems i n - f.off)

def frameAccs (c : Ctx) (n : Nat) (i : InIdx) (f : InFrame) : List Acc :=
  (frameElems c n i f).map (liftElem c.ar i.isModule (c.weightOf i))

/-- Where an input's element 0 is added: projected partials have a range of their own. -/
def Ctx.accBase (c : Ctx) (n : Nat) (i : InIdx) : Nat := if c.project && i.isModule then c.elems n else 0

def Ctx.accLen (c : Ctx) (n : Nat) : Nat := c.elems n + (if c.project then c.outElems n else 0)

/-- Every expected input is COMPLETE (08 R216). -/
def Ctx.inputsDone (c : Ctx) (g : Group) (t : Stage) : Bool :=
  let (w, one) := c.wanted g t.key.chunk
  let has := fun i => t.inputs.any fun x => x.idx == i && x.complete && !x.lost
  t.inputs.any (fun x => x.complete && !x.lost) && (if one then w.any has else w.all has)

/-- Every input of the chunk is confirmed (02 R50). -/
def Ctx.inputsConfirmed (c : Ctx) (t : Stage) : Bool :=
  t.inputs.all fun x => x.lost || x.confirmed || x.frames.isEmpty || (c.gone x.idx && !x.complete)

/-- Frames not yet accumulated, in arrival order. -/
def Stage.pending (c : Ctx) (t : Stage) : List (InIdx × InFrame) :=
  sortBy (fun a b => a.2.order < b.2.order)
    ((t.inputs.filter (eligible c)).flatMap fun i => (i.frames.filter fun f => !f.added).map fun f => (i.idx, f))

/-- First accumulator of a frame and the one after its last (07 R167). -/
def frameSpan (c : Ctx) (n : Nat) (q : InIdx × InFrame) : Nat × Nat :=
  let lo := c.accBase n q.1 + q.2.off
  (lo, lo + (frameElems c n q.1 q.2).length)

/-- The span holds the other. -/
def spans (a b : Nat × Nat) : Bool := Nat.ble a.1 b.1 && Nat.ble b.2 a.2

/-- Range of the next pass: that of the oldest frame, or the longest of a present frame that holds it. -/
def Stage.passSpan (c : Ctx) (t : Stage) : Nat × Nat :=
  let n := t.key.chunk
  match t.pending c with
  | [] => (0, 0)
  | p :: l => l.foldl (fun r q => let x := frameSpan c n q; if spans x r then x else r) (frameSpan c n p)

/-- The rows of the next pass: up to 16 inputs, each with its frames that lie in the range (07 R184). -/
def Stage.nextPass (c : Ctx) (t : Stage) : List (InIdx × List InFrame) :=
  let n := t.key.chunk
  let sp := t.passSpan c
  let fs := (t.pending c).filter fun q => spans sp (frameSpan c n q)
  let is := fs.foldl (fun (l : List InIdx) q => if l.contains q.1 then l else l ++ [q.1]) []
  (is.take 16).map fun i => (i, (fs.filter fun q => q.1 == i).map (·.2))

def markFrame (orders : List Nat) (f : InFrame) : InFrame := if orders.contains f.order then { f with added := true } else f

def Stage.markAdded (t : Stage) (orders : List Nat) : Stage :=
  { t with inputs := t.inputs.map fun i => { i with frames := i.frames.map (markFrame orders) } }

def Stage.accOr (c : Ctx) (t : Stage) : List (Option Acc) :=
  if t.acc.isEmpty then List.replicate (c.accLen t.key.chunk) none else t.acc

/-- Put frames' accumulator values at their places in a row of `len` positions that begins at element `lo` of the input. -/
def placeFrames (c : Ctx) (n : Nat) (i : InIdx) (lo len : Nat) (fs : List InFrame) : List (Option Acc) :=
  fs.foldl (fun (l : List (Option Acc)) f => (spliceAt l (f.off - lo) ((frameAccs c n i f).map some)).take len) (List.replicate len none)

/-- One pass over a range (07 R184); the pass is logged in FAST (12 R308). -/
def Stage.pass (c : Ctx) (t : Stage) (rows : List (InIdx × List InFrame)) : Stage × AFlags :=
  let n := t.key.chunk
  let sp := t.passSpan c
  let len := sp.2 - sp.1
  let accs := rows.map fun r => placeFrames c n r.1 (sp.1 - c.accBase n r.1) len r.2
  let acc := t.accOr c
  let r := passRange c.ar ((acc.drop sp.1).take len) accs
  let fs := rows.flatMap fun r => r.2.map fun f => (r.1, f)
  let nan := fs.foldl (fun (f : AFlags) q => f.or (nanInFlag c.ar q.1.isModule (frameElems c n q.1 q.2))) {}
  let t := t.markAdded (fs.map fun q => q.2.order)
  ({ t with acc := spliceAt acc sp.1 r.1
            log := if c.ar.mode = 0 then t.log ++ [fs.map fun q => (q.1, q.2.k)] else t.log }, r.2.or nan)

/-! ### ORDERED (07 R188) -/

/-- Rank that places an input: its own, its pod's lowest, or the RANK a partial carries. -/
def placeRank (t : Stage) : InIdx → Nat
  | .rank r => r
  | .pod p => p
  | .module m => match t.inputs.find? fun x => x.idx == .module m with
    | some x => (match x.frames with | f :: _ => rxRank f.ext | [] => 0)
    | none => 0

/-- Elements of an input at their places in the chunk (07 R167). -/
def inputAccs (c : Ctx) (n : Nat) (x : Input) : List (Option Acc) := placeFrames c n x.idx 0 (c.inElems x.idx n) x.frames

/-- Ranges of the accumulators in ORDERED: first element and length, local part then partials of a PROJECT context. -/
def Ctx.ordRanges (c : Ctx) (n : Nat) : List (Nat × Nat × Bool) :=
  let cut := fun (total step : Nat) (m : Bool) => (List.range (ceilDiv total (max 1 step))).map fun j => (j * step, min step (total - j * step), m)
  cut (c.elems n) (c.inFull (.rank 0)) false ++ (if c.project then cut (c.outElems n) (c.inFull (.module 0)) true else [])

/-- Sum one range over the positions of the list at open; an input that is not COMPLETE leaves its position empty. -/
def Stage.ordered (c : Ctx) (t : Stage) (r : Nat × Nat × Bool) : Stage × AFlags :=
  let n := t.key.chunk
  let part := c.expect.filter fun i => !c.project || i.isModule == r.2.2
  let pos := sortBy (fun a b => placeRank t a < placeRank t b) part
  let vals := pos.map fun i => match t.inputs.find? fun x => x.idx == i && !x.lost && x.complete with
    | some x => ((inputAccs c n x).drop r.1).take r.2.1
    | none => []
  let rs := (columns r.2.1 vals).map (orderedSum c.ar)
  let base := if r.2.2 then c.elems n else 0
  let fl := rs.foldl (fun (f : AFlags) x => f.or x.2) {}
  let hasNan := t.inputs.any fun x => x.frames.any fun y => (frameElems c n x.idx y).any (elemNan c.ar x.idx.isModule)
  let nan : AFlags := { nanIn := hasNan }
  let u := t.markAdded (t.inputs.flatMap fun x => x.frames.map (·.order))
  ({ u with acc := spliceAt (t.accOr c) (base + r.1) (rs.map (·.1)), ordDone := t.ordDone + 1 }, fl.or nan)

/-- Everything that arrived is in the accumulators. -/
def Ctx.allIn (c : Ctx) (t : Stage) : Bool :=
  if c.ar.mode = 2 then Nat.ble (c.ordRanges t.key.chunk).length t.ordDone else (t.pending c).isEmpty

/-! ### Result values -/

/-- Accumulators by output element, the local projection joined to the partials of other modules (07 R185), with the flags of
that addition. -/
def Ctx.joined (c : Ctx) (t : Stage) : List (Option Acc × AFlags) :=
  let acc := t.accOr c
  if c.project then (t.proj.zip (acc.drop (c.elems t.key.chunk))).map fun p => combineOpt c.ar p.1 p.2 else acc.map fun x => (x, {})

/-- Values before conversion, by output element. -/
def Ctx.values (c : Ctx) (t : Stage) : List Acc := (c.joined t).map fun x => accOrZero c.ar x.1

/-- Project the next range of accumulators (07 R185). -/
def Stage.projectNext (c : Ctx) (t : Stage) : Stage × AFlags :=
  let n := t.key.chunk
  let f := max 64 (c.inFull (.rank 0))
  let x := ((t.accOr c).take (c.elems n)).drop (4 * t.proj.length) |>.take f
  let (y, fl) := projectAll c.ar c.proj x
  ({ t with proj := (t.proj ++ y).take (c.outElems n) }, fl)

/-- Values of the whole chunk's gradient before GSCALE, as FP32 (09 R244). -/
def Ctx.gradients (c : Ctx) (t : Stage) : List W32 := (c.values t).map fun x => fp32Bits (accNum c.ar x)

/-- GUARD holds the chunk back: some element of g is not finite (07 R190). -/
def Ctx.held (c : Ctx) (t : Stage) : Bool :=
  let d := stepD c.step
  d.guard && (c.values t).any fun x => !(d.gradient (accNum c.ar x)).isFin

/-- New state and outputs of the elements of one output frame (07 R189-R192): w, m, v of each. -/
def Body.updateRange (s : Body) (c : Ctx) (t : Stage) (off len : Nat) : List (Num × Num × Num) :=
  match s.win (polWindow c.pol) with
  | none => []
  | some w =>
    let d := stepD c.step
    let old := s.regionState w t.key.chunk
    let at_ := fun (pl i : Nat) => fp32Num (nth old (pl * w.rp + i) 0)
    let done := t.noWrite || s.regionAt (polWindow c.pol) w t.key.chunk d.step
    let vs := c.values t
    (List.range len).map fun j =>
      let i := off + j
      if done then (at_ 0 i, at_ 1 i, at_ 2 i)
      else
        let r := d.apply (d.gradient (accNum c.ar (nth vs i (.num zero)))) (at_ 0 i) (at_ 1 i) (at_ 2 i)
        (fp32.rne r.1, fp32.rne r.2.1, fp32.rne r.2.2)

/-! ### Converting one output frame (07 R179-R183, R193) -/

/-- Elements of a payload as a receiver decodes them. -/
def Body.outDecoded (s : Body) (c : Ctx) (ws : List W64) (n : Nat) : List Elem :=
  decodeElems (s.outFmt c) (s.outScaled c) c.ar.pair ws n

/-- How an output element is rounded: SR at the root only (07 R183). -/
def Body.outRnd (s : Body) (c : Ctx) (n e : Nat) : Rnd := if s.isRoot c then finalRnd c.ar (gidOf c.key.g) n e else .rne

/-- Output frame k of a chunk with its flags and, under UPDATE, the elements' new state. -/
def Body.makeOut (s : Body) (c : Ctx) (t : Stage) (k : Nat) : OutFrame × AFlags × List W32 :=
  let n := t.key.chunk
  let full := s.outFull c
  let off := k * full
  let len := min full (c.outElems n - off)
  let fmt := s.outFmt c
  let upd := c.ar.rop == ropUpdate && s.isRoot c
  let st := if upd then s.updateRange c t off len else []
  let xs := if upd then st.map fun r => Acc.num r.1 else ((c.values t).drop off).take len
  let r := convertRange c.ar fmt (s.outScaled c) (s.outRnd c n) off xs
  let joins := ((c.joined t).drop off).take len |>.foldl (fun (f : AFlags) x => f.or x.2) {}
  let planes := match s.win (polWindow c.pol) with | some w => ruleState w.rule | none => 1
  let sa := sumsOf fmt (c.ar.exact && isFloat c.ar.ifmt && !s.isRoot c) (s.outDecoded c r.1 len)
  ({ k, off, payload := r.1, s := sa.1, a := sa.2 }, r.2.or joins,
   st.flatMap fun r => [fp32Bits r.1, fp32Bits r.2.1, fp32Bits r.2.2].take planes)

/-! ### Frames of a result (03 R85-R87, 08 R199, R428) -/

/-- Highest SPECHOPS among the unconfirmed inputs, plus one (02 R44). -/
def Ctx.hopsOf (c : Ctx) (t : Stage) : Nat :=
  1 + ((t.inputs.filter fun x => !x.lost && !x.confirmed && !(c.gone x.idx && !x.complete)).flatMap fun x =>
    x.frames.map fun f => rxHops f.ext).foldl max 0

/-- SPEC = 0: the Sett's own verdict is known and every input is confirmed, or an arbitration released the result (03 R85). -/
def Ctx.sure (c : Ctx) (t : Stage) : Bool := t.released || (t.verdict != .pending && c.inputsConfirmed t)

/-- The result is settled: checked and every input confirmed, or released by an arbitration. -/
def Ctx.settled (c : Ctx) (t : Stage) : Bool := t.released || (t.verdict == .good && c.inputsConfirmed t)

/-- DST of a result: the group, or the member that receives it (08 R199). -/
def Body.resultDst (s : Body) (c : Ctx) (g : Group) (n : Nat) : W32 :=
  if !s.isRoot c then c.key.g
  else match polDeliver c.pol with
    | 1 => (g.member (n % max 1 c.ownn)).ep
    | 2 => (g.member (polRoot c.pol)).ep
    | _ => c.key.g

/-- Copies of a frame to that DST; those for fenced members are dropped (08 R215). -/
def Body.resultTargets (s : Body) (c : Ctx) (g : Group) (n : Nat) : List (Option (Nat × W32)) × Body :=
  if !s.isRoot c then ([some (2, BitVec.ofNat 32 c.rootmod)], s)
  else
    let one := fun (r : Nat) => if (g.member r).fenced then ([], s.bump .replFenced 0) else ([none], s)
    match polDeliver c.pol with
    | 1 => one (n % max 1 c.ownn)
    | 2 => one (polRoot c.pol)
    | _ => s.replicaTargets (c.view g) (s.replAll (c.view g))

/-- Lowest rank a stage covers. -/
def Ctx.lowestRank (c : Ctx) (t : Stage) : Nat := (best (· < ·) (c.expect.map (placeRank t))).getD 0

/-- Reduce extension of frames of chunk n from this stage. -/
def Body.resultX (s : Body) (c : Ctx) (t : Stage) (clast : Bool) (hops : Nat) : BitVec 128 :=
  let root := s.isRoot c
  redX { group := gidOf c.key.g, epoch := c.epoch.toNat, opseq := c.key.opseq.toNat, chunk := t.key.chunk, fmt := s.outFmt c
         rop := c.ar.rop, rank := if root then 0 else c.lowestRank t, clast
         level := if root && c.levelc then 2 else 1, hops }

/-- Hand on one result frame to a DST with its targets. -/
def Body.sendOut (s : Body) (c : Ctx) (t : Stage) (f : OutFrame) (dst : W32) (ts : List (Option (Nat × W32))) (retx spec : Bool)
    (status : Nat) : Body :=
  let root := s.isRoot c
  let n := t.key.chunk
  let clast := f.k + 1 == s.outFrames c n
  let x := s.resultX c t clast (if spec then c.hopsOf t else 0)
  let h := { ownHdr s.own dst (if root then opRres else opRput) (if root then 2 else 1) f.payload.length (f.off / 32) true false
             with spec := spec, retx := retx }
  let h := sealHdr h
  s.originate (s.settFor c / 5) h x (mkRest h x f.payload f.s f.a status) ts

/-- Status of the CLAST tail as it leaves (03 R85). -/
def Ctx.clastStatus (c : Ctx) (t : Stage) : Nat :=
  if c.settled t then tGood else if t.verdict == .chkfail then tChkfail else tLate

/-- Send a frame of the stage's result, recording the CLAST frame. -/
def Body.sendResult (s : Body) (c : Ctx) (g : Group) (t : Stage) (f : OutFrame) : Body × Stage :=
  let n := t.key.chunk
  let clast := f.k + 1 == s.outFrames c n
  let (ts, s) := s.resultTargets c g n
  let st := if clast then c.clastStatus t else tGood
  let fid := s.fwc.nextFid
  let s := s.sendOut c t f (s.resultDst c g n) ts t.resend (!c.sure t) st
  let t := { t with sentFids := if ts.isEmpty then t.sentFids else t.sentFids ++ [fid] }
  (s, if clast then { t with clastSent := true, clastFid := fid, confSent := st != tLate } else t)

/-- CONF for a chunk to a DST with its targets (02 R49): verdict GOOD 0, POISON 1, CHKFAIL 2. -/
def Body.sendConf (s : Body) (c : Ctx) (t : Stage) (verdict : Nat) (dst : W32) (ts : List (Option (Nat × W32))) : Body :=
  let x := redX { group := gidOf c.key.g, epoch := c.epoch.toNat, opseq := c.key.opseq.toNat, chunk := t.key.chunk, fmt := s.outFmt c
                  rop := c.ar.rop }
  let h := ownHdr s.own dst opConf 0 1 0 true false
  s.originate (s.settFor c / 5) h x (mkRest h x [BitVec.ofNat 64 (put verdict 56)] 0 0 tGood) ts

/-- No copy of a frame has left its queue. -/
def Body.unlaunched (s : Body) (fid : Nat) : Bool :=
  (s.fwc.origWait.any fun w => w.frame.fid == fid)
    || (match s.frame fid with
        | some f => (s.tms.queue.filter fun e => e.copy.fid == fid && !e.held).length == f.copies && f.copies != 0
        | none => false)

def setStatus (f : BufFrame) (st : Nat) : BufFrame := { f with rest := f.rest.map fun r => { r with status := BitVec.ofNat 8 st } }

/-- The header of a CLAST frame that its Sett launches once the verdict is known: no longer speculative (03 R85, 13 R354). -/
def settleHead (f : BufFrame) : BufFrame :=
  let h := sealHdr { f.hdr with spec := false }
  let x := setFld f.ext 6 5 0
  { f with hdr := h, ext := x, rest := f.rest.map fun r => mkRest h x r.payload r.redS r.redA r.status.toNat }

/-- Rewrite the tail status of a frame that has not been launched, and its header where it waited for the verdict. -/
def Body.retail (s : Body) (fid st : Nat) (plain : Bool) : Body :=
  let fix := fun (f : BufFrame) => if plain then settleHead (setStatus f st) else setStatus f st
  { s with fwc := { s.fwc with
      frames := s.fwc.frames.map fun f => if f.fid = fid then fix f else f
      origWait := s.fwc.origWait.map fun w => if w.frame.fid = fid then { w with frame := fix w.frame } else w } }

/-- Tell the receivers of one copy of a LATE result its verdict: in the CLAST tail while it has not left, else by CONF (03 R85). -/
def Body.tellCopy (s : Body) (c : Ctx) (g : Group) (t : Stage) (verdict fid : Nat) (dst : W32)
    (ts : Body → List (Option (Nat × W32)) × Body) : Body :=
  if s.unlaunched fid then
    s.retail fid verdict (s.groupMinor g < 2 && (verdict == tGood || (verdict == tChkfail && c.inputsConfirmed t)))
  else
    let (l, s) := ts s
    (s.sendConf c t verdict dst l).setVerdict fid verdict

/-- Tell the members that R219 answered before the verdict. -/
def Body.tellAskers (s : Body) (c : Ctx) (g : Group) (t : Stage) (verdict : Nat) : Body × Stage :=
  (t.askers.foldl (fun s a => s.tellCopy c g t verdict a.2 a.1 fun s => ([none], s)) s, { t with askers := [] })

/-- Tell the receivers of a LATE chunk its verdict. -/
def Body.tellVerdict (s : Body) (c : Ctx) (g : Group) (t : Stage) (verdict : Nat) : Body × Stage :=
  if !t.clastSent || t.confSent then (s, t)
  else
    let s := s.tellCopy c g t verdict t.clastFid (s.resultDst c g t.key.chunk) fun s => s.resultTargets c g t.key.chunk
    s.tellAskers c g { t with confSent := true } verdict

/-! ### Work slots (13 R359) -/

/-- The Sett's slots are counted: it is in service or DUPLICATE, or serves as arbiter, partner or stand-in. -/
def slotsCount (x : Sett) : Bool := x.state == .inService || x.state == .duplicate || x.use != .none

/-- Slots that work, as counted by `c`, starve at the front, or at the back. -/
def Body.countSlots (s : Body) (sett : Nat) (c : Ctr) (work front back : Nat) : Body :=
  let add := fun (c : Ctr) (n : Nat) (s : Body) => if n = 0 then s else s.bumpBy c sett n
  if !slotsCount (s.sett sett) then s
  else
    let all := work + front + back
    let s := s.modSett sett fun x => { x with loadSlots := x.loadSlots + all, loadWork := x.loadWork + work + back }
    add .tdBack back (add .tdFront front (add c work (add .tdSlots all s)))

/-- One unit of `cycles` SCLK whose rows work, starve at the front, or at the back. -/
def Body.slots (s : Body) (sett cycles work front : Nat) : Body :=
  s.countSlots sett .tdPending (work * cycles) (front * cycles) ((16 - work - front) * cycles)

/-- The stage carries the slots of its units until its verdict. -/
def Stage.addSlots (t : Stage) (x : Sett) (cycles work front : Nat) : Stage :=
  if slotsCount x then
    { t with pendingSlots := t.pendingSlots + work * cycles, frontSlots := t.frontSlots + front * cycles
             backSlots := t.backSlots + (16 - work - front) * cycles }
  else t

/-- Pending slots of a chunk become retired or wasted. -/
def Body.settleSlots (s : Body) (sett : Nat) (t : Stage) (c : Ctr) : Body × Stage :=
  (s.settleTd sett c t.pendingSlots, { t with pendingSlots := 0, frontSlots := 0, backSlots := 0 })

/-! ### Poison and rebuild (03 R89) -/

/-- Inputs as they stand for a rebuild. -/
def rebuildInputs (keep : Input → Bool) (l : List Input) : List Input :=
  (l.filter keep).map fun x => { x with frames := x.frames.map fun f => { f with added := false } }

/-- Withdraw the copies of frames that have not been started (03 R89). -/
def Body.pullFrames (s : Body) (fids : List Nat) : Body :=
  let mine := fun (e : QEntry) => fids.contains e.copy.fid
  let es := s.tms.queue.filter mine
  let s := { s with fwc := { s.fwc with origWait := s.fwc.origWait.filter fun w => !fids.contains w.frame.fid } }
  es.foldl (fun s e => if e.held then s.collect e.copy.fid else s.releaseCopy e.copy.fid) (s.unqueueAll mine)

/-- The frame at a result's CLAST position that poisons it: zero payload, SPEC = 1, STATUS POISON (03 R89). -/
def Body.sendPoison (s : Body) (c : Ctx) (g : Group) (t : Stage) : Body :=
  let n := t.key.chunk
  let k := s.outFrames c n - 1
  let off := k * s.outFull c
  let len := wordsFor (s.outFmt c) (s.outScaled c) c.ar.pair (c.outElems n - off)
  let f : OutFrame := { k, off, payload := List.replicate len 0, s := 0, a := 0 }
  let (ts, s) := s.resultTargets c g n
  s.sendOut c t f (s.resultDst c g n) ts t.resend true tPoison

/-- Poison what has been sent of a stage's result: by CONF once its CLAST frame has left; before that its frames not started are
withdrawn and a POISON CLAST frame goes at once (03 R89). -/
def Body.disown (s : Body) (c : Ctx) (g : Group) (t : Stage) : Body × Stage :=
  if t.out.isEmpty then (s, t)
  else if t.clastSent && !s.unlaunched t.clastFid then s.tellVerdict c g t tPoison
  else ((s.pullFrames t.sentFids).sendPoison c g t).tellAskers c g { t with confSent := true } tPoison

/-- Discard the accumulation and any result, and start again from the inputs kept. -/
def Body.rebuild (s : Body) (c : Ctx) (g : Group) (t : Stage) (keep : Input → Bool) : Body :=
  let sett := s.settFor c
  let (s, t) := s.settleSlots sett t .tdWasted
  let (s, t) := s.disown c g t
  let s := s.modSett sett fun x => { x with log := x.log - t.logged }
  s.putStage { key := t.key, inputs := rebuildInputs keep t.inputs, nextOrder := t.nextOrder
               resend := t.resend || !t.out.isEmpty }

/-- An input is poisoned: its bits are cleared, and what was built on it is rebuilt. -/
def Body.poisonInput (s : Body) (c : Ctx) (g : Group) (k : StageKey) (bad : Input → Bool) : Body :=
  match s.stage k with
  | none => s
  | some t =>
    if t.confirmed then s
    else if t.inputs.any fun x => bad x && x.frames.any (·.added) then s.rebuild c g t fun x => !bad x
    else s.putStage { t with inputs := t.inputs.filter fun x => !bad x }

/-! ### Confirmation -/

/-- Write an UPDATE chunk's state and, for a mirrored window, send the gradients (07 R189, R191, 09 R243, R244, R246). -/
def Body.commit (s : Body) (c : Ctx) (t : Stage) : Body × Stage :=
  let wid := polWindow c.pol
  match s.win wid with
  | none => (s, t)
  | some w =>
    let n := t.key.chunk
    let step := (stepD c.step).step
    if t.noWrite || w.damaged || mgetD w.regionStep n 0 == step then (s, { t with written := true })
    else if s.gradientOut wid n step then (s, { t with written := true, owed := true })
    else
      let pl := ruleState w.rule
      let st := (List.range pl).flatMap fun p => (List.range w.rp).map fun i => nth t.newState (pl * i + p) 0
      let s := s.writeRegion wid w n st
      let die := s.settFor c / 5
      let slot := fun (s : Body) => if (s.ctx c.key).any (·.slotSent) then s else
        (s.modCtx c.key fun d => { d with slotSent := true }).ownPut die w.bplane w.buddy wid (slotArea + 64 * (step.toNat % 16))
          (stepWords c.step) (some (.stepSlot wid))
      if w.state = .primary then
        ((slot s).sendGradients die wid w n (c.gradients t) (some (.gradient wid n step)), { t with written := true, owed := true })
      else
        let s := s.regionDone wid n step
        let shadow := match w.joining with | some j => j.shadow && Nat.blt j.after.toNat step.toNat | none => false
        let s := if shadow then
            let s := (slot s).sendGradients die wid w n (c.gradients t) (some (.join wid))
            let dg := digestBytes (sha384 (w32Bytes st))
            s.ownPut die w.bplane w.buddy wid (digestArea + 64 * n) (wordsOf dg) (some (.digest wid n step))
          else s
        (s, { t with written := true })

/-- The Sett moves to the successor: what only the predecessor named returns to its pools. -/
def Body.chunkBoundary (s : Body) (k : CtxKey) : Body :=
  match s.ctx k with
  | none => s
  | some c =>
    if c.succ.isNone then s
    else
      let s := s.modSett c.sett fun x => { x with slots := min 384 (x.slots + c.trim.1) }
      let s := if c.trim.2 = 0 then s else { s with coll := { s.coll with scrub := s.coll.scrub ++ [(c.trim.2, 0)] } }
      let c := match c.nextPol with | some (p, q, d) => { c with sprof := p, prio := q, deadline := d } | none => c
      s.putCtx { c with trim := (0, 0), succ := none, nextPol := none, nextDepth := none, nextAlg := none
                        depth := c.nextDepth.getD c.depth, alg := c.nextAlg.getD c.alg }

/-- The chunk has its confirmed result at the root: deliver, count, release inputs and log (08 R206, 12 R308). -/
def Body.deliver (s : Body) (c : Ctx) (t : Stage) : Body :=
  let sett := s.settFor c
  let (s, t) := if c.ar.rop = ropUpdate then s.commit c t else (s, t)
  let (s, t) := s.settleSlots sett t .tdRetired
  let s := s.modSett sett fun x => { x with log := x.log - t.logged }
  let s := s.putStage { t with confirmed := true, inputs := [], log := [] }
  if t.owed then s
  else (s.modCtx c.key fun d => { d with confirmed := d.confirmed ++ [t.key.chunk] }).closeIfDone c.key

/-- Inputs allow confirmation: all are confirmed, or an arbitration released the result; state is written only for a confirmed
gradient (07 R189, 12 R314). -/
def Body.inputsAllow (s : Body) (c : Ctx) (t : Stage) : Bool :=
  c.inputsConfirmed t || (t.released && !(c.ar.rop == ropUpdate && s.isRoot c))

/-- A stage whose check passed and whose inputs are confirmed is confirmed; one whose check failed tells it once its inputs are
settled (03 R85). -/
def Body.settleStage (s : Body) (k : StageKey) : Body :=
  match s.stage k with
  | none => s
  | some t => match s.ctx k.ctx, s.group k.ctx.g with
    | some c, some g =>
      if t.confirmed || t.verdict == .pending || !s.inputsAllow c t || !t.clastSent then s
      else if t.verdict == .chkfail then
        let (s, t) := s.tellVerdict c g t tChkfail
        s.putStage t
      else
        let (s, t) := s.tellVerdict c g t tGood
        let s := if k.chunk = 0 then s.chunkBoundary c.key else s
        if s.isRoot c then s.deliver c t
        else
          let (s, t) := s.settleSlots (s.settFor c) t .tdRetired
          s.putStage { t with confirmed := true }
    | _, _ => s

/-! ### Checks (07 R194-R197) -/

/-- What ICK knows of an input. -/
def ickOf (c : Ctx) (n : Nat) (x : Input) : IckIn :=
  let fmt := c.inFmt x.idx
  let intF := isInt fmt
  let num := fun (w : W64) => if intF then numOfInt w.toInt else decodeFmt 0 w.toNat
  let es := x.frames.flatMap (frameElems c n x.idx)
  { w := c.weightOf x.idx
    s := dsum (x.frames.map fun f => num f.s)
    a := dsum (x.frames.map fun f => if intF then zero else decodeFmt 0 f.a.toNat)
    sInt := x.frames.foldl (fun a f => a + f.s) 0
    intFmt := intF
    finiteA := x.frames.all fun f => intF || (decodeFmt 0 f.a.toNat).isFin
    folds := es.map fun e => match e with | .int v => v | _ => 0
    fixedSum := es.foldl (fun s e => match liftElem c.ar x.idx.isModule none e with | .fixed v _ => s + v | _ => s) 0 }

def accsIn (c : Ctx) (l : List (Option Acc)) : List Acc := l.map (accOrZero c.ar)

/-- The inputs that a stage has summed. -/
def Ctx.summed (c : Ctx) (t : Stage) : List Input :=
  t.inputs.filter fun x => eligible c x && !x.frames.isEmpty && (c.ar.mode != 2 || x.complete)

/-- E of R194: the largest element count of an input frame of the chunk. -/
def Ctx.maxElems (c : Ctx) (t : Stage) : Nat :=
  (c.summed t).foldl (fun a x => x.frames.foldl (fun a f => max a (frameElems c t.key.chunk x.idx f).length) a) 0

/-- The projection of the stage is complete, or there is none. -/
def Ctx.projected (c : Ctx) (t : Stage) : Bool := !c.project || Nat.ble (c.outElems t.key.chunk) t.proj.length

/-- The accumulation check of a stage, with the partials of a PROJECT context judged as sums (07 R194); the projection is judged
once it is complete. -/
def Ctx.accOk (c : Ctx) (t : Stage) : Bool :=
  let n := t.key.chunk
  let ins := c.summed t
  let e := c.maxElems t
  let acc := t.accOr c
  if c.project then
    let loc := (ins.filter fun x => !x.idx.isModule).map (ickOf c n)
    let mods := (ins.filter fun x => x.idx.isModule).map (ickOf c n)
    let x := accsIn c (acc.take (c.elems n))
    (loc.isEmpty || (accCheck c.ar false loc e x
        && (!c.projected t || projCheck c.ar (ickTau loc e) x (accsIn c t.proj) c.proj)))
      && (mods.isEmpty || accCheck { c.ar with rop := ropSum } false mods e (accsIn c (acc.drop (c.elems n))))
  else accCheck c.ar c.weighs (ins.map (ickOf c n)) e (accsIn c acc)

/-- Values of an output frame with their decoded outputs: the new parameters of an UPDATE, the accumulators otherwise. -/
def Body.outTriples (s : Body) (c : Ctx) (t : Stage) (f : OutFrame) : List Conv :=
  let n := t.key.chunk
  let len := min (s.outFull c) (c.outElems n - f.off)
  let fmt := s.outFmt c
  let blk := blkOf fmt (s.outScaled c)
  let vs := if c.ar.rop == ropUpdate && s.isRoot c then (s.updateRange c t f.off len).map (·.1)
    else (((c.values t).drop f.off).take len).map (accNum c.ar)
  let bs := payloadBytes f.payload
  let exp := fun (i : Nat) => match blk with
    | some _ => ((nth bs (i / 256 * (8 * superWords fmt) + i % 256 / 32) 0).toNat : Int) - 127
    | none => 0
  let outs := (s.outDecoded c f.payload len).map fun e => match e with
    | .num x => x | .int v => numOfInt v | .pair v _ => pairNum c.ar.ifmt v
  ((vs.zip outs).zipIdx).map fun p =>
    { v := p.1.1, out := p.1.2, exp := exp p.2, ovf := convOver fmt blk (s.outRnd c n (f.off + p.2)) (exp p.2) p.1.1 }

/-- The conversion and plausibility checks over a stage whose every output frame is made (07 R195, R196). -/
def Body.outsPass (s : Body) (c : Ctx) (t : Stage) : Bool :=
  let n := t.key.chunk
  let fmt := s.outFmt c
  let ins := (c.summed t).map (ickOf c n)
  let trip := t.out.flatMap (s.outTriples c t)
  let sumA := dsum (ins.map fun i => (weighted i i.a).abs)
  let upd := c.ar.rop == ropUpdate && s.isRoot c
  let conv := isInt fmt || c.ar.pair || upd
    || convCheck (if s.isRoot c then c.ar else { c.ar with sr := false }) fmt (ickTau ins (c.maxElems t)) trip
  let mags := if c.project then
      dsum ((List.range 64).map fun i => ((List.range 16).foldl (fun a j => a.add (projAt c.proj i j)) zero).abs)
    else .fin false 1 0
  let bound := ((Num.fin false 2 0).mul mags).mul sumA
  let oldFin := match s.win (polWindow c.pol) with
    | some w => (s.regionState w n).all fun x => (fp32Num x).isFin
    | none => true
  let updFin := if upd then some (oldFin && (c.gradients t).all fun x => (fp32Num x).isFin) else none
  conv && plausible { c.ar with ofmt := fmt } (ins.all fun i => i.finiteA) bound (ins.any fun i => i.intFmt) updFin trip

/-- Input check of the arbiter: S and A recomputed bit for bit (12 R312). -/
def inputOk (c : Ctx) (n : Nat) (x : Input) : Bool :=
  x.frames.all fun f =>
    let codes := c.ar.exact && isFloat c.ar.ifmt && x.idx.isModule
    sumsOf (c.inFmt x.idx) codes (frameElems c n x.idx f) == (f.s, f.a)

end Sys2Proof.Machine
end

