-- ==== Sys2Proof/Machine/Rput.lean ====
section
/-! DEFINITION. RPUT, RRES, CONF and context records at a module; opening, admission and the transitions of Table 8-7
(08 R203-R220, R428; 10 R256, R261). -/
namespace Sys2Proof.Machine

/-! ### PASS_THROUGH (08 R211) -/

/-- Send a contribution on to the root member as a new RPUT. -/
def Body.forwardRoot (s : Body) (c : Ctx) (g : Group) (h : Hdr) (x : BitVec 128) (r : Rest) : Body :=
  s.originate (s.settFor c / 5) (sealHdr { h with dst := (g.member (polRoot c.pol)).ep, src := s.own }) x r [none]

/-- Staged inputs go on to the root member. -/
def Body.forwardStaged (s : Body) (c : Ctx) (g : Group) : Body :=
  let ts := s.coll.stages.filter fun t => t.key.ctx == c.key
  let fs := ts.flatMap fun t => sortBy (fun (a b : InFrame) => a.order < b.order) (t.inputs.flatMap fun x => x.frames)
  (fs.foldl (fun s f => s.forwardRoot c g f.hdr f.ext (mkRest f.hdr f.ext f.payload f.s f.a f.status)) s).dropStages c

/-! ### Acceptance of an RPUT (08 R213-R220, 07 R173) -/

/-- The chunk's result stands at this module: confirmed at the root, passed downward elsewhere. -/
def Body.hasResult (s : Body) (c : Ctx) (n : Nat) : Bool := (s.haveOf c).contains n

/-- The root holds the chunk's result: confirmed, or made and owed only its buddy's acknowledgement (08 R219, 09 R244). -/
def Body.holdsResult (s : Body) (c : Ctx) (n : Nat) : Bool :=
  s.hasResult c n || (match s.stage ⟨c.key, n⟩ with | some t => t.confirmed && t.owed | none => false)

/-- The lowest chunk whose result has not passed this level (08 R220). -/
def Body.lowChunk (s : Body) (c : Ctx) (g : Group) : Nat :=
  ((List.range c.nchunk).find? fun n => !s.hasResult c n && !s.noResult c g n).getD c.nchunk

/-- Input index of a frame (08 "Chunks, frames and the contributor bitmap"). -/
def Ctx.frameIdx (c : Ctx) (g : Group) (h : Hdr) (x : BitVec 128) : Option InIdx :=
  let lv := rxLevel x
  let r := rxRank x
  if lv = 0 then
    if rxPartial x then c.expect.find? fun i => match i with
      | .pod p => r < g.members.length && samePod (g.member p).ep (g.member r).ep
      | _ => false
    else some (.rank r)
  else if lv = 3 then none
  else if adPod h.src = 511 then some (.module (adIndex h.src)) else none

/-- The counter of the check that a frame of an open context fails, in PASS_THROUGH too; none when it passes (02 R42, 07 R168,
R173, 08 R213, R214). -/
def Ctx.formBars (c : Ctx) (g : Group) (h : Hdr) (x : BitVec 128) : Option Ctr :=
  let d := (c.epoch.toNat % 256 + 256 - rxEpoch x) % 256
  let lv := rxLevel x
  let fmt := if lv = 0 then c.ar.ifmt else c.ar.transit
  let blocked := (blkOf fmt (lv != 0 && c.ar.transitScaled)).isSome
  if rxFmt x > 9 || rxRop x > 10 then some .redBadEnc
  else if d != 0 then some (if d ≤ 127 then .rputStale else .rputEpochAhead)
  else if lv = 0 && !rxPartial x && (g.member (rxRank x)).fenced then some .rputFenced
  else if rxFmt x != fmt then some .redFmtMismatch
  else if rxRop x != c.ar.rop then some .redRopMismatch
  else if blocked && (h.len.toNat % superWords fmt != 0 || h.tag.toNat % 8 != 0) then some .redMxAlign
  else none

/-- The counter of the check that a frame fails before it reaches the bitmap (08 R216, R220). -/
def Body.rputBars (s : Body) (c : Ctx) (g : Group) (x : BitVec 128) : Option Ctr :=
  let n := rxChunk x
  if n ≥ s.lowChunk c g + c.depth then some .rputWindow
  else if n ≥ c.nchunk then some .rputUnexpected
  else none

/-- Send the held result of a chunk to one member again (08 R219); of an UPDATE chunk from the window (07 R191). -/
def Body.resendTo (s : Body) (c : Ctx) (n : Nat) (dst : W32) : Body :=
  if c.ar.rop = ropUpdate then
    let t : Stage := { key := ⟨c.key, n⟩, noWrite := true, released := true }
    (List.range (s.outFrames c n)).foldl (fun s k => s.sendOut c t (s.makeOut c t k).1 dst [none] true false tGood) s
  else match s.stage ⟨c.key, n⟩ with
    | some t => t.out.foldl (fun s f => s.sendOut c t f dst [none] true false tGood) s
    | none => s

/-- The root holds the whole result of a chunk whose verdict or inputs are not settled yet, and no arbitration holds it back
(08 R219, 12 R310). -/
def Body.heldEarly (s : Body) (c : Ctx) (n : Nat) : Option Stage :=
  match s.stage ⟨c.key, n⟩ with
  | some t => if s.isRoot c && c.ar.rop != ropUpdate && t.clastSent && !t.confirmed && t.verdict != .chkfail then some t else none
  | none => none

/-- Send such a result to one member, which hears its verdict with the others (08 R219, 03 R85). -/
def Body.answerEarly (s : Body) (c : Ctx) (t : Stage) (dst : W32) : Body :=
  let one := fun (s : Body) (f : OutFrame) => s.sendOut c t f dst [none] true (!c.sure t)
    (if f.k + 1 == s.outFrames c t.key.chunk then c.clastStatus t else tGood)
  let s := (t.out.dropLast).foldl one s
  let fid := s.fwc.nextFid
  let s := (t.out.drop (t.out.length - 1)).foldl one s
  s.putStage { t with askers := t.askers ++ [(dst, fid)] }

/-- The frame as a stage keeps it. -/
def toIn (k : Nat) (h : Hdr) (x : BitVec 128) (r : Rest) (order : Nat) : InFrame :=
  { k, off := 32 * h.tag.toNat, hdr := h, ext := x, payload := r.payload, s := r.redS, a := r.redA, status := r.status.toNat, order }

/-- Every position up to the CLAST frame is set (08 R216). -/
def Input.isComplete (x : Input) : Bool :=
  match x.last with
  | none => false
  | some l => (List.range (l + 1)).all fun k => x.frames.any fun f => f.k == k

/-- Status of the input's CLAST frame. -/
def Input.clastStatus (x : Input) : Option Nat := match x.last with
  | none => none
  | some l => (x.frames.find? fun f => f.k == l).map (·.status)

/-- COMPLETE and confirmed bits after a change (02 R50). -/
def Input.refresh (x : Input) : Input :=
  let d := x.isComplete
  { x with complete := d
           confirmed := x.confirmed || (d && (x.clastStatus == some tGood || (x.clastStatus == some tLate && x.confGood))) }

/-- Put an input back into a stage. -/
def Stage.setInput (t : Stage) (x : Input) : Stage :=
  let same := fun (y : Input) => y.idx == x.idx && y.alias_ == x.alias_
  { t with inputs := if t.inputs.any same then t.inputs.map (fun y => if same y then x else y) else t.inputs ++ [x] }

/-- The other sender of an aliased rank has lost: its staged frames go, each counted, and those still to come will be (08 R217). -/
def Body.loseAlias (s : Body) (sett : Nat) (t : Stage) (x : Input) : Body × Stage :=
  let s := match x.idx with
    | .rank q => s.modCtx t.key.ctx fun d =>
        if d.losers.contains (t.key.chunk, q, !x.alias_) then d else { d with losers := d.losers ++ [(t.key.chunk, q, !x.alias_)] }
    | _ => s
  let other := t.inputs.find? fun y => y.idx == x.idx && y.alias_ != x.alias_
  let n := match other with | some y => y.frames.length | none => 0
  let y : Input := { idx := x.idx, alias_ := !x.alias_, lost := true }
  (if n = 0 then s else s.bumpBy .rputAliasLost sett n, t.setInput y)

/-- A stage whose every expected input is COMPLETE takes its place in the order of completion (08 R221). -/
def Body.markDone (s : Body) (c : Ctx) (g : Group) (k : StageKey) : Body :=
  match s.stage k with
  | some t =>
    if t.doneSeq.isNone && c.inputsDone g t then
      let n := s.coll.doneSeq
      ({ s with coll := { s.coll with doneSeq := n + 1 } } : Body).putStage { t with doneSeq := some n }
    else s
  | none => s

/-- Judge a frame against the contributor bitmap and take it (08 R216, R217; 02 R50; 03 R84, R89); one taken is acknowledged when
it asks (02 R52). -/
def Body.bitmap (s : Body) (c : Ctx) (g : Group) (h : Hdr) (x : BitVec 128) (r : Rest) (good : Bool) : Body :=
  let sett := s.settFor c
  let key : StageKey := ⟨c.key, rxChunk x⟩
  let t := (s.stage key).getD { key }
  match c.frameIdx g h x with
  | none => s.bump .rputUnexpected sett
  | some i =>
    let aliased := match i with | .rank q => c.aliases.contains q | _ => false
    let al := rxAlias x
    let off := 32 * h.tag.toNat
    let k := off / max 1 (c.inFull i)
    let old := t.inputs.find? fun y => y.idx == i && y.alias_ == al
    let inp := old.getD { idx := i, alias_ := al, src := h.src }
    if !((c.wanted g key.chunk).1.contains i) || (al && !aliased) || off ≥ c.inElems i key.chunk
        || inp.last.any (fun l => k > l) then s.bump .rputUnexpected sett
    else if inp.lost then s.bump .rputAliasLost sett
    else if !good && !inp.confirmed then
      -- a poisoned frame poisons the input's chunk: its bits are cleared
      s.poisonInput c g key fun y => y.idx == i && y.alias_ == al
    else if inp.frames.any (fun f => f.k == k) || !good then s.bump .rputDup sett
    else
      let f := toIn k h x r t.nextOrder
      let inp := { inp with src := h.src, frames := inp.frames ++ [f], last := if rxClast x then some k else inp.last }.refresh
      let t := { t.setInput inp with nextOrder := t.nextOrder + 1 }
      let (s, t) := if aliased && inp.complete then s.loseAlias sett t inp else (s, t)
      let s := s.modSett sett fun y => { y with recent := 4 }
      -- the root's result of the chunk DEPTH before leaves its staging (08 R219)
      let old := fun (u : Stage) => u.key.ctx == c.key && u.key.chunk + c.depth == key.chunk && u.confirmed && !u.owed
      let s := if key.chunk ≥ c.depth then { s with coll := { s.coll with stages := s.coll.stages.filter fun u => !old u } } else s
      ((((s.putStage t).markDone c g key).settleStage key)).ackFrame (sett / 5) h

/-- A frame of a chunk whose result has passed this level and is no longer held: its bit is set, unless its sender lost the chunk
to its alias (08 R216, R217, R220; entry 62). -/
def Body.afterResult (s : Body) (c : Ctx) (g : Group) (h : Hdr) (x : BitVec 128) : Body :=
  let n := rxChunk x
  let i := c.frameIdx g h x
  let known := match i with
    | none => false
    | some i =>
      let aliased := match i with | .rank q => c.aliases.contains q | _ => false
      (c.wanted g n).1.contains i && (!rxAlias x || aliased) && 32 * h.tag.toNat < c.inElems i n
  let lost := match i with | some (.rank q) => c.losers.contains (n, q, rxAlias x) | _ => false
  s.bump (if !known then .rputUnexpected else if lost then .rputAliasLost else .rputDup) (s.settFor c)

/-- The Sett takes no RPUT: its arrival log has no room, or it is quarantined and no other stands in (12 R308, R316). -/
def Body.settBlocked (s : Body) (n : Nat) : Bool := (s.sett n).log ≥ 131072 || (s.sett n).state == .quarantined

/-- Setts whose full log keeps a whole RPUT frame waiting (12 R308). -/
def Body.logWaits (s : Body) : List Nat :=
  (List.range 20).filter fun n => (s.sett n).log ≥ 131072 && s.fwc.frames.any fun f =>
    f.hdr.opc.toNat == opRput && f.rest.isSome && (match f.here with
      | some (.sett k) => (s.ctx k).any fun c => c.st != .admitting && s.settFor c == n
      | _ => false)

/-- A microsecond in which such a Sett waits. -/
def Body.logTick (s : Body) : Body := s.logWaits.foldl (fun s n => s.bump .arbLogFull n) s

/-- Take an RPUT of a context whose descriptor is valid. -/
def Body.acceptRput (s : Body) (k : CtxKey) (fid : Nat) : Body :=
  match s.ctx k, s.group k.g, s.frame fid with
  | some c, some g, some f =>
    match f.rest with
    | none => s
    | some r =>
      let good := Rest.crcGood r f.hdr f.ext && r.status.toNat != tPoison && r.status.toNat != tChkfail && r.status.toNat ≤ 3
      let pass : Bool := c.st = CState.passThrough
      if s.settBlocked (s.settFor c) then s
      else
        let s' := match (c.formBars g f.hdr f.ext).or (if pass then none else s.rputBars c g f.ext) with
          | some ctr => s.bump ctr (s.settFor c)
          | none =>
            let n := rxChunk f.ext
            if pass then (s.forwardRoot c g f.hdr f.ext r).ackFrame f.die f.hdr
            else if s.holdsResult c n then
              if s.isRoot c && (c.ar.rop == ropUpdate || (s.stage ⟨c.key, n⟩).isSome) then s.resendTo c n f.hdr.src
              else s.afterResult c g f.hdr f.ext
            else if let some t := s.heldEarly c n then s.answerEarly c t f.hdr.src
            else s.bitmap c g f.hdr f.ext r good
        s'.doneHere fid
  | _, _, _ => s

/-- The frames that waited in the cell buffer go to the Sett in order (08 R207). -/
def Body.takeWaiting (s : Body) (k : CtxKey) : Body :=
  match s.ctx k with
  | none => s
  | some c => c.waiting.foldl (fun s f => s.acceptRput k f) (s.putCtx { c with waiting := [] })

/-! ### Transitions (08 Table 8-7) -/

/-- Lower the depth of a granted reservation by a successor descriptor, which the Sett moves to at the next chunk boundary; slots
only the predecessor names stay until then (01 R22, 10 R261). -/
def Body.trimCtx (s : Body) (c : Ctx) (depth : Nat) : Ctx :=
  if depth ≥ c.nextDepth.getD c.depth then c
  else
    let (st, wk) := s.needAt c depth
    let (sram, spill) := match c.grant with | 1 => (st + wk, 0) | 2 => (wk, st) | 3 => (0, st + wk) | _ => (0, 0)
    { c with nextDepth := some depth, sram := min sram c.sram, spill := min spill c.spill
             trim := (c.trim.1 + (c.sram - sram), c.trim.2 + (c.spill - spill)), succ := some (c.succ.getD 0 + 1) }

/-- Enter PASS_THROUGH: release the reservation, send on what is staged and what waits. A valid descriptor changes by a successor,
which the Sett moves to once nothing of the context is staged (01 R22). -/
def Body.enterPass (s : Body) (k : CtxKey) : Body :=
  match s.ctx k, s.group k.g with
  | some c, some g =>
    let next := fun (d : Ctx) => if d.valid then { d with nextAlg := some 2, succ := some (d.succ.getD 0 + 1) } else { d with alg := 2 }
    let s := (s.releaseCtx c).modCtx k fun d => { next d with st := .passThrough, valid := true }
    ((s.forwardStaged c g).chunkBoundary k).takeWaiting k
  | _, _ => s

/-- The root decides once it waits for ADMITs: all REDUCED, or one PASS_THROUGH. -/
def Body.checkAdmits (s : Body) (k : CtxKey) : Body :=
  match s.ctx k, s.group k.g with
  | some c, some g =>
    if c.st != .waitOpen || !s.isRoot c then s
    else
      let need := (s.moduleSet (c.view g)).filter fun m => m != s.moduleIndex
      if c.admits.any (fun a => !a.2.1) then (s.sendOpen { c with alg := 2 } g 1).enterPass k
      else if need.all fun m => c.admits.any fun a => a.1 == m then
        let d := c.admits.foldl (fun a x => min a x.2.2) c.depth
        let c := s.trimCtx c d
        let s := s.putCtx { c with st := .running }
        s.sendOpen c g 0
      else s
  | _, _ => s

/-- A reservation is granted (08 R223): the transitions out of ADMITTING. -/
def Body.grantWith (s : Body) (c : Ctx) (g : Group) (x : Nat × Nat × Nat × Nat) : Body :=
  let (depth, step, sram, spill) := x
  let s := s.modSett c.sett fun y => { y with slots := y.slots - sram, resident := if step ≤ 2 then y.resident - 1 else y.resident }
  let s := { s with coll := { s.coll with spillFree := s.coll.spillFree - spill } }
  let s := if spill = 0 then s else s.bump .ctxSpilled 0
  let alone := s.isRoot c && !c.levelc
  let c := { c with valid := true, depth, grant := step, sram, spill, st := if alone then .running else .waitOpen }
  let s := s.putCtx c
  let s := if alone then s.sendOpen c g 0 else if s.isRoot c then s else s.sendAdmit c g 0
  (s.takeWaiting c.key).checkAdmits c.key

/-- Try a context's reservation now; admissions queue while the control plane restarts (01 Table 1-5). -/
def Body.tryGrant (s : Body) (k : CtxKey) : Body :=
  match s.ctx k, s.group k.g with
  | some c, some g =>
    if c.st != .admitting || s.planes.controlRestart then s
    else match s.fit c with
      | some x => s.grantWith c g x
      | none => s
  | _, _ => s

/-- The admission order of R224. -/
def admitBefore (a b : Ctx) : Bool :=
  if a.prio != b.prio then a.prio > b.prio
  else if gidOf a.key.g != gidOf b.key.g then gidOf a.key.g < gidOf b.key.g
  else opNum a.key.opseq < opNum b.key.opseq

/-- Grant waiting contexts in order while one fits; `n` bounds how many. -/
def Body.grantAll (s : Body) : Nat → Body
  | 0 => s
  | n + 1 =>
    let ws := sortBy admitBefore (s.coll.ctxs.filter fun c => c.st == .admitting)
    match ws.find? fun c => (s.fit c).isSome with
    | some c => (s.tryGrant c.key).grantAll n
    | none => s

/-! ### Opening (08 R203) -/

/-- The first condition of R203 that an opening frame fails, by its counter. -/
def Body.openFails (s : Body) (g : Group) (k : CtxKey) (epoch : Nat) : Option Ctr :=
  let d := (g.epoch.toNat % 256 + 256 - epoch) % 256
  if g.state != .active then some .rputGroupState
  else if (mget g.policies (pselOf k.opseq)).isNone then some .rputNoPolicy
  else if (opNum k.opseq + 2 ^ 28 - g.oplow) % 2 ^ 28 ≥ 4096 then some .rputOpseqRange
  else if s.coll.closed.any fun x => x.1 == k then some .rputClosed
  else if d = 0 then none
  else if d ≤ 127 then some .rputStale
  else some .rputEpochAhead

/-- A context that cannot wait passes through: the others hear of it (08 Table 8-7, 14 R377). -/
def Body.passNow (s : Body) (k : CtxKey) : Body :=
  match s.ctx k, s.group k.g with
  | some c, some g =>
    (if s.isRoot c then s.sendOpen { c with alg := 2 } g 1 else s.sendAdmit { c with alg := 2 } g 1).enterPass k
  | _, _ => s

/-- Open a context with the frames and ADMITs that open it. -/
def Body.openCtx (s : Body) (k : CtxKey) (g : Group) (p : Policy) (waiting : List Nat) (admits : List (Nat × Bool × Nat)) : Body :=
  let (c, cause) := s.buildCtx k g p
  let s := { s with coll := { s.coll with ctxs := s.coll.ctxs ++ [{ c with waiting, admits }] } }
  if cause != 0 then s.closeCtx k 5 cause else if s.power.state = .removing then s.passNow k else s.tryGrant k

/-- The failure detector clears SUSPECT when a rank is heard from (12 R319). -/
def Body.heard (s : Body) (a src : W32) : Body :=
  match s.group a with
  | none => s
  | some g =>
    (g.members.zipIdx).foldl (fun s m =>
      if m.1.suspect && (m.1.ep == src || (m.1.aliasv && m.1.alias_ == src)) then
        (s.modGroup a fun g => { g with members := setNth g.members m.2 { m.1 with suspect := false, noPath := false } }).emit 0x303
          [put (if m.1.noPath then 1 else 2) 50 + put m.2 32 + a.toNat]
      else s) s

/-- An RPUT that is no context record reaches its Sett. -/
def Body.rput (s : Body) (fid : Nat) : Body :=
  match s.frame fid with
  | none => s
  | some f =>
    match f.here, f.rest with
    | some (.sett k), some _ =>
      if f.hdr.opc.toNat != opRput || rxChunk f.ext = recordChunk then s
      else match s.group k.g with
        | none => s.doneHere fid
        | some g =>
          let s := s.heard k.g f.hdr.src
          match s.ctx k with
          | some c =>
            if c.st = .admitting then
              if c.waiting.contains fid then s else s.putCtx { c with waiting := c.waiting ++ [fid] }
            else s.acceptRput k fid
          | none =>
            match s.openFails g k (rxEpoch f.ext) with
            | some ctr => (s.bump ctr 0).doneHere fid
            | none =>
              match mget g.policies (pselOf k.opseq) with
              | some p => s.openCtx k g p [fid] []
              | none => s.doneHere fid
    | _, _ => s

/-! ### Context records (08 R209, R210, 10 R256, R261) -/

/-- S of a record is the sum of its payload words. -/
def recordOk (r : Rest) : Bool := r.redS == sumWords r.payload

/-- A reduce frame with a reserved encoding is discarded and counted (02 R42). -/
def Body.badEnc (s : Body) (f : BufFrame) : Option Body :=
  if rxFmt f.ext > 9 || rxRop f.ext > 10 then some ((s.bump .redBadEnc 0).doneHere f.fid) else none

/-- The tail lets the module act on the payload (03 R84). -/
def usable (f : BufFrame) (r : Rest) : Bool :=
  Rest.crcGood r f.hdr f.ext && (r.status.toNat == tGood || r.status.toNat == tLate)

/-- An ADMIT record. -/
def Body.admitRec (s : Body) (fid : Nat) : Body :=
  match s.frame fid with
  | none => s
  | some f =>
    match f.here, f.rest with
    | some (.sett k), some r =>
      if f.hdr.opc.toNat != opRput || rxChunk f.ext != recordChunk then s
      else if let some t := s.badEnc f then t
      else
        let s' :=
          if !usable f r then s
          else if !recordOk r then s.bump .ctxrecBad 0
          else if kindOf r.payload != 2 || codeOf r.payload > 1 then s
          else
            let m := adIndex f.hdr.src
            let reduced := codeOf r.payload == 0
            let w0 := nth r.payload 0 0
            let dep := fld w0 42 38
            match s.ctx k, s.group k.g with
            | some c, _ =>
              if !s.isRoot c then s.bump .rootMismatch 0
              else
                let skew := fld w0 31 0 != c.epoch.toNat
                let s := if skew then s.bump .admitEpochSkew 0 else s
                let red := reduced && !skew && fld w0 47 43 == c.chunklog
                ((s.modCtx k fun c => { c with admits := c.admits.filter (fun a => a.1 != m) ++ [(m, red, dep)] }).checkAdmits k).ackFrame
                  f.die f.hdr
            | none, some g =>
              (match s.openFails g k (rxEpoch f.ext), mget g.policies (pselOf k.opseq) with
               | some ctr, _ => s.bump ctr 0
               | none, some p =>
                 let (c, _) := s.buildCtx k g p
                 if !s.isRoot c then s.bump .rootMismatch 0
                 else
                   let skew := fld w0 31 0 != g.epoch.toNat
                   let s := if skew then s.bump .admitEpochSkew 0 else s
                   let red := reduced && !skew && fld w0 47 43 == c.chunklog
                   (s.openCtx k g p [] [(m, red, dep)]).ackFrame f.die f.hdr
               | none, none => s)
            | none, none => s
        s'.doneHere fid
    | _, _ => s

/-- The frame came from another spine module: by its SRC, or by the link it came over (08 R428; entry 35). -/
def Body.fromSpine (s : Body) (f : BufFrame) : Bool :=
  s.isSpine f.hdr.src || (match f.origin with | .alp l _ => s.isSpine (s.lp l).peerId | _ => false)

/-- Entries that a downward frame goes to (08 R428). -/
def Body.downTargets (s : Body) (f : BufFrame) (g : Group) : List Repl := if s.fromSpine f then replDown g else s.replAll g

/-- Replicate a frame on its way down: to the list at the open of its context, or to the group's where it has none here (08 R202). -/
def Body.replicateDown (s : Body) (fid : Nat) (k : CtxKey) : Body :=
  match s.frame fid, s.group k.g with
  | some f, some g =>
    let v := match s.ctx k with | some c => c.view g | none => g
    s.replicate fid v (s.downTargets f v)
  | _, _ => s

/-- An OPEN record. -/
def Body.openRec (s : Body) (fid : Nat) : Body :=
  match s.frame fid with
  | none => s
  | some f =>
    match f.here, f.rest with
    | some (.sett k), some r =>
      if f.hdr.opc.toNat != opRres || rxChunk f.ext != recordChunk || kindOf r.payload != 1 then s
      else if let some t := s.badEnc f then t
      else if usable f r && !recordOk r then (s.bump .ctxrecBad 0).doneHere fid
      else
        let s := s.replicateDown fid k
        let s' :=
          if !usable f r then s
          else match s.ctx k, s.group k.g with
            | some c, some _ =>
              if c.st != .waitOpen || s.isRoot c then s
              else if codeOf r.payload = 0 then
                let c := s.trimCtx c (fld (nth r.payload 0 0) 42 38)
                s.putCtx { c with st := .running }
              else s.enterPass k
            | _, _ => s
        s'.doneHere fid
    | _, _ => s

/-- A CLOSE record, replicated to the group. -/
def Body.closeRec (s : Body) (fid : Nat) : Body :=
  match s.frame fid with
  | none => s
  | some f =>
    match f.here, f.rest with
    | some (.sett k), some r =>
      if f.hdr.opc.toNat != opRres || rxChunk f.ext != recordChunk || kindOf r.payload != 3 then s
      else if let some t := s.badEnc f then t
      else if usable f r && !recordOk r then (s.bump .ctxrecBad 0).doneHere fid
      else (s.replicateDown fid k).doneHere fid
    | _, _ => s

/-! ### Results and CONF on their way down (08 R428, 02 R49) -/

/-- A chunk's confirmed result has passed this module downward: its stage is released (12 R308). -/
def Body.passChunk (s : Body) (k : CtxKey) (n : Nat) : Body :=
  match s.ctx k with
  | none => s
  | some c =>
    if c.passed.contains n then s
    else
      let s := s.putCtx { c with passed := c.passed ++ [n], down := c.down.filter fun d => d.chunk != n }
      let s := match s.stage ⟨k, n⟩ with | some t => s.dropStage (s.settFor c) t | none => s
      s.closeIfDone k

/-- Every frame of a chunk on its way down has arrived good, and its verdict is GOOD (02 R50). -/
def Down.isDone (d : Down) : Bool :=
  (match d.last with | some l => (List.range (l + 1)).all fun k => d.ks.contains k | none => false) && (!d.late || d.conf)

def Ctx.downOf (c : Ctx) (n : Nat) : Option Down := c.down.find? fun d => d.chunk == n

def Ctx.setDown (c : Ctx) (d : Down) : Ctx := { c with down := c.down.filter (fun e => e.chunk != d.chunk) ++ [d] }

def Ctx.noDown (c : Ctx) (n : Nat) : Ctx := { c with down := c.down.filter fun d => d.chunk != n }

/-- Keep what is known of a chunk on its way down; once it is confirmed its result has passed (03 R86). -/
def Body.keepDown (s : Body) (c : Ctx) (d : Down) : Body :=
  let s := s.putCtx (c.setDown d)
  if d.isDone then s.passChunk c.key d.chunk else s

/-- One result frame on its way down; a bad one poisons its chunk. -/
def Body.downFrame (s : Body) (c : Ctx) (f : BufFrame) (r : Rest) : Body :=
  let n := rxChunk f.ext
  let st := r.status.toNat
  if !Rest.crcGood r f.hdr f.ext || st = tPoison || st = tChkfail || st > 3 then s.putCtx (c.noDown n)
  else
    let d := (c.downOf n).getD { chunk := n }
    let k := 32 * f.hdr.tag.toNat / max 1 (fullElems c.ar.ofmt c.ar.scaledOut c.ar.pair (polFrameb c.pol))
    let d := { d with ks := if d.ks.contains k then d.ks else d.ks ++ [k] }
    s.keepDown c (if rxClast f.ext then { d with last := some k, late := st == tLate } else d)

/-- The module awaits results of the context's chunk n on their way down. -/
def Body.awaitsDown (s : Body) (c : Ctx) (n : Nat) : Bool :=
  (c.st == .passThrough || (c.st == .running && !s.isRoot c)) && n < c.nchunk && !c.passed.contains n

/-- A result or CONF sent to the module's own address that matches nothing outstanding (02 R32). -/
def Body.unsolicited (s : Body) (f : BufFrame) (k : CtxKey) : Bool :=
  !isGroupAddr f.hdr.dst && (match s.ctx k with | some c => !s.awaitsDown c (rxChunk f.ext) | none => true)

/-- An RRES that is no record. -/
def Body.rres (s : Body) (fid : Nat) : Body :=
  match s.frame fid with
  | none => s
  | some f =>
    match f.here, f.rest with
    | some (.sett k), some r =>
      if f.hdr.opc.toNat != opRres || rxChunk f.ext = recordChunk then s
      else if let some t := s.badEnc f then t
      else if s.unsolicited f k then (s.bump .unsolicitedResp 0).doneHere fid
      else
        let s := s.replicateDown fid k
        (match s.ctx k with
          | some c => if s.awaitsDown c (rxChunk f.ext) then s.downFrame c f r else s
          | none => s).doneHere fid
    | _, _ => s

/-- An input of the chunk that awaits a CONF from this source, its CLAST frame arrived or not. -/
def awaits (src : W32) (x : Input) : Bool :=
  x.src == src && !x.confirmed && !x.lost && !x.frames.isEmpty && (x.last.isNone || x.clastStatus == some tLate)

/-- The inputs that awaited this source's CONF hold its verdict, and are confirmed once COMPLETE (02 R50). -/
def Stage.confirmFrom (t : Stage) (src : W32) : Stage :=
  { t with inputs := t.inputs.map fun x => if awaits src x then { x with confGood := true }.refresh else x }

/-- A CONF at the module (02 R49, R50). -/
def Body.conf (s : Body) (fid : Nat) : Body :=
  match s.frame fid with
  | none => s
  | some f =>
    match f.here, f.rest with
    | some (.sett k), some r =>
      if f.hdr.opc.toNat != opConf then s
      else
        let n := rxChunk f.ext
        let v := fld (nth r.payload 0 0) 63 56
        let key : StageKey := ⟨k, n⟩
        let up := match s.stage key with | some t => t.inputs.any (awaits f.hdr.src) | none => false
        let s' :=
          if !up && s.unsolicited f k then s.bump .unsolicitedResp 0
          else match s.ctx k, s.group k.g with
          | some c, some g =>
            if up then
              if !usable f r then s
              else if v = tGood then
                (match s.stage key with
                 | some t => (s.putStage (t.confirmFrom f.hdr.src)).settleStage key
                 | none => s)
              else s.poisonInput c g key (awaits f.hdr.src)
            -- a CONF of an input that no longer awaits one is discarded (03 R88)
            else if (s.isRoot c && s.isSpine f.hdr.src) || (!s.isSpine f.hdr.src && c.st != CState.passThrough) then s
            else
              let s := s.replicateDown fid k
              match c.downOf n with
              | some d =>
                if !usable f r then s
                else if v = tGood then s.keepDown c { d with conf := true }
                else s.putCtx (c.noDown n)
              | none => s
          | _, _ => s.replicateDown fid k
        s'.doneHere fid
    | _, _ => s

/-! ### The commands -/

def execRputArrival (fid : Nat) (s : State) : Ans := onData s fun b => b.rput fid

def execRresArrival (fid : Nat) (s : State) : Ans := onData s fun b => b.rres fid

def execConfArrival (fid : Nat) (s : State) : Ans := onData s fun b => b.conf fid

def execAdmitRecord (fid : Nat) (s : State) : Ans := onData s fun b => b.admitRec fid

def execOpenRecord (fid : Nat) (s : State) : Ans := onData s fun b => b.openRec fid

def execCloseRecord (fid : Nat) (s : State) : Ans := onData s fun b => b.closeRec fid

end Sys2Proof.Machine
end

