-- ==== Sys2Proof/Machine/Work.lean ====
section
/-! DEFINITION. What a Sett runs next and what follows from its checks: dispatch, verdicts, arbitration, duplicate operation,
quarantine, timers of chunks and contexts (10 R274-R277; 03 R85-R89; 12 R310-R318; 08 R218, R223-R225). -/
namespace Sys2Proof.Machine

/-! ### Power against clock (10 Table 10-6, R271) -/

/-- Interpolate in a table of points (x, y), y rising; beyond the ends the nearest segment's end value. -/
def interp : List (Nat × Nat) → Nat → Nat
  | [], _ => 0
  | [(_, y)], _ => y
  | (x, y) :: (x', y') :: t, v => if v ≤ x then y else if v ≤ x' then y + (y' - y) * (v - x) / (x' - x) else interp ((x', y') :: t) v

/-- P(f) of a Sett in mW; above 2.0 GHz at 2.75 W per 100 MHz. -/
def settPower (mhz : Nat) : Nat :=
  if mhz > 2000 then 33500 + (mhz - 2000) * 2750 / 100
  else interp [(600, 7000), (800, 9500), (1000, 12500), (1200, 16000), (1400, 19500), (1600, 23500), (1800, 28000), (2000, 33500)] mhz

/-- Power a Sett draws at a clock: 0.88 × P(f) at the margin voltage of a SUBJECT above SCLK_MAX's ladder (10 R271). -/
def settDraw (subject : Bool) (mhz : Nat) : Nat := if subject then settPower mhz * 88 / 100 else settPower mhz

/-- Charge of a unit in pJ: cycles × a × P(f) / f, rounded up (10 R275); `a` in hundredths. -/
def unitCharge (cycles a mhz : Nat) : Nat := ceilDiv (cycles * a * settPower mhz * 10) (max 1 mhz)

/-! ### Units (10 R274, R276) -/

inductive WorkUnit where
  | pass | ordered | project | output
deriving DecidableEq, Repr

/-- Elements of a format that the array takes in one SCLK (07 R184). -/
def lanesOf (fmt : Nat) : Nat := match fmtBits fmt with | 64 => 16 | 32 => 32 | _ => 64

/-- Activity weight of accumulation, in hundredths (10 Table 10-8). -/
def accWeight (a : Arith) : Nat := if a.exact then 115 else 100

/-- The next unit of a stage: kind, SCLK, weight; whether something else than input holds it back. -/
def Body.nextUnit (s : Body) (c : Ctx) (g : Group) (t : Stage) : Option (WorkUnit × Nat × Nat) :=
  let n := t.key.chunk
  let a := c.ar
  let running : Bool := c.st = CState.running
  let done := c.inputsDone g t
  let allIn := c.allIn t
  if t.confirmed || !(running || c.st = CState.waitOpen) then none
  else if a.mode = 2 && done && !allIn then
    match (c.ordRanges n)[t.ordDone]? with
    | some r => some (.ordered, ceilDiv r.2.1 (lanesOf a.ifmt) * ceilDiv (max 1 c.expect.length) 16, accWeight a)
    | none => none
  else if a.mode != 2 && !(t.nextPass c).isEmpty then
    let sp := t.passSpan c
    let lanes := (t.nextPass c).foldl (fun m p => min m (lanesOf (c.inFmt p.1))) 64
    some (.pass, ceilDiv (sp.2 - sp.1) lanes, accWeight a)
  else if !running || !done || !allIn then none
  else if c.project && t.proj.length < c.outElems n then some (.project, ceilDiv (min (c.elems n) (c.inFull (.rank 0))) 64, 140)
  else if t.out.length < s.outFrames c n && (s.isRoot c || Nat.blt n (s.lowChunk c g + c.depth)) then
    let upd := a.rop == ropUpdate && s.isRoot c
    some (.output, ceilDiv (min (c.outElems n) (s.outFull c)) (if upd then 64 else lanesOf (s.outFmt c)), if upd then 125 else 50)
  else none

/-- The unit's output has credit and its SPECHOPS is at most 3 (03 R87, 10 R276). -/
def Body.unitFree (s : Body) (c : Ctx) (t : Stage) : WorkUnit → Bool
  | .output => !s.originHolds (s.settFor c) && (c.sure t || c.hopsOf t ≤ 3)
  | .project => !s.originHolds (s.settFor c)
  | _ => true

/-- Hall time of a context's DEADLINE, ns. -/
def Ctx.due (c : Ctx) : Nat := c.opened.toNat + c.deadline * 1000

def Body.urgent (s : Body) (c : Ctx) : Bool := c.due ≤ s.clock.ns.toNat + s.profiles.inForce.urgentT * 1000

/-- Effective class (10 R276). -/
def Body.effClass (s : Body) (c : Ctx) : Nat := min 7 (c.prio + (s.clock.ns.toNat - c.since.toNat) / 2000000)

/-- The order of R276. -/
def Body.workBefore (s : Body) (a b : Ctx) : Bool :=
  if s.urgent a != s.urgent b then s.urgent a
  else if s.urgent a && a.due != b.due then a.due < b.due
  else if s.effClass a != s.effClass b then s.effClass a > s.effClass b
  else if gidOf a.key.g != gidOf b.key.g then gidOf a.key.g < gidOf b.key.g
  else opNum a.key.opseq < opNum b.key.opseq

/-- Stages of a context, those complete first and in the order they became so (08 R221). -/
def Body.stagesIn (s : Body) (c : Ctx) : List Stage :=
  let ts := s.coll.stages.filter fun t => t.key.ctx == c.key
  sortBy (fun a b => a.doneSeq.getD 0 < b.doneSeq.getD 0) (ts.filter fun t => t.doneSeq.isSome) ++ ts.filter fun t => t.doneSeq.isNone

/-- Units of a Sett's contexts. -/
def Body.unitsOf (s : Body) (n : Nat) : List (Ctx × Group × Stage × WorkUnit × Nat × Nat) :=
  (s.coll.ctxs.filter fun c => s.settFor c == n).flatMap fun c =>
    match s.group c.key.g with
    | none => []
    | some g => (s.stagesIn c).filterMap fun t =>
        (s.nextUnit c g t).map fun u => (c, g, t, u)

def gatherCtx (s : Body) (k : CtxKey) (f : AFlags) : Body := s.modCtx k fun d => { d with flags := gatherFlags d.flags f }

/-- Carry out one unit. -/
def Body.runUnit (s : Body) (n : Nat) (c : Ctx) (g : Group) (t : Stage) (u : WorkUnit × Nat × Nat) : Body :=
  let cyc := u.2.1
  let add := fun (t : Stage) (work front : Nat) => t.addSlots (s.sett n) cyc work front
  match u.1 with
  | .pass =>
    let rows := t.nextPass c
    let (t', f) := t.pass c rows
    let s := s.slots n cyc rows.length (16 - rows.length)
    let s := s.modSett n fun x => { x with log := x.log + (t'.logged - t.logged) }
    gatherCtx (s.putStage (add t' rows.length (16 - rows.length))) c.key f
  | .ordered =>
    match (c.ordRanges t.key.chunk)[t.ordDone]? with
    | none => s
    | some r =>
      let (t', f) := t.ordered c r
      let rows := min 16 c.expect.length
      gatherCtx ((s.slots n cyc rows (16 - rows)).putStage (add t' rows (16 - rows))) c.key f
  | .project =>
    let (t', f) := t.projectNext c
    gatherCtx ((s.slots n cyc 1 0).putStage (add t' 1 0)) c.key f
  | .output =>
    let upd := c.ar.rop == ropUpdate && s.isRoot c
    let held := upd && c.held t
    let t := if held then { t with noWrite := true } else t
    let s := if held then gatherCtx s c.key { nonfinite := true } else s
    let (o, f, st) := s.makeOut c t t.out.length
    let s := gatherCtx s c.key f
    let work := if upd then 16 else 0
    let s := s.slots n cyc work 0
    let t := { t with out := t.out ++ [o], newState := t.newState ++ st }
    let t := add t work 0
    let (s, t) := s.sendResult c g t o
    (s.putStage t).settleStage t.key

/-- Stages that a fence has made complete take their place in the order of completion (08 R214, R221). -/
def Body.markAll (s : Body) (n : Nat) : Body :=
  (s.coll.ctxs.filter fun c => s.settFor c == n).foldl (fun s c => match s.group c.key.g with
    | some g => (s.coll.stages.filter fun t => t.key.ctx == c.key).foldl (fun s t => s.markDone c g t.key) s
    | none => s) s

/-- Count a result that waits for its hops, once (03 R87). -/
def Body.countHops (s : Body) (n : Nat) (t : Stage) : Body :=
  if t.hopsHeld then s else (s.putStage { t with hopsHeld := true }).bump .specHoldHops n

/-- One dispatch of Sett n (10 R275, R276): the first unit in order whose charge fits the energy of the period. -/
def Body.dispatch (s : Body) (n : Nat) : Body :=
  let s := s.markAll n
  let us := s.unitsOf n
  let free := us.filter fun u => s.unitFree u.1 u.2.2.1 u.2.2.2.1
  let sclk := (s.sett n).sclk
  let fits := free.filter fun u => unitCharge u.2.2.2.2.1 u.2.2.2.2.2 sclk ≤ (s.sett n).energy
  -- a context with no ready unit waits from now (10 R276)
  let idle := fun (c : Ctx) => s.settFor c == n && !free.any fun u => u.1.key == c.key
  let s0 := { s with coll := { s.coll with ctxs := s.coll.ctxs.map fun c => if idle c then { c with since := s.clock.ns } else c } }
  let late := us.filter fun u => u.2.2.2.1 == .output && !(u.1.sure u.2.2.1) && u.1.hopsOf u.2.2.1 > 3
  let s0 := late.foldl (fun s u => s.countHops n u.2.2.1) s0
  match best (fun a b => s.workBefore a.1 b.1) fits with
  | none => if us.isEmpty then s0.slots n 1 0 16 else s0.slots n 1 0 0
  | some (c, g, t, u) =>
    let charge := unitCharge u.2.1 u.2.2 sclk
    let s := s0.modSett n fun x => { x with energy := x.energy - charge }
    let fresh := !c.started.contains t.key.chunk
    let s := s.modCtx c.key fun d => { d with since := s.clock.ns, started := if fresh then d.started ++ [t.key.chunk] else d.started }
    let s := if fresh then s.chunkBoundary c.key else s
    s.runUnit n c g t u

/-! ### Helpers: arbiter, partner, stand-in (12 R311, R315, R316) -/

def ringSucc : Nat → Nat | 0 => 1 | 1 => 3 | 3 => 2 | _ => 0
def ringPred : Nat → Nat | 0 => 2 | 1 => 0 | 3 => 1 | _ => 3
def diagonal (d : Nat) : Nat := 3 - d

/-- The die's own, then those of the ring successor, predecessor and the diagonal die. -/
def ringOrder (d : Nat) : List Nat := [d, ringSucc d, ringPred d, diagonal d]

/-- A SPARE that is neither a stand-in nor a duplicate partner. -/
def freeSpare (x : Sett) : Bool :=
  x.state == .spare && (match x.use with | .partner _ => false | .standIn _ => false | _ => true)

/-- A lent SPARE is free again. -/
def Body.returnSpare (s : Body) (n : Nat) : Body :=
  match s.integ.borrowed.find? fun x => x.1 == n with
  | none => s
  | some x => { s.modSett x.2 fun y => { y with use := .none } with integ := { s.integ with borrowed := s.integ.borrowed.erase x } }

/-- Abandon a SUBJECT's test: the Sett returns to nominal clock and becomes a free SPARE, or is in service again where its die had
borrowed one (12 R311; entry 46). -/
def Body.abortTest (s : Body) (n : Nat) : Body :=
  let lent := s.integ.borrowed.any fun x => x.1 == n
  ((s.modSett n fun x => { x with state := if lent then .inService else .spare, use := .none, test := .none }).returnSpare n).bump
    .testAborted n

/-- Steps 1 to 3 of R311 for a Sett of a die; `n` itself is not taken. -/
def Body.helper (s : Body) (n : Nat) : Option Nat × Body :=
  let die := n / 5
  let all := (ringOrder die).flatMap settsOf
  match all.find? fun k => k != n && freeSpare (s.sett k) with
  | some k => (some k, s)
  | none =>
    match all.find? fun k => k != n && (s.sett k).state == .subject && (s.sett k).test == .running with
    | some k => (some k, s.abortTest k)
    | none => (s.leastLoaded (((List.range 20).filter fun k => k / 5 != die && (s.sett k).state == .inService)), s)

/-- The Sett-selection table: the Setts that take new contexts in turn over the 256 entries, by a flip (10 R257, 12 R317; entry
19). -/
def Body.fillSelection (s : Body) : Body :=
  let l := (List.range 20).filter fun n => takesNew (s.sett n)
  if l.isEmpty then s
  else
    let m : Map (BitVec 8) := (List.range 256).map fun i => (i, BitVec.ofNat 8 (nth l (i % l.length) 0))
    { s with tables := { s.tables with settSel := (s.tables.settSel.setShadow m).flip } }

/-- The flip waits while the control plane restarts (01 Table 1-5). -/
def Body.reselect (s : Body) : Body :=
  if s.planes.controlRestart then { s with planes := { s.planes with ctlQueue := s.planes.ctlQueue ++ [.select] } } else s.fillSelection

/-- A SPARE called into service runs at the SCLK of an in-service Sett of its die until its own grant (10 R270; entry 42). -/
def Body.callSpare (s : Body) (n : Nat) (use : SettUse) : Body :=
  let f := match (s.inServiceOf (n / 5)).find? fun k => k != n with | some k => (s.sett k).sclk | none => 600
  s.modSett n fun x => { x with use, sclk := f, energy := settPower f * 10000 }

/-- Stages of the contexts a Sett serves. -/
def Body.stagesOn (s : Body) (n : Nat) : List (Ctx × Stage) :=
  (s.coll.ctxs.filter fun c => s.settFor c == n).flatMap fun c =>
    (s.coll.stages.filter fun t => t.key.ctx == c.key).map fun t => (c, t)

/-- A DUPLICATE Sett takes a partner, chosen as an arbiter is (12 R315). -/
def Body.takePartner (s : Body) (n : Nat) : Body :=
  match s.helper n with
  | (some k, s) =>
    if (s.sett k).state = SettState.spare then s.callSpare k (.partner n) else s.modSett k fun x => { x with use := .partner n }
  | (none, s) => s

/-- A Sett's checker leaves service: DUPLICATE with a partner, and its die's next test subject (12 R315). -/
def Body.enterDuplicate (s : Body) (n : Nat) : Body :=
  let s := (s.modSett n fun x => { x with state := .duplicate }).takePartner n
  { s with integ := { s.integ with arbTestNext := s.integ.arbTestNext ++ [n] } }

/-- A Sett enters service; one whose checker is still out runs in DUPLICATE (12 R315, R330; entry 46). -/
def Body.intoService (s : Body) (n : Nat) : Body :=
  let s := s.modSett n fun x => { x with state := .inService }
  if (s.sett n).degraded.length ≥ 3 then s.enterDuplicate n else s

/-! ### Arbitration (12 R310-R314) -/

/-- The event of a verdict (13 Table 13-9). -/
def Body.arbEvent (s : Body) (k : StageKey) (sett verdict : Nat) : Body :=
  s.emit 0x500 [put k.ctx.opseq.toNat 32 + k.ctx.g.toNat, put verdict 29 + put sett 24 + k.chunk % 2 ^ 24]

/-- Poison the chunk: every input's bits are cleared. -/
def Body.poisonChunk (s : Body) (c : Ctx) (g : Group) (k : StageKey) : Body :=
  match s.stage k with
  | some t => s.rebuild c g t fun _ => false
  | none => s

/-- A verdict of CHKFAIL opens an arbitration, which ends at once when no Sett can serve (12 R310, R311). -/
def Body.openArb (s : Body) (c : Ctx) (g : Group) (k : StageKey) : Body :=
  let n := s.settFor c
  match s.helper n with
  | (some a, s) =>
    let s := if (s.sett a).state = SettState.spare then s.callSpare a .arbiter else s
    match s.stage k with | some t => s.putStage { t with arb := some a } | none => s
  | (none, s) =>
    let s := (s.bump .arbUnresolved n).bump .arbNoArbiter n
    let s := (s.arbEvent k n 4).poisonChunk c g k
    { s with integ := { s.integ with arbTestNext := s.integ.arbTestNext ++ [n] } }

/-- The arbiter is free again once no stage is recomputed on it. -/
def Body.freeArbiter (s : Body) (a : Nat) : Body :=
  if s.coll.stages.any fun t => t.arb == some a then s
  else s.modSett a fun x => if x.use = .arbiter then { x with use := .none } else x

/-- What a quarantined Sett did for others: a DUPLICATE Sett takes another partner, a stage another arbiter (12 R311, R315). -/
def Body.leaveHelped (s : Body) (n : Nat) (was : SettUse) : Body :=
  let s := match was with | .partner m => s.takePartner m | _ => s
  (s.coll.stages.filter fun t => t.arb == some n).foldl (fun s t => match s.ctx t.key.ctx, s.group t.key.ctx.g with
    | some c, some g => s.openArb c g t.key
    | _, _ => s) s

/-- Quarantine a Sett (12 R316, R318); cause 1 arbitration, 2 duplicate, 3 test. -/
def Body.quarantine (s : Body) (n cause : Nat) : Body :=
  if (s.sett n).state = .quarantined then s
  else
    let placed := s.stagesOn n
    let was := (s.sett n).use
    let s := placed.foldl (fun s p =>
      match s.group p.1.key.g, s.stage p.2.key with
      | some g, some t => if t.confirmed then s else s.rebuild p.1 g t fun _ => true
      | _, _ => s) s
    let s := placed.foldl (fun s p => match p.2.arb with | some a => s.freeArbiter a | none => s) s
    let s := s.modSett n fun x => { x with state := .quarantined, use := .none, test := .none, energy := 0 }
    let s := { s with setts := s.setts.map fun (x : Nat × Sett) => (x.1, if x.2.use = SettUse.partner n then { x.2 with use := .none } else x.2) }
    let s := s.leaveHelped n was
    let (h, s) := match s.helper n with
      | (some h, s) => (some h, s)
      | (none, s) => (s.leastLoaded ((settsOf (n / 5)).filter fun k => k != n && (s.sett k).state == SettState.inService), s)
    let s := match h with
      | none => s
      | some h =>
        let s := s.modSett n fun x => { x with heir := some h }
        if (s.sett h).state = SettState.spare then (s.callSpare h (.standIn n)).intoService h else s
    let s := { s with mram := { s.mram with quarantine := s.mram.quarantine ++ [n] } }
    s.reselect.emit 0x501 [put cause 8 + n]

/-- ICK's verdict on a stage: CHKFAIL as soon as a check fails whose data is complete, GOOD once all three passed (07 R197). A
CONF of it waits for the inputs (03 R85). -/
def Body.verdict (s : Body) (k : StageKey) (faulty : Bool) : Body :=
  match s.stage k, s.ctx k.ctx, s.group k.ctx.g with
  | some t, some c, some g =>
    let ready := c.inputsDone g t && c.allIn t && !t.acc.isEmpty
    let whole := t.out.length == s.outFrames c k.chunk
    if t.verdict != .pending || !ready || (s.sett (s.settFor c)).state = .duplicate then s
    else if faulty || !c.accOk t || (whole && !s.outsPass c t) then
      let t := { t with verdict := .chkfail }
      let (s, t) := if s.unlaunched t.clastFid || c.inputsConfirmed t then s.tellVerdict c g t tChkfail else (s, t)
      (s.putStage t).openArb c g k
    else if whole then (s.putStage { t with verdict := .good }).settleStage k
    else s
  | _, _, _ => s

/-- Release a result under an arbitration: new frames with SPEC = 0, RETX = 1, GOOD (12 R314). What went before is told off first,
by its verdict or, while its CLAST frame is not made, by a POISON frame there (03 R89). -/
def Body.releaseResult (s : Body) (c : Ctx) (g : Group) (t : Stage) : Body :=
  let (s, t) := if t.clastSent then s.tellVerdict c g t tChkfail else s.disown c g t
  let t := { t with released := true, resend := true, verdict := .good, arb := none, clastSent := false, confSent := false }
  let (s, t) := t.out.foldl (fun (p : Body × Stage) f => p.1.sendResult c g p.2 f) (s, t)
  (s.putStage t).settleStage t.key

/-- A CHECKER_FAULT raises CHK_DEGRADED; three within ten minutes take the checker out of service (12 R313, R315). -/
def Body.checkerFault (s : Body) (n : Nat) : Body :=
  let now := s.clock.ns.toNat
  let s := s.modSett n fun x => { x with degraded := (x.degraded ++ [now]).filter fun t => now ≤ t + 600000000000 }
  if (s.sett n).degraded.length ≥ 3 && (s.sett n).state = .inService then s.enterDuplicate n else s

/-- An arbiter or partner has computed the stage again (13 R359). -/
def Body.recomputed (s : Body) (m : Nat) (t : Stage) (c : Ctr) : Body := s.countSlots m c t.pendingSlots t.frontSlots t.backSlots

/-- Table 12-2. `a` is the arbiter, `differs` the comparison, `checkOk` the arbiter's own check. -/
def Body.judge (s : Body) (c : Ctx) (g : Group) (t : Stage) (a : Nat) (differs checkOk : Bool) (cause : Nat) : Body :=
  let n := s.settFor c
  let k := t.key
  let bad := t.inputs.filter fun x => !x.lost && !inputOk c k.chunk x
  let isBad := fun (x : Input) => bad.any fun y => y.idx == x.idx && y.alias_ == x.alias_
  let s := s.putStage { t with arb := none }
  let s := (s.recomputed a t .tdWasted).freeArbiter a
  if differs && checkOk then
    let s := (s.bump .arbOriginal n).arbEvent k n 1
    -- the released result is the arbiter's, so the stage is settled before the original Sett leaves
    (s.releaseResult c g t).quarantine n cause
  else if differs && !bad.isEmpty then
    (((s.bump .arbOriginal n).arbEvent k n 1).poisonInput c g k isBad).quarantine n cause
  else if differs then
    let s := (((s.bump .arbUnresolved n).arbEvent k n 4).poisonChunk c g k).quarantine n cause
    { s with integ := { s.integ with arbTestNext := s.integ.arbTestNext ++ [a] } }
  else if !bad.isEmpty then ((s.bump .arbInput n).arbEvent k n 2).poisonInput c g k isBad
  else if checkOk then (((s.bump .arbChecker n).arbEvent k n 3).releaseResult c g t).checkerFault n
  else ((s.bump .arbUnresolved n).arbEvent k n 4).poisonChunk c g k

def Body.arbitration (s : Body) (k : StageKey) (differs checkOk : Bool) : Body :=
  match s.stage k, s.ctx k.ctx, s.group k.ctx.g with
  | some t, some c, some g => match t.arb with
    | some a => s.judge c g t a differs checkOk 1
    | none => s
  | _, _, _ => s

/-- The comparison of a DUPLICATE Sett's stage with its partner's (12 R315): equal, its verdict is GOOD (entry 90). -/
def Body.duplicate (s : Body) (k : StageKey) (differs checkOk : Bool) : Body :=
  match s.stage k, s.ctx k.ctx, s.group k.ctx.g with
  | some t, some c, some g =>
    let n := s.settFor c
    if (s.sett n).state != .duplicate || t.verdict != .pending || t.out.length != s.outFrames c k.chunk then s
    else
      match (List.range 20).find? fun m => (s.sett m).use == .partner n with
      | none => s
      | some p =>
        if !differs then ((s.recomputed p t .tdRetired).putStage { t with verdict := .good }).settleStage k
        else if checkOk then ((s.recomputed p t .tdRetired).releaseResult c g t).quarantine n 2
        else s.judge c g t p true false 2
  | _, _, _ => s

/-! ### Timers of chunks (03 R88, 08 R218) -/

/-- Frames of the chunk that wait for their CONF at a 3.1 or 3.0 link (02 R48). -/
def Body.heldFor (s : Body) (k : StageKey) (f : BufFrame) : Bool :=
  s.lateHeld f && rxOpseq f.ext == k.ctx.opseq.toNat && rxChunk f.ext == k.chunk && rxGroup f.ext == gidOf k.ctx.g

/-- SPEC_WINDOW has passed on an unconfirmed chunk: it is poisoned (03 R88; 02 R48). -/
def Body.specTimeout (s : Body) (k : StageKey) : Body :=
  let held := s.fwc.frames.filter (s.heldFor k)
  let s := s.bumpBy .specTimeout 0 held.length
  let s := held.foldl (fun s f => s.setVerdict f.fid tPoison) s
  match s.ctx k.ctx, s.group k.ctx.g with
  | some c, some g =>
    let s := if (c.downOf k.chunk).any (·.last.isSome) then (s.bump .specTimeout (s.settFor c)).putCtx (c.noDown k.chunk) else s
    match s.stage k with
    | none => s
    | some t =>
      let late := fun (x : Input) => x.last.isSome && !x.confirmed && !x.lost
      if t.inputs.any late then (s.bump .specTimeout (s.settFor c)).poisonInput c g k late else s
  | _, _ => s

/-- RESEND_T has passed: a Level B module sends its partial again (08 R218). -/
def Body.partialResend (s : Body) (k : StageKey) : Body :=
  match s.stage k, s.ctx k.ctx, s.group k.ctx.g with
  | some t, some c, some g =>
    if s.isRoot c || c.st != .running || !t.clastSent || t.verdict == .chkfail || c.passed.contains k.chunk then s
    else
      let (s, t') := t.out.foldl (fun (p : Body × Stage) f => p.1.sendResult c g p.2 f) (s, { t with resend := true })
      s.putStage { t' with resend := t.resend }
  | _, _, _ => s

/-! ### Timers of contexts (08 R206, R223, R225; 10 R281) -/

/-- The admission window has passed (08 Table 8-7). -/
def Body.windowExpiry (s : Body) (k : CtxKey) : Body :=
  match s.ctx k with
  | some c =>
    if c.st != .admitting then s
    else if s.planes.controlRestart then { s with planes := { s.planes with ctlQueue := s.planes.ctlQueue ++ [.window k] } }
    else s.passNow k
  | none => s

/-- ADMIT_WAIT has passed at the root. -/
def Body.admitWait (s : Body) (k : CtxKey) : Body :=
  match s.ctx k, s.group k.g with
  | some c, some g =>
    if c.st != .waitOpen || !s.isRoot c then s else (s.sendOpen { c with alg := 2 } g 1).enterPass k
  | _, _ => s

/-- DEADLINE has passed (08 Table 8-7, R203). -/
def Body.deadline (s : Body) (k : CtxKey) : Body :=
  match s.ctx k with
  | some c => if c.st = .running || c.st = .passThrough || (c.st = .waitOpen && !s.isRoot c) then s.closeCtx k 3 0 else s
  | none => s

/-! ### The commands -/

def execSettDispatch (n : Fin 20) (s : State) : Ans :=
  onBody s fun b => if b.dataRuns && (b.sett n.val).state != .quarantined then b.dispatch n.val else b

def execCheckVerdict (k : StageKey) (faulty : Bool) (s : State) : Ans :=
  onBody s fun b => if b.dataRuns then b.verdict k faulty else b

def execArbitrationComplete (k : StageKey) (differs checkOk : Bool) (s : State) : Ans :=
  onBody s fun b => if b.dataRuns then b.arbitration k differs checkOk else b

def execDuplicateCompare (k : StageKey) (differs checkOk : Bool) (s : State) : Ans :=
  onBody s fun b => if b.dataRuns then b.duplicate k differs checkOk else b

def execSpecTimeout (k : StageKey) (s : State) : Ans := onBody s fun b => if b.dataRuns then b.specTimeout k else b

def execPartialResend (k : StageKey) (s : State) : Ans := onBody s fun b => if b.dataRuns then b.partialResend k else b

def execReservationGrant (s : State) : Ans :=
  onBody s fun b => if b.dataRuns && !b.planes.controlRestart then b.grantAll b.coll.ctxs.length else b

def execAdmissionWindowExpiry (c : CtxKey) (s : State) : Ans := onBody s fun b => if b.dataRuns then b.windowExpiry c else b

def execAdmitWaitExpiry (c : CtxKey) (s : State) : Ans := onBody s fun b => if b.dataRuns then b.admitWait c else b

def execContextDeadline (c : CtxKey) (s : State) : Ans := onBody s fun b => if b.dataRuns then b.deadline c else b

end Sys2Proof.Machine
end

