-- ==== Sys2Proof/Machine/CollCmds.lean ====
section
/-! DEFINITION. GROUP and CTX host commands, and the scrub of closed regions (08 R201, R202, R205; 10 R281, R282; 11 R292). -/
namespace Sys2Proof.Machine

/-! ### Room in the tables partition (08 Table 8-5, 12 R324, 00 Table 0-3) -/

def pad64 (n : Nat) : Nat := (n + 63) / 64 * 64

/-- Weights, projection and step descriptor of a policy slot. -/
def Policy.bytes (p : Policy) : Nat :=
  pad64 (4 * p.weights.length) + pad64 (4 * p.proj.length) + (if p.step = 0 then 0 else 64)

/-- Descriptor, 16 policy slots, member and replication lists, and what the slots point to. -/
def Group.bytes (g : Group) : Nat :=
  64 + 16 * 128 + 16 * g.members.length + pad64 (8 * g.repl.length) + g.policies.foldl (fun a p => a + p.2.bytes) 0

/-- Bytes of the groups; one still CREATING waits for its own. -/
def Body.tableUsed (s : Body) : Nat := (s.coll.groups.filter fun g => g.2.state != .creating).foldl (fun a g => a + g.2.bytes) 0

def Body.tableScrub (s : Body) : Nat := s.coll.scrub.foldl (fun a x => a + x.2) 0

inductive Room where
  | fits | waits | full
deriving DecidableEq, Repr

/-- Room for members, replication entries and bytes more, `newGroup` for a CREATE (10 R282). -/
def Body.room (s : Body) (members repl bytes : Nat) (newGroup : Bool) : Room :=
  if s.variant.hasFmem then
    let limit := s.profiles.inForce.tablesMembers * 1000000000 / 2
    if s.tableUsed + s.tableScrub + bytes ≤ limit then .fits else if s.tableUsed + bytes ≤ limit then .waits else .full
  else
    let m := s.coll.groups.foldl (fun a g => a + g.2.members.length) 0
    let r := s.coll.groups.foldl (fun a g => a + g.2.repl.length) 0
    if m + members > 1048576 || r + repl > 65536 || (newGroup && s.coll.groups.length ≥ 1024) then .full else .fits

/-! ### Records -/

def memberRecs (n : Nat) (b : List Byte) : List MemberRec := (pieces 16 n (b.take (16 * n))).map memberRec

/-- A replication record: KIND, PRE, TARGET; LIVE is CLP's (11 Table 11-6). -/
def replRec (b : List Byte) : Repl :=
  let v := leNat (b.take 8)
  { kind := v >>> 62 % 4, pre := v.testBit 61, target := BitVec.ofNat 32 v }

def replRecs (n : Nat) (b : List Byte) : List Repl := (pieces 8 n (b.take (8 * n))).map replRec

/-- The group address; its reserved bits [27:26] are ignored (02 Table 2-1, 00 R9). -/
def grpAddr (d : Desc) : W32 := setFld (BitVec.ofNat 32 (d.f 2 31 0)) 27 26 0

/-- The field names no group: it holds an endpoint address (02 Table 2-1; entry 89). -/
def grpBad (d : Desc) : Bool := !isGroupAddr (grpAddr d)

def grpEpoch (d : Desc) : W32 := BitVec.ofNat 32 (d.f 2 63 32)
def memCount (d : Desc) : Nat := d.f 4 18 0
def repCount (d : Desc) : Nat := d.f 6 18 0

def recMember (r : MemberRec) : Member := { ep := r.ep, alias_ := if r.aliasv then r.alias_ else 0, aliasv := r.aliasv }

/-- Lowest free descriptor index. -/
def freeIndex {α : Type} : Map α → Nat → Nat
  | [], i => i
  | (k, _) :: t, i => if k = i then freeIndex t (i + 1) else i

/-- ILLEGAL_IN_STATE of a command on a group that must be ACTIVE. -/
def needActive (s : Body) (d : Desc) : Nat :=
  match s.group (grpAddr d) with
  | some g => if g.state = .active then 0 else stIllegal
  | none => stIllegal

/-- The same, then STALE_EPOCH (08 R201). -/
def needEpoch (s : Body) (d : Desc) : Nat :=
  match s.group (grpAddr d) with
  | some g => if g.state != .active then stIllegal else if (grpEpoch d).toNat ≤ g.epoch.toNat then stStale else 0
  | none => stIllegal

/-! ### CREATE and EXTEND -/

/-- The initial epoch is not above the journalled one (14 R384). -/
def Body.belowFloor (s : Body) (a e : W32) : Bool :=
  s.mram.epochFloors.any fun x => x.1 == a && e.toNat ≤ x.2.toNat

/-- The group of a CREATE. -/
def createGroup (d : Desc) (b : List Byte) : Group :=
  ({ addr := grpAddr d, epoch := grpEpoch d, members := (memberRecs (memCount d) b).map recMember
     repl := replRecs (repCount d) (b.drop (16 * memCount d)) } : Group).relive

/-- Room for a group that CREATE makes. -/
def Body.createRoom (s : Body) (g : Group) : Room := s.room g.members.length g.repl.length g.bytes true

/-- The whole effect of CREATE; the group stays CREATING while only scrubs stand in its way (08 Table 8-5, 10 R282). -/
def createRun (s : Body) (r : CmdRef) (d : Desc) (b : List Byte) : HostRes :=
  let g := createGroup d b
  let room := s.createRoom g
  if room = .full then .no s stNoRoom
  else
    let i := freeIndex s.coll.groups 0
    let put := fun (s : Body) (g : Group) => ({ s with coll := { s.coll with groups := mset s.coll.groups i g } } : Body)
    match s.groupEnter g.addr i with
    | (false, s) => .no s stNoRoom
    | (true, s) =>
      if room = .fits then { s := (put s g).sendFeatures g, d0 := i }
      else
        let s := put s { g with state := .creating }
        { s := { s with coll := { s.coll with createWait := s.coll.createWait ++ [r] } }, later := true }

def specGroupCreate : CmdSpec :=
  { cls := 1, op := 1, control := true
    bad0 := fun _ _ d => memCount d == 0 || memCount d > 262144 || grpBad d
    pre := fun s _ d => if (s.group (grpAddr d)).isSome then stIllegal else if s.belowFloor (grpAddr d) (grpEpoch d) then stStale else 0
    mode := .atomic (fun d => 16 * memCount d + 8 * repCount d)
      (fun _ d b => (memberRecs (memCount d) b).map (·.rank) != List.range (memCount d)
        || (replRecs (repCount d) (b.drop (16 * memCount d))).any fun r => r.kind == 3)
      createRun }

/-- Records at or above NMEMB, which must run on from it (11 R292). -/
def newRecs (n : Nat) (l : List MemberRec) : List MemberRec := l.filter fun r => r.rank ≥ n

def extendBad (s : Body) (d : Desc) (b : List Byte) : Bool :=
  let ms := memberRecs (memCount d) b
  let rs := replRecs (repCount d) (b.drop (16 * memCount d))
  rs.any (fun r => r.kind == 3) || (match s.group (grpAddr d) with
    | none => false
    | some g =>
      let n := g.members.length
      let new := newRecs n ms
      n + new.length > 262144 || new.map (·.rank) != (List.range new.length).map fun i => n + i)

/-- A replication record changes PRE of its entry, or is appended (11 R292). -/
def addRepl (l : List Repl) (r : Repl) : List Repl :=
  if l.any (fun x => x.kind == r.kind && x.target == r.target) then
    l.map fun x => if x.kind = r.kind ∧ x.target = r.target then { x with pre := r.pre } else x
  else l ++ [r]

def extendRun (s : Body) (_ : CmdRef) (d : Desc) (b : List Byte) : HostRes :=
  match s.group (grpAddr d) with
  | none => .no s stIllegal
  | some g =>
    let ms := memberRecs (memCount d) b
    let rs := replRecs (repCount d) (b.drop (16 * memCount d))
    let n := g.members.length
    let old := ms.foldl (fun (l : List Member) r =>
      if r.rank < n then setNth l r.rank { nth l r.rank { ep := 0 } with alias_ := if r.aliasv then r.alias_ else 0, aliasv := r.aliasv }
      else l) g.members
    let g' : Group := { g with members := old ++ (newRecs n ms).map recMember, repl := rs.foldl addRepl g.repl, epoch := grpEpoch d }
    let g' := g'.relive
    match s.room (g'.members.length - n) (g'.repl.length - g.repl.length) (g'.bytes - g.bytes) false with
    | .fits => { s := (s.modGroup g.addr fun _ => g').sendFeatures g', d0 := g'.members.length }
    | _ => .no s stNoRoom

def specGroupExtend : CmdSpec :=
  { cls := 1, op := 2, control := true
    bad0 := fun _ _ d => grpBad d
    pre := fun s _ d => needEpoch s d
    mode := .atomic (fun d => 16 * memCount d + 8 * repCount d) extendBad extendRun }

/-! ### FENCE and UNFENCE -/

/-- Ranks of the records. -/
def rankRecs (d : Desc) (b : List Byte) : List Nat := (u32s (b.take (4 * memCount d))).map fun v => v % 2 ^ 18

def rankBad (s : Body) (d : Desc) (b : List Byte) : Bool :=
  match s.group (grpAddr d) with
  | some g => (rankRecs d b).any fun r => r ≥ g.members.length
  | none => false

/-- FENCED and FEPOCH of one rank. -/
def fenceRank (v : Bool) (epoch : W32) (l : List Member) (r : Nat) : List Member :=
  match l[r]? with
  | some m => if m.fenced = v then l else setNth l r { m with fenced := v, fepoch := epoch }
  | none => l

/-- A fence reaches the open contexts of the group (08 R214). -/
def fenceCtx (g : Group) (ranks : List Nat) (c : Ctx) : Ctx :=
  if c.key.g != g.addr then c
  else
    let pods := c.expect.filterMap fun i => match i with
      | .pod p => if g.liveIn (g.member p).ep = 0 && !c.podsGone.contains p then some p else none
      | _ => none
    let mine := ranks.filter fun r => r < c.ownn && !c.fencedSince.contains r && (polContrib c.pol != 2 || r == polRoot c.pol)
    { c with fencedSince := c.fencedSince ++ mine, podsGone := c.podsGone ++ pods }

/-- Every context of a group whose chunks all have their result closes. -/
def Body.closeDone (s : Body) (a : W32) : Body :=
  (s.coll.ctxs.filter fun c => c.key.g == a).foldl (fun s c => s.closeIfDone c.key) s

def fenceRun (v : Bool) (s : Body) (_ : CmdRef) (d : Desc) (b : List Byte) : HostRes :=
  match s.group (grpAddr d) with
  | none => .no s stIllegal
  | some g =>
    let ranks := dedupNat (rankRecs d b)
    let fresh := ranks.filter fun r => !(g.member r).fenced
    let g' : Group := { g with members := ranks.foldl (fenceRank v (grpEpoch d)) g.members, epoch := grpEpoch d }
    let g' := g'.relive
    let s := s.modGroup g.addr fun _ => g'
    let s := if v then ({ s with coll := { s.coll with ctxs := s.coll.ctxs.map (fenceCtx g' fresh) } } : Body).closeDone g.addr else s
    { s, d0 := g'.nFenced }

def specFence (op : Nat) (v : Bool) : CmdSpec :=
  { cls := 1, op, control := true
    bad0 := fun _ _ d => grpBad d
    pre := fun s _ d => needEpoch s d
    mode := .atomic (fun d => 4 * memCount d) rankBad (fenceRun v) }

/-! ### DESTROY -/

/-- The floors of a journal with one group's epoch (01 R25, 14 R384). -/
def raiseFloor (l : List (W32 × W32)) (a e : W32) : List (W32 × W32) :=
  match l with
  | [] => [(a, e)]
  | (b, f) :: t => if b = a then (b, if f.toNat < e.toNat then e else f) :: t else (b, f) :: raiseFloor t a e

/-- The key leaves the Group table and the descriptor goes. -/
def Body.removeGroup (s : Body) (g : Group) (i : Nat) : Body :=
  let s := s.groupLeave g.addr
  { s with coll := { s.coll with groups := mdel s.coll.groups i, closed := s.coll.closed.filter fun x => x.1.g != g.addr } }

/-- Close every context of a group ABORTED, then remove the key; its lists wait for their scrub, and the journal keeps its last
epoch (08 Table 8-5, 10 R281, 01 R25). -/
def Body.destroyGroup (s : Body) (a : W32) : Body :=
  match s.group a, s.groupIndex a with
  | some g, some i =>
    let s := s.modGroup a fun g => { g with state := .destroying }
    let s := (s.coll.ctxs.filter fun c => c.key.g == a).foldl (fun s c => s.closeCtx c.key 4 2) s
    let s := s.removeGroup g i
    { s with coll := { s.coll with
        scrub := if s.variant.hasFmem then s.coll.scrub ++ [(0, g.bytes)] else s.coll.scrub }
             mram := { s.mram with epochFloors := raiseFloor s.mram.epochFloors g.addr g.epoch } }
  | _, _ => s

def specGroupDestroy : CmdSpec :=
  { cls := 1, op := 5, control := true
    bad0 := fun _ _ d => grpBad d
    pre := fun s _ d => needActive s d
    mode := .atomic (fun _ => 0) (fun _ _ _ => false) fun s _ d _ => { s := s.destroyGroup (grpAddr d) } }

/-! ### CTX POLICY and CTX ABORT -/

def polClear (d : Desc) : Bool := d.f 2 36 36 == 1
def polSlot (d : Desc) : Nat := d.f 2 35 32

/-- Bytes of the slot's buffers; NMEMB at the start is in `step0`. -/
def polNeed (d : Desc) : Nat :=
  if polClear d then 0
  else 128 + (if d.word 4 = 0 then 0 else 4 * d.step0.toNat) + (if d.word 5 = 0 then 0 else 4096) + (if d.word 6 = 0 then 0 else 64)

/-- The policy in the buffers. -/
def polOf (d : Desc) (b : List Byte) : Policy :=
  let w := if d.word 4 = 0 then 0 else 4 * d.step0.toNat
  let p := if d.word 5 = 0 then 0 else 4096
  let b1 := b.drop 128
  { params := BitVec.ofNat 1024 (leNat (b.take 128)), weights := (u32s (b1.take w)).map (BitVec.ofNat 32)
    proj := (u32s ((b1.drop w).take p)).map (BitVec.ofNat 32)
    step := if d.word 6 = 0 then 0 else BitVec.ofNat 512 (leNat ((b1.drop (w + p)).take 64)) }

def polRun (s : Body) (_ : CmdRef) (d : Desc) (b : List Byte) : HostRes :=
  match s.group (grpAddr d) with
  | none => .no s stIllegal
  | some g =>
    let put := fun (m : Map Policy) => { s := s.modGroup g.addr fun g => { g with policies := m } : HostRes }
    if polClear d then put (mdel g.policies (polSlot d))
    else
      let p := polOf d b
      let old := match mget g.policies (polSlot d) with | some q => q.bytes | none => 0
      let pool := s.coll.groups.foldl (fun a x => x.2.policies.foldl (fun a q => a + q.2.bytes) a) 0
      let ok := if s.variant.hasFmem then s.room 0 0 (p.bytes - old) false == .fits else Nat.ble (pool - old + p.bytes) 2097152
      if ok then put (mset g.policies (polSlot d) p) else .no s stNoRoom

def specPolicySlot : CmdSpec :=
  { cls := 2, op := 1, control := true
    bad0 := fun _ _ d => grpBad d
    pre := fun s _ d => needActive s d
    begin := fun s _ d => match s.group (grpAddr d) with | some g => BitVec.ofNat 64 g.members.length | none => 0
    mode := .atomic polNeed (fun _ d b => !polClear d && polBad (polOf d b).params) polRun }

def ctxKeyOf (d : Desc) : CtxKey := ⟨grpAddr d, BitVec.ofNat 32 (d.f 3 31 0)⟩

/-- MASK bits 0 SPROF, 1 PRIO, 2 DEADLINE (11 Table 11-5). -/
def polOpenRun (s : Body) (_ : CmdRef) (d : Desc) (_ : List Byte) : HostRes :=
  match s.ctx (ctxKeyOf d) with
  | none => .no s stIllegal
  | some c =>
    let m := d.f 3 34 32
    let (p0, q0, d0) := c.nextPol.getD (c.sprof, c.prio, c.deadline)
    let dl := if d.f 4 63 40 = 0 then 10000 else d.f 4 63 40
    let x := (if m.testBit 0 then d.f 4 11 0 else p0, if m.testBit 1 then d.f 4 18 16 else q0, if m.testBit 2 then dl else d0)
    if c.valid then { s := s.putCtx { c with nextPol := some x, succ := some (c.succ.getD 0 + 1) } }
    else { s := s.putCtx { c with sprof := x.1, prio := x.2.1, deadline := x.2.2 } }

def needCtx (s : Body) (d : Desc) : Nat := if (s.ctx (ctxKeyOf d)).isSome then 0 else stIllegal

def specPolicyOpen : CmdSpec :=
  { cls := 2, op := 2, control := true
    bad0 := fun _ _ d => grpBad d
    pre := fun s _ d => needCtx s d
    mode := .atomic (fun _ => 0) (fun _ _ _ => false) polOpenRun }

def specCtxAbort : CmdSpec :=
  { cls := 2, op := 3, control := true
    bad0 := fun _ _ d => grpBad d
    pre := fun s _ d => needCtx s d
    mode := .atomic (fun _ => 0) (fun _ _ _ => false) fun s _ d _ => { s := s.closeCtx (ctxKeyOf d) 4 1 } }

/-! ### Scrub (10 R281, R282) -/

/-- A CREATE that waited ends: its group is ACTIVE, or goes for want of room. -/
def Body.endCreate (s : Body) (r : CmdRef) (g : Group) (i : Nat) (ok : Bool) : Body :=
  if ok then
    let g := { g with state := .active }
    concludeRes r { s := ({ s with coll := { s.coll with groups := mset s.coll.groups i g } } : Body).sendFeatures g, d0 := i }
  else concludeRes r (.no (s.removeGroup g i) stNoRoom)

/-- Commands of CREATE that waited are tried again in order. -/
def Body.wakeCreate (s : Body) : Nat → Body
  | 0 => s
  | n + 1 =>
    match s.coll.createWait with
    | [] => s
    | r :: t =>
      let s' := { s with coll := { s.coll with createWait := t } }
      match (s'.desc r).bind fun d => (s'.groupIndex (grpAddr d)).bind fun i => (mget s'.coll.groups i).map fun g => (i, g) with
      | none => s'.wakeCreate n
      | some (i, g) =>
        let room := s'.createRoom g
        if room = .waits then s else (s'.endCreate r g i (room == .fits)).wakeCreate n

/-- The scrub of the region closed first ends: its slots and bytes can be granted again. -/
def Body.scrubOne (s : Body) : Body :=
  match s.coll.scrub with
  | [] => s
  | (n, _) :: t =>
    let s := { s with coll := { s.coll with scrub := t, spillFree := s.coll.spillFree + n } }
    s.wakeCreate s.coll.createWait.length

/-! ### The commands -/

def execGroupCreate (r : CmdRef) (data : List Byte) (s : State) : Ans := onBody s fun b => hostCmd specGroupCreate b r data 0

def execGroupExtend (r : CmdRef) (data : List Byte) (s : State) : Ans := onBody s fun b => hostCmd specGroupExtend b r data 0

def execGroupFence (r : CmdRef) (data : List Byte) (s : State) : Ans := onBody s fun b => hostCmd (specFence 3 true) b r data 0

def execGroupUnfence (r : CmdRef) (data : List Byte) (s : State) : Ans := onBody s fun b => hostCmd (specFence 4 false) b r data 0

def execGroupDestroy (r : CmdRef) (s : State) : Ans := onBody s fun b => hostCmd specGroupDestroy b r [] 0

def execCtxPolicySlot (r : CmdRef) (data : List Byte) (s : State) : Ans := onBody s fun b => hostCmd specPolicySlot b r data 0

def execCtxPolicyOpen (r : CmdRef) (s : State) : Ans := onBody s fun b => hostCmd specPolicyOpen b r [] 0

def execCtxAbort (r : CmdRef) (s : State) : Ans := onBody s fun b => hostCmd specCtxAbort b r [] 0

def execContextScrub (s : State) : Ans := onBody s fun b => b.scrubOne

end Sys2Proof.Machine
end

