-- ==== Sys2Proof/Machine/Fmem.lean ====
section
/-! DEFINITION. Fabric memory: frames to windows, mirroring, joins, SOLO (09 R228-R248; 02 R32). -/
namespace Sys2Proof.Machine

/-! ### Refusals (09 Tables 9-4, 9-5) -/

inductive Area where
  | state | gradient | digest | slot
deriving DecidableEq, Repr

def Window.areaOf (w : Window) (off : Nat) : Area :=
  if !w.update || off < gradArea then .state
  else if off < digestArea then .gradient
  else if off < slotArea then .digest
  else .slot

/-- The sender is the window's other copy. -/
def Window.fromBuddy (w : Window) (src : W32) : Bool :=
  (w.state == .primary || w.state == .secondary || w.state == .syncing || w.state == .shadow || w.state == .detached || w.joining.isSome)
    && adPod src == 511 && adPlane src == w.bplane && adIndex src == w.buddy

/-- The source is admitted; modules only as buddy or witness. -/
def Window.admitted (w : Window) (src : W32) : Bool :=
  if adPod src = 511 then w.fromBuddy src || (adPlane src == w.wplane && adIndex src == w.witness)
  else w.planemask.getLsbD (adPlane src) && w.podlo ≤ adPod src && adPod src ≤ w.podhi

/-- Row 5 of Table 9-4. The survivor's copy of a join reaches the state area while the window is SYNCING (entry 39). -/
def Window.barred (w : Window) (op : Nat) (src : W32) (off : Nat) : Bool :=
  let b := w.fromBuddy src
  let copy := op == opPut && b && w.state == .syncing
  !w.admitted src
    || (if w.update then match w.areaOf off with
        | .state => op != opGet && !copy
        | .gradient => !(op == opPut && b)
        | .digest => !(op == opPut && b)
        | .slot => op == opAtomic
      else w.rdonly && op != opGet && !copy)

/-- Bytes that a request touches. -/
def touched (h : Hdr) (x : BitVec 128) : Nat :=
  if h.opc.toNat = opPut then 8 * h.len.toNat else if h.opc.toNat = opGet then mxRlen x else if mxAw x = 0 then 4 else 8

/-- Row 8 of Table 9-4 (entry 38 for step slots and digests). -/
def Window.outside (w : Window) (op off n : Nat) : Bool :=
  match w.areaOf off with
  | .state => off + n > w.size
  | .gradient => off - gradArea + n > 4 * w.rp * w.nregion
  | .digest => n != 48 || (off - digestArea) % 64 != 0 || (off - digestArea) / 64 ≥ w.nregion
  | .slot => if op = opPut then n != 64 || (off - slotArea) % 64 != 0 else off - slotArea + n > 1024

/-- NACK reason and word 1 of the first row of Table 9-4 that applies. -/
def Body.fmemRefusal (s : Body) (h : Hdr) (x : BitVec 128) : Option (Nat × Nat) :=
  let op := h.opc.toNat
  let off := mxOff x
  let n := touched h x
  if !s.variant.hasFmem then some (nkNoFunction, 0)
  else match s.win (mxWid x) with
    | none => some (nkNoWindow, mxWid x)
    | some w =>
      if w.state == .stateLost then some (nkStateLost, w.lastStep.toNat)
      else if (!w.serves && !w.fromBuddy h.src) || w.damaged || s.power.state != .operational then some (nkNotReady, 0)
      else if w.barred op h.src off then some (nkAccess, mxWid x)
      else if op == opAtomic && (mxAop x > 7 || mxAw x > 1 || (h.len == 2) != (mxAop x == 2)) then some (nkBadAddr, 0)
      else if op == opGet && (n == 0 || n > 1048576) then some (nkBadAddr, 0)
      else if op == opAtomic && off % n != 0 then some (nkAlign, n)
      else if op != opAtomic && (off % 8 != 0 || n % 8 != 0) then some (nkAlign, 8)
      else if w.outside op off n then some (nkRange, w.size)
      else none

/-! ### Answers -/

/-- The answer a requester waits for: 0 none, 1 ACK, 2 ATOMRESP (02 R46, R52). -/
def Body.fmemAnswer (s : Body) (die : Nat) (src : W32) (tag : W16) (kind wid off : Nat) (old : W64) : Body :=
  match kind with
  | 1 =>
    let h := ownHdr s.own src opAck 0 0 tag.toNat false false
    s.send die h 0 (mkRest h 0 [] 0 0 tGood)
  | 2 =>
    let h := ownHdr s.own src opAtomResp 4 1 tag.toNat true false
    let x := memX off wid 0
    s.send die h x (mkRest h x [old] 0 0 tGood)
  | _ => s

/-! ### Writes and their mirror (09 R230, R237, R245) -/

/-- Write words into the state area or a step slot. A slot that the buddy writes for its step, the next or one repeated, describes
the gradients that follow (09 R244). -/
def Body.applyWrite (s : Body) (wid : Nat) (w : Window) (off : Nat) (ws : List W64) (buddy : Bool) : Body :=
  match w.areaOf off with
  | .slot =>
    let k := (off - slotArea) / 64
    let d := BitVec.ofNat 512 (beNat (payloadBytes ws))
    let now := (stepD d).step == w.lastStep || (stepD d).step == w.lastStep + 1
    s.setWin wid { w with slots := mset w.slots k d, lastSlot := if buddy && now then some k else w.lastSlot }
  | _ => s.winWrite w off (payloadBytes ws)

/-- Two byte ranges share a 64-byte line. -/
def sameLine (o1 n1 o2 n2 : Nat) : Bool := o1 / 64 ≤ (o2 + n2 - 1) / 64 && o2 / 64 ≤ (o1 + n1 - 1) / 64

/-- An unacknowledged mirror write of the window holds one of the lines. -/
def Body.lineBusy (s : Body) (wid off n : Nat) : Bool :=
  s.mss.sent.any fun x => match x.2 with
    | .mirror v o m _ _ _ _ => v == wid && sameLine o m off n
    | _ => false

/-- Send a mirror write, or let it wait for its lines (09 R237). -/
def Body.mirror (s : Body) (wid : Nat) (w : Window) (x : LaterWrite) : Body :=
  let n := 8 * x.words.length
  if s.lineBusy wid x.off n || s.mss.later.any (fun y => y.wid == wid && sameLine y.off (8 * y.words.length) x.off n) then
    { s with mss := { s.mss with later := s.mss.later ++ [x] } }
  else s.ownPut (s.memDie (w.addr x.off)) w.bplane w.buddy wid x.off x.words (some (.mirror wid x.off n x.src x.tag x.kind x.old))

/-- After a local write: answer, or mirror first; a survivor forwards without holding the answer (09 R245). -/
def Body.afterWrite (s : Body) (wid : Nat) (w : Window) (off : Nat) (ws : List W64) (src : W32) (tag : W16) (kind : Nat)
    (old : W64) (aoff : Nat) : Body :=
  let die := s.memDie (w.addr off)
  if w.state = .primary then s.mirror wid w ⟨wid, off, ws, src, tag, kind, old⟩
  else
    let s := if w.serves && w.joining.isSome then s.ownPut die w.bplane w.buddy wid off ws (some (.join wid)) else s
    s.fmemAnswer die src tag kind wid aoff old

/-! ### The duplicate filter (09 R234) -/

def Body.dupFind (s : Body) (src : W32) (tag : W16) (wid off : Nat) : Option DupEntry :=
  s.mss.dup.find? fun e => e.src == src && e.tag == tag && e.wid == wid && e.off == off

def Body.dupAdd (s : Body) (e : DupEntry) : Body :=
  if s.mss.dup.length ≥ 1048576 then
    ({ s with mss := { s.mss with dup := s.mss.dup.drop 1 ++ [e] } } : Body).bump .fmemDupEvict 0
  else { s with mss := { s.mss with dup := s.mss.dup ++ [e] } }

/-- A mirror write still holds this requester's answer. -/
def Body.answerHeld (s : Body) (wid : Nat) (src : W32) (tag : W16) : Bool :=
  (s.mss.sent.any fun x => match x.2 with
    | .mirror v _ _ a t k _ => v == wid && a == src && t == tag && k != 0
    | _ => false) || s.mss.later.any fun y => y.wid == wid && y.src == src && y.tag == tag && y.kind != 0

/-! ### PUT, GET, ATOMIC -/

/-- An earlier operation from the same sender, on the same lane and to the same window, has not taken effect (09 R233). -/
def Body.earlierOp (s : Body) (f : BufFrame) : Bool :=
  s.fwc.frames.any fun g => g.fid < f.fid && g.here == some .fmem && g.hdr.src == f.hdr.src && g.origin == f.origin
    && mxWid g.ext == mxWid f.ext

/-- A request in the buffer, judged in its turn: poisoned and refused ones end here, as does a PUT whose STATUS is not GOOD (09
R229, R230, R233, R236). -/
def Body.fmemRequest (s : Body) (fid op : Nat) (areas : List Area) (act : Body → Window → BufFrame → Rest → Body) : Body :=
  match s.frame fid with
  | none => s
  | some f =>
    match f.here, f.rest with
    | some .fmem, some r =>
      if f.hdr.opc.toNat != op || s.earlierOp f then s
      else if !Rest.crcGood r f.hdr f.ext || r.status.toNat == tPoison || r.status.toNat == tChkfail then
        (s.bump .fmemPoisonIn 0).doneHere fid
      else if op == opPut && r.status.toNat != tGood then s.doneHere fid
      else match s.fmemRefusal f.hdr f.ext, s.win (mxWid f.ext) with
        | some (a, b), _ => (s.doneHere fid).nack f.die f.hdr a b
        | none, some w => if areas.contains (w.areaOf (mxOff f.ext)) then (act s w f r).doneHere fid else s
        | none, none => s.doneHere fid
    | _, _ => s

def Body.fmemPut (s : Body) (fid : Nat) : Body :=
  s.fmemRequest fid opPut [.state, .slot] fun s w f r =>
    let wid := mxWid f.ext
    let off := mxOff f.ext
    let kind := if f.hdr.ackreq then 1 else 0
    let src := f.hdr.src
    let tag := f.hdr.tag
    match s.dupFind src tag wid off with
    | some _ =>
      let s := s.bump .fmemDup 0
      if s.answerHeld wid src tag then s else s.fmemAnswer f.die src tag kind wid off 0
    | none =>
      let s := s.applyWrite wid w off r.payload (w.fromBuddy src)
      let s := s.dupAdd { src, tag, wid, off, atomic := false }
      match s.win wid with
      | some w => s.afterWrite wid w off r.payload src tag kind 0 off
      | none => s

/-- Bytes of a step-slot area. -/
def Window.slotBytes (w : Window) : List Byte := (List.range 16).flatMap fun k => beBytes 64 (mgetD w.slots k 0).toNat

/-- GETRESP frames in ascending order (02 R46). -/
def Body.fmemGet (s : Body) (fid : Nat) : Body :=
  s.fmemRequest fid opGet [.state, .slot] fun s w f _ =>
    let off := mxOff f.ext
    let n := mxRlen f.ext
    let g := match mxRseg f.ext with | 0 => 8192 | 1 => 4096 | 2 => 2048 | _ => 1024
    let bs := if w.areaOf off = .slot then (w.slotBytes.drop (off - slotArea)).take n else s.winRead w off n
    (pieces g (n / g + 1) bs).zipIdx.foldl (fun s p =>
      let ws := wordsOf p.1
      let o := off + g * p.2
      let h := ownHdr s.own f.hdr.src opGetResp 4 ws.length f.hdr.tag.toNat true false
      let x := memX o (mxWid f.ext) n
      s.send (s.memDie (w.addr o)) h x (mkRest h x ws 0 0 tGood)) s

/-- New value of an ATOMIC of `bits` bits (02 Table 2-9; 09 R232). -/
def atomicNew (aop bits : Nat) (signed : Bool) (old opnd cmp : Nat) : Nat :=
  let m := 2 ^ bits
  let less := fun (a b : Nat) => if signed then signedOf bits a < signedOf bits b else a < b
  match aop with
  | 0 => (old + opnd) % m
  | 1 => opnd
  | 2 => if old = cmp then opnd else old
  | 3 => old &&& opnd
  | 4 => old ||| opnd
  | 5 => old ^^^ opnd
  | 6 => if less opnd old then opnd else old
  | _ => if less old opnd then opnd else old

def Body.fmemAtomic (s : Body) (fid : Nat) : Body :=
  s.fmemRequest fid opAtomic [.state] fun s w f r =>
    let wid := mxWid f.ext
    let off := mxOff f.ext
    let src := f.hdr.src
    let tag := f.hdr.tag
    match s.dupFind src tag wid off with
    | some e =>
      let s := s.bump .fmemDup 0
      if s.answerHeld wid src tag then s else s.fmemAnswer f.die src tag 2 wid off e.old
    | none =>
      let n := touched f.hdr f.ext
      let old := beNat (s.winRead w off n)
      let new := atomicNew (mxAop f.ext) (8 * n) (mxSigned f.ext) old (fld (nth r.payload 0 0) (8 * n - 1) 0)
        (fld (nth r.payload 1 0) (8 * n - 1) 0)
      let s := s.winWrite w off (beBytes n new)
      let s := s.dupAdd { src, tag, wid, off, atomic := true, old := BitVec.ofNat 64 old }
      let line := off / 8 * 8
      s.afterWrite wid w line (wordsOf (s.winRead w line 8)) src tag 2 (BitVec.ofNat 64 old) off

/-! ### Gradients and digests at the other copy (09 R244, R246, R247) -/

/-- The region's gradients are all here: apply the step that the buddy's slot describes, unless the region has it, and acknowledge
(09 R243, R244). -/
def Body.applyGradient (s : Body) (wid c : Nat) : Body :=
  match s.win wid with
  | none => s
  | some w =>
    let words := (List.range w.rp).map fun i => mget w.grad (c * w.rp + i)
    if words.any (·.isNone) then s
    else
      let d := stepD (mgetD w.slots (w.lastSlot.getD 0) 0)
      let gs := words.map fun x => fp32Num (x.getD 0)
      let old := s.regionState w c
      let st := if mgetD w.regionStep c 0 == d.step then old else applyRegion d (ruleState w.rule) old gs
      let w' := { w with grad := w.grad.filter fun x => x.1 / max 1 w.rp != c, gradAck := mdel w.gradAck c }
      let s := ((s.setWin wid w').winWrite w (c * w.regionBytes) (w32Bytes st)).regionDone wid c d.step
      match mget w.gradAck c with
      | some (src, tag) => s.fmemAnswer (s.memDie (w.addr (c * w.regionBytes))) src tag 1 wid 0 0
      | none => s

def Body.gradientPut (s : Body) (fid : Nat) : Body :=
  s.fmemRequest fid opPut [.gradient] fun s w f r =>
    let wid := mxWid f.ext
    let i := (mxOff f.ext - gradArea) / 4
    let c := i / max 1 w.rp
    match s.dupFind f.hdr.src f.hdr.tag wid (mxOff f.ext) with
    | some _ =>
      let s := s.bump .fmemDup 0
      if mget w.gradAck c == some (f.hdr.src, f.hdr.tag) then s else s.ackFrame f.die f.hdr
    | none =>
      let vs := (u32be (payloadBytes r.payload)).zipIdx
      let w := { w with grad := vs.foldl (fun m v => mset m (i + v.2) v.1) w.grad
                        gradAck := if f.hdr.ackreq then mset w.gradAck c (f.hdr.src, f.hdr.tag) else w.gradAck }
      ((s.setWin wid w).dupAdd { src := f.hdr.src, tag := f.hdr.tag, wid, off := mxOff f.ext, atomic := false }).applyGradient wid c
where
  u32be (bs : List Byte) : List W32 := (pieces 4 (bs.length / 4) bs).map fun b => BitVec.ofNat 32 (beNat b)

/-- K of the join. -/
def Body.joinK (s : Body) : Nat := s.profiles.inForce.joinK

/-- Region c of a step has matched; true when the last region of the K-th consecutive step has (09 R246). -/
def Join.match_ (j : Join) (c : Nat) (step : W64) (nregion k : Nat) : Join × Bool :=
  let j := if j.step = step then j else { j with step, seen := [] }
  let seen := if j.seen.contains c then j.seen else j.seen ++ [c]
  if seen.length < nregion then ({ j with seen }, false)
  else
    let n := if j.full = some (step - 1) then j.matches_ + 1 else 1
    ({ j with seen := [], matches_ := n, full := some step }, n ≥ k)

/-- Nothing has been compared. -/
def Join.fresh (j : Join) : Join := { j with matches_ := 0, seen := [], full := none }

/-- The joining copy's digest of a region differs: back to SYNCING, or FREE at the third (09 R247). -/
def Body.joinMismatch (s : Body) (wid : Nat) (w : Window) (j : Join) : Body :=
  let s := s.bump .joinMismatch 0
  if j.mismatches + 1 ≥ 3 then { s with mss := { s.mss with windows := mdel s.mss.windows wid } }
  else s.setWin wid { w with state := .syncing, joining := some { j.fresh with mismatches := j.mismatches + 1 } }

def Body.digestPut (s : Body) (fid : Nat) : Body :=
  s.fmemRequest fid opPut [.digest] fun s w f r =>
    let wid := mxWid f.ext
    let c := (mxOff f.ext - digestArea) / 64
    let mine := digestBytes (sha384 (s.winRead w (c * w.regionBytes) w.regionBytes))
    let ok := mine == payloadBytes r.payload
    let seen : DupEntry := { src := f.hdr.src, tag := f.hdr.tag, wid, off := mxOff f.ext, atomic := false }
    if (s.dupFind seen.src seen.tag wid seen.off).isSome then (s.bump .fmemDup 0).ackFrame f.die f.hdr
    else match w.state, w.joining with
    | .shadow, some j =>
      if ok then
        let (j, done) := j.match_ c (mgetD w.regionStep c 0) w.nregion s.joinK
        let w := if done then { w with state := .secondary, joining := none } else { w with joining := some j }
        let s := ((s.setWin wid w).dupAdd seen).ackFrame f.die f.hdr
        if done then s.emit 0x401 [put s.moduleIndex 10 + wid, w.lastStep.toNat] else s
      else (s.joinMismatch wid w j).nack f.die f.hdr nkNotReady 0
    | _, _ => (s.dupAdd seen).ackFrame f.die f.hdr

/-! ### Joins at the survivor (09 R245-R247) -/

/-- Send one region, or a piece of a PLAIN window, of the state area. -/
def Body.sendState (s : Body) (wid : Nat) (w : Window) (off n : Nat) : Body :=
  (pieces 8192 (n / 8192 + 1) (s.winRead w off n)).zipIdx.foldl (fun s p =>
    let o := off + 8192 * p.2
    let bs := p.1 ++ List.replicate ((8 - p.1.length % 8) % 8) 0
    s.ownPut (s.memDie (w.addr o)) w.bplane w.buddy wid o (wordsOf bs) (some (.join wid))) s

/-- The window's metadata. -/
def Window.metaOf (w : Window) : WindowMeta :=
  { update := w.update, rdonly := w.rdonly, rule := BitVec.ofNat 3 w.rule, group := BitVec.ofNat 26 w.group, planemask := w.planemask
    podlo := BitVec.ofNat 9 w.podlo, podhi := BitVec.ofNat 9 w.podhi, size := BitVec.ofNat 48 w.size, rp := BitVec.ofNat 22 w.rp
    nregion := BitVec.ofNat 24 w.nregion, lastStep := w.lastStep }

/-- Metadata and region steps go to the joining copy; the way they travel is not stated (entry 40). -/
def Body.sendMeta (s : Body) (wid : Nat) (w : Window) : Body :=
  s.putOut (.joinMeta w.bplane w.buddy wid w.metaOf ((List.range w.nregion).map fun c => mgetD w.regionStep c 0))

/-- Copy metadata, state area and step slots to the joining copy. -/
def Body.sendCopy (s : Body) (wid : Nat) (w : Window) : Body :=
  let s := s.sendMeta wid w
  w.slots.foldl (fun s k =>
    s.ownPut (s.memDie (w.addr 0)) w.bplane w.buddy wid (slotArea + 64 * k.1) (stepWords k.2) (some (.join wid)))
    (s.sendState wid w 0 w.size)

/-- The join completes at the survivor. -/
def Body.joinDone (s : Body) (wid : Nat) (w : Window) : Body :=
  let s := s.setWin wid { w with state := .primary, joining := none, soloAsked := false }
  let s := s.sendMgmtTo w.wplane w.witness (put 0x44 56 + put wid 40 + put w.buddy 30)
  s.emit 0x401 [put w.buddy 10 + wid, w.lastStep.toNat]

def Body.joinFailed (s : Body) (wid : Nat) (w : Window) : Body :=
  (s.setWin wid { w with joining := none }).emit 0x402 [put w.buddy 10 + wid, w.lastStep.toNat]

/-- The survivor hears what a region's digest gave. -/
def Body.digestAnswer (s : Body) (wid c : Nat) (step : W64) (ok : Bool) : Body :=
  match s.win wid with
  | none => s
  | some w =>
    match w.joining with
    | none => s
    | some j =>
      if ok then
        let (j, done) := j.match_ c step w.nregion s.joinK
        if done then s.joinDone wid w else s.setWin wid { w with joining := some j }
      else if j.mismatches + 1 ≥ 3 then s.joinFailed wid w
      else
        let j := { j.fresh with mismatches := j.mismatches + 1, dirty := [], shadow := false }
        let w := { w with joining := some j }
        (s.setWin wid w).sendCopy wid w

/-- The last step of the window that has begun: one whose context is open, or of which a region is written. -/
def Body.begunStep (s : Body) (wid : Nat) (w : Window) : W64 :=
  let next := w.lastStep + 1
  let open_ := s.coll.ctxs.any fun c => c.ar.rop == ropUpdate && polWindow c.pol == wid && (stepD c.step).step == next
  if open_ || (List.range w.nregion).any (fun c => s.regionAt wid w c next) then next else w.lastStep

/-- The copy has ended: at the survivor with no region dirty, and the region steps go with it; at the joining copy the window is
complete, with LAST_STEP and the region steps that came (09 R245, R246). -/
def Body.copyComplete (s : Body) (wid : Nat) (last : W64) (steps : List W64) : Body :=
  match s.win wid with
  | none => s
  | some w =>
    match w.joining with
    | none => s
    | some j =>
      if w.state = .syncing then
        if w.nregion = 0 then (s.setWin wid { w with state := .secondary, joining := none }).emit 0x401 [put s.moduleIndex 10 + wid, 0]
        else s.setWin wid { w with state := .shadow, joining := some j.fresh, lastStep := last, grad := [], gradAck := []
                                   regionStep := ((steps.take w.nregion).zipIdx).map fun x => (x.2, x.1) }
      else if !w.serves || j.shadow then s
      else if !j.dirty.isEmpty then
        j.dirty.foldl (fun s c => s.sendState wid w (c * w.regionBytes) w.regionBytes)
          (s.setWin wid { w with joining := some { j with dirty := [] } })
      else if w.nregion = 0 then s.joinDone wid w
      else (s.sendMeta wid w).setWin wid { w with joining := some { j.fresh with shadow := true, after := s.begunStep wid w } }

/-! ### Answers that come back (02 R32) -/

/-- A mirrored update region is held by both copies: its step rises, and its chunk counts in the context of that step, if one is
open (09 R243, R244). -/
def Body.regionHeld (s : Body) (wid c : Nat) (step : W64) : Body :=
  let mine := s.coll.ctxs.filter fun x => x.ar.rop == ropUpdate && polWindow x.pol == wid && (stepD x.step).step == step
  mine.foldl (fun s x => match s.stage ⟨x.key, c⟩ with
    | some t =>
      if t.owed then
        ((s.putStage { t with owed := false }).modCtx x.key fun d =>
          { d with confirmed := if d.confirmed.contains c then d.confirmed else d.confirmed ++ [c] }).closeIfDone x.key
      else s
    | none => s) (s.regionDone wid c step)

/-- Mirror writes whose lines have come free go out, in order. -/
def Body.retryLater (s : Body) (wid : Nat) : Body :=
  let mine := s.mss.later.filter fun y => y.wid == wid
  let s := { s with mss := { s.mss with later := s.mss.later.filter fun y => y.wid != wid } }
  match s.win wid with
  | none => s
  | some w => mine.foldl (fun s y => s.mirror wid w y) s

/-- What an acknowledged frame settles. -/
def Body.settleSent (s : Body) (x : Sent) (ok : Bool) : Body :=
  match x with
  | .mirror wid off _ src tag kind old =>
    match s.win wid with
    | some w => (s.fmemAnswer (s.memDie (w.addr off)) src tag kind wid off old).retryLater wid
    | none => s
  | .gradient wid c step => s.regionHeld wid c step
  | .digest wid c step => s.digestAnswer wid c step ok
  | _ => s

/-- ACK, NACK, GETRESP or ATOMRESP at the module: a NACK of a mirror or gradient write leaves it unacknowledged, and one whose
tail is bad settles nothing (03 R84). -/
def Body.answerIn (s : Body) (fid : Nat) : Body :=
  match s.frame fid with
  | none => s
  | some f =>
    match f.here, f.rest with
    | some .answer, some r =>
      let o := f.hdr.opc.toNat
      let hit := if o = opAck ∨ o = opNack then s.mss.sent.find? fun x => x.1 == f.hdr.tag else none
      match hit with
      | none => (s.bump .unsolicitedResp 0).doneHere fid
      | some x =>
        if !usable f r then s.doneHere fid
        else
        let s := s.doneHere fid
        let held : Bool := match x.2 with | .mirror .. => true | .gradient .. => true | _ => false
        if o = opNack ∧ held then s
        else ({ s with mss := { s.mss with sent := s.mss.sent.erase x } } : Body).settleSent x.2 (o = opAck)
    | _, _ => s

/-! ### SOLO (09 R238, R248) -/

/-- A window's move is audited; the manual gives the record no OP (13 R344; entry 26). -/
def Body.auditWindow (s : Body) (wid : Nat) : Body := s.auditModule 3 (fld (Config.unstated 55) 7 0) wid 0

/-- The window's contents are lost: contexts bound to it close (09 R248). -/
def Body.loseState (s : Body) (wid : Nat) (w : Window) : Body :=
  let s := (s.setWin wid { w with state := .stateLost, joining := none, soloAsked := false }).emit 0x400 [wid, w.lastStep.toNat]
  let s := s.auditWindow wid
  (s.coll.ctxs.filter fun c => c.ar.rop == ropUpdate && polWindow c.pol == wid).foldl (fun s c => s.closeCtx c.key 6 0) s

/-- Heartbeats between the two copies run. -/
def Window.beats (w : Window) : Bool :=
  w.state == .primary || w.state == .secondary || w.state == .syncing || w.state == .shadow || (w.serves && w.joining.isSome)

def Body.heartbeat (s : Body) (wid : Nat) : Body :=
  match s.win wid with
  | some w => if w.beats && !w.damaged && s.power.state == .operational then s.sendMgmtTo w.bplane w.buddy (put 0x40 56 + put wid 40) else s
  | none => s

/-- No heartbeat for BUDDY_TIMEOUT. -/
def Body.buddyLost (s : Body) (wid : Nat) : Body :=
  match s.win wid with
  | none => s
  | some w =>
    if s.power.state != .operational || w.damaged then s
    else match w.state with
      | .primary | .secondary =>
        if w.soloAsked then s
        else (s.setWin wid { w with soloAsked := true }).sendMgmtTo w.wplane w.witness (put 0x41 56 + put wid 40 + put s.moduleIndex 30)
      | .syncing | .shadow => s.loseState wid w
      | _ => if w.serves && w.joining.isSome then s.joinFailed wid w else s

/-- The witness grants the first copy of the pair that asks. -/
def Body.soloReq (s : Body) (src : Nat) (w0 : W64) : Body :=
  let wid := fld w0 55 40
  let who := fld w0 39 30
  if s.mss.granted.any fun x => x.1 == wid then s.sendMgmt src (put 0x43 56 + put wid 40)
  else ({ s with mss := { s.mss with granted := s.mss.granted ++ [(wid, who)] } } : Body).sendMgmt src (put 0x42 56 + put wid 40)

/-- Granted: the copy answers on its own what waited for its buddy. -/
def Body.soloGrant (s : Body) (w0 : W64) : Body :=
  let wid := fld w0 55 40
  match s.win wid with
  | none => s
  | some w =>
    if !w.soloAsked then s
    else
      let mine := s.mss.sent.filter fun x => match x.2 with
        | .mirror v .. => v == wid
        | .gradient v _ _ => v == wid
        | .stepSlot v => v == wid
        | _ => false
      let later := s.mss.later.filter fun y => y.wid == wid
      let s := { s with mss := { s.mss with sent := s.mss.sent.filter (fun x => !mine.contains x)
                                            later := s.mss.later.filter fun y => y.wid != wid } }
      let s := (s.setWin wid { w with state := .solo, soloAsked := false }).auditWindow wid
      let s := mine.foldl (fun s x => s.settleSent x.2 true) s
      later.foldl (fun s y => s.fmemAnswer (s.memDie (w.addr y.off)) y.src y.tag y.kind wid y.off y.old) s

/-- Denied, or no answer within 1 ms: DETACHED. `lost`: the witness reports that no copy of the pair holds SOLO or PRIMARY, and a
DETACHED copy becomes STATE_LOST (09 R238, R248; entry 85). -/
def Body.soloDeny (s : Body) (wid : Nat) (lost : Bool) : Body :=
  match s.win wid with
  | some w =>
    let d := { w with state := .detached, soloAsked := false }
    let s := if w.soloAsked then (s.setWin wid d).auditWindow wid else s
    if lost && (w.soloAsked || w.state == .detached) then s.loseState wid d else s
  | none => s

def Body.pairReset (s : Body) (w0 : W64) : Body :=
  { s with mss := { s.mss with granted := s.mss.granted.filter fun x => x.1 != fld w0 55 40 } }

/-! ### The commands -/

def execFmemPut (fid : Nat) (s : State) : Ans := onData s fun b => b.fmemPut fid

def execFmemGet (fid : Nat) (s : State) : Ans := onData s fun b => b.fmemGet fid

def execFmemAtomic (fid : Nat) (s : State) : Ans := onData s fun b => b.fmemAtomic fid

def execGradientPut (fid : Nat) (s : State) : Ans := onData s fun b => b.gradientPut fid

def execDigestPut (fid : Nat) (s : State) : Ans := onData s fun b => b.digestPut fid

def execAnswerArrival (fid : Nat) (s : State) : Ans := onData s fun b => b.answerIn fid

def execJoinCopyComplete (j : JoinEnd) (s : State) : Ans := onData s fun b => b.copyComplete j.wid.val j.lastStep j.steps

def execDuplicateFilterExpiry (src : W32) (tag : W16) (wid : W16) (off : BitVec 48) (s : State) : Ans := onData s fun b =>
  { b with mss := { b.mss with dup := b.mss.dup.filter fun e =>
      !(e.src == src && e.tag == tag && e.wid == wid.toNat && e.off == off.toNat) } }

def execFeature (fid : Nat) (s : State) : Ans := onData s fun b =>
  b.mgmtIn fid 0x30 fun b i w0 => { b with coll := { b.coll with features := mset b.coll.features i (fld w0 55 52) } }

def execBuddyHb (fid : Nat) (s : State) : Ans := onData s fun b => b.mgmtIn fid 0x40 fun b _ _ => b

def execBuddyHeartbeatSend (wid : Fin 1024) (s : State) : Ans := onData s fun b => b.heartbeat wid.val

def execBuddyTimeout (wid : Fin 1024) (s : State) : Ans := onData s fun b => b.buddyLost wid.val

def execSoloReq (fid : Nat) (s : State) : Ans := onData s fun b => b.mgmtIn fid 0x41 fun b i w0 => b.soloReq i w0

def execSoloGrant (fid : Nat) (s : State) : Ans := onData s fun b => b.mgmtIn fid 0x42 fun b _ w0 => b.soloGrant w0

def execSoloDeny (d : Denial) (s : State) : Ans :=
  onData s fun b => b.mgmtIn d.fid 0x43 fun b _ w0 => b.soloDeny (fld w0 55 40) d.lost

def execSoloReqTimeout (n : NoGrant) (s : State) : Ans := onData s fun b => b.soloDeny n.wid.val n.lost

def execPairReset (fid : Nat) (s : State) : Ans := onData s fun b => b.mgmtIn fid 0x44 fun b _ w0 => b.pairReset w0

end Sys2Proof.Machine
end

