-- ==== Sys2Proof/Machine/FmemCmds.lean ====
section
/-! DEFINITION. FMEM commands (11 Table 11-5 class 3; 09 R228, R241, R245; 11 R294). -/
namespace Sys2Proof.Machine

def fmWid (d : Desc) : Nat := d.f 2 9 0
def fmUpdate (d : Desc) : Bool := d.f 2 11 10 == 1
def fmRp (d : Desc) : Nat := d.f 3 21 0
def fmNregion (d : Desc) : Nat := d.f 3 45 22
def fmRule (d : Desc) : Nat := d.f 2 15 13

/-- Bytes of the state area. -/
def fmSize (d : Desc) : Nat := if fmUpdate d then fmNregion d * fmRp d * (4 * ruleState (fmRule d)) else d.word 3

/-- BAD_DESC of FMEM CREATE: reserved values, and R241. -/
def createBad (d : Desc) : Bool :=
  d.f 2 11 10 > 1 || d.f 4 16 8 > 511 || d.f 4 25 17 > 511
    || (if fmUpdate d then fmRp d == 0 || fmRp d > 2097152 || fmRp d % 256 != 0 || fmNregion d == 0 || fmNregion d > 0xFFFFFE
          || fmRule d == 0 || fmRule d > 4
        else d.word 3 == 0 || d.word 3 ≥ 2 ^ 48)

/-- The lowest free run of n units: between the windows in order of base. -/
def freeRun (total n : Nat) : Nat → List (Nat × Nat) → Option Nat
  | a, [] => if a + n ≤ total then some a else none
  | a, (b, u) :: t => if a + n ≤ b then some a else freeRun total n (max a (b + u)) t

def Body.findRun (s : Body) (n : Nat) : Option Nat :=
  freeRun s.mss.fmemUnits n 0 (sortBy (fun (a b : Nat × Nat) => a.1 < b.1) (s.mss.windows.map fun w => (w.2.base, w.2.units)))

/-- Place a window in a free run and fill it with zeros (09 R228). -/
def Body.placeWindow (s : Body) (wid : Nat) (w : Window) : Option Body :=
  let n := ceilDiv w.size unitBytes
  match s.findRun n with
  | none => none
  | some b =>
    let s := { s with mss := { s.mss with mem := Memory.clear s.mss.mem (b * unitBytes) (n * unitBytes) } }
    some (s.setWin wid { w with base := b, units := n })

def fmWindow (d : Desc) : Window :=
  { update := fmUpdate d, rdonly := !fmUpdate d && d.f 2 12 12 == 1, rule := if fmUpdate d then fmRule d else 0
    group := if fmUpdate d then d.f 2 41 16 else 0, planemask := BitVec.ofNat 8 (d.f 4 7 0), podlo := d.f 4 16 8, podhi := d.f 4 25 17
    size := fmSize d, rp := if fmUpdate d then fmRp d else 0, nregion := if fmUpdate d then fmNregion d else 0 }

/-- No fabric memory on the variant (00 R5). -/
def fmAbsent (s : Body) : Bool := !s.variant.hasFmem

def specFmemCreate : CmdSpec :=
  { cls := 3, op := 1
    bad0 := fun _ _ d => createBad d
    pre := fun s _ d => if fmAbsent s || (s.win (fmWid d)).isSome then stIllegal else 0
    mode := .atomic (fun _ => 0) (fun _ _ _ => false) fun s _ d _ =>
      match s.placeWindow (fmWid d) (fmWindow d) with
      | some s => { s, d0 := s.own.toNat }
      | none => .no s stNoRoom }

/-! ### MIRROR (09 R245; 11 R294) -/

def mirJoin (d : Desc) : Bool := d.f 2 10 10 == 1
def mirPlane (d : Desc) : Nat := d.f 2 13 11
def mirBuddy (d : Desc) : Nat := d.f 2 23 14
def mirWplane (d : Desc) : Nat := d.f 2 26 24
def mirWitness (d : Desc) : Nat := d.f 2 36 27

/-- A window with the survivor's metadata; the mirror's own fields and the place are this module's (09 R245). -/
def Window.setMeta (w : Window) (m : WindowMeta) : Window :=
  { w with update := m.update, rdonly := m.rdonly, rule := m.rule.toNat, group := m.group.toNat, planemask := m.planemask
           podlo := m.podlo.toNat, podhi := m.podhi.toNat, size := m.size.toNat, rp := m.rp.toNat, nregion := m.nregion.toNat
           lastStep := m.lastStep }

/-- MIRROR: at the survivor the copy starts; at the joining copy, which is FREE or DETACHED, a window of the survivor's shape is
placed and enters SYNCING. -/
def mirrorRun (v : Survivor) (s : Body) (_ : CmdRef) (d : Desc) (_ : List Byte) : HostRes :=
  let wid := fmWid d
  let pair := fun (w : Window) => { w with bplane := mirPlane d, buddy := mirBuddy d, wplane := mirWplane d, witness := mirWitness d
                                           soloAsked := false, joining := some { peer := mirBuddy d } }
  let d0 := put (infraAddr (mirPlane d) (mirBuddy d) 0).toNat 32 + s.own.toNat
  let place := fun (s : Body) (w : Window) => match s.placeWindow wid { pair w with state := .syncing } with
    | some s => { s, d0 : HostRes }
    | none => .no s stNoRoom
  match s.win wid, mirJoin d, v with
  | some w, false, _ => { s := (s.setWin wid (pair w)).sendCopy wid (pair w), d0 }
  | some w, true, .serves m =>
    let free := { s with mss := { s.mss with windows := mdel s.mss.windows wid } }
    if w.size = m.size.toNat then { s := s.setWin wid { pair (w.setMeta m) with state := .syncing }, d0 } else place free (w.setMeta m)
  | none, _, .serves m => place s (({} : Window).setMeta m)
  | _, _, .lost _ => .no s stStateLost

/-- LAST_STEP of a survivor whose window is STATE_LOST. -/
def lostAt : Survivor → Option W64
  | .lost n => some n
  | .serves _ => none

def specFmemMirror (v : Survivor) : CmdSpec :=
  { cls := 3, op := 2
    bad0 := fun s _ d =>
      let me := (s.homePlane, s.moduleIndex)
      let b := (mirPlane d, mirBuddy d)
      let w := (mirWplane d, mirWitness d)
      b == me || w == me || w == b
    begin := fun _ _ _ => (lostAt v).getD 0
    pre := fun s _ d =>
      if fmAbsent s then stIllegal
      else match s.win (fmWid d) with
        | some w =>
          if mirJoin d then (if w.state != .detached then stIllegal else if (lostAt v).isSome then stStateLost else 0)
          else if w.state == .active || w.state == .solo then 0 else stIllegal
        | none => if !mirJoin d then stIllegal else if (lostAt v).isSome then stStateLost else 0
    mode := .atomic (fun _ => 0) (fun _ _ _ => false) (mirrorRun v) }

/-! ### DESTROY, RESTORE, SAVE -/

def specFmemDestroy : CmdSpec :=
  { cls := 3, op := 3
    pre := fun s _ d => if fmAbsent s || (s.win (fmWid d)).isNone then stIllegal else 0
    mode := .atomic (fun _ => 0) (fun _ _ _ => false) fun s _ d _ =>
      { s := { s with mss := { s.mss with windows := mdel s.mss.windows (fmWid d) } } } }

def fmOff (d : Desc) : Nat := d.word 4
def fmLen (d : Desc) : Nat := d.word 5

/-- The range lies in the window's state area. -/
def rangeBad (s : Body) (d : Desc) : Bool := match s.win (fmWid d) with
  | some w => fmOff d + fmLen d > w.size
  | none => false

def restoreFeed (s : Body) (_ : CmdRef) (d : Desc) (data : List Byte) : Body × Desc :=
  let bs := data.take (fmLen d - d.done)
  match s.win (fmWid d) with
  | none => (s, { d with done := d.done + bs.length })
  | some w =>
    let o := fmOff d + d.done
    let s := s.winWrite w o bs
    let rb := max 1 w.regionBytes
    let w' := if w.update && !bs.isEmpty then
        ((List.range ((o + bs.length - 1) / rb - o / rb + 1)).map fun k => o / rb + k).foldl (fun w c => w.touch c) w else w
    (s.setWin (fmWid d) w', { d with done := d.done + bs.length })

/-- FINAL sets LAST_STEP and every region's step, and revives a STATE_LOST window (11 R293, R294). -/
def restoreEnd (s : Body) (_ : CmdRef) (d : Desc) : HostRes :=
  match s.win (fmWid d) with
  | none => { s, d1 := d.done }
  | some w =>
    if d.f 2 16 16 = 1 then
      let st := BitVec.ofNat 64 (d.word 6)
      let w := { w with lastStep := st, regionStep := (List.range w.nregion).map fun c => (c, st)
                        state := if w.state = .stateLost then .active else w.state }
      { s := s.setWin (fmWid d) w, d1 := d.done }
    else { s, d1 := d.done }

def specFmemRestore : CmdSpec :=
  { cls := 3, op := 4
    bad0 := fun s _ d => rangeBad s d
    pre := fun s _ d => if fmAbsent s then stIllegal else match s.win (fmWid d) with
      | some w => if !(w.state == .active || w.state == .solo || w.state == .stateLost) then stIllegal else if w.damaged then stNotReady else 0
      | none => stIllegal
    mode := .input (fun d => d.done ≥ fmLen d) restoreFeed restoreEnd }

def specFmemSave : CmdSpec :=
  { cls := 3, op := 5
    bad0 := fun s _ d => rangeBad s d
    begin := fun s _ d => match s.win (fmWid d) with | some w => w.lastStep | none => 0
    pre := fun s _ d => if fmAbsent s then stIllegal else match s.win (fmWid d) with
      | some w => if w.state == .stateLost then stIllegal else if w.serves && !w.damaged then 0 else stNotReady
      | none => stIllegal
    mode := .output fmLen (fun d => d.word 3)
      (fun s d off n => (s, match s.win (fmWid d) with | some w => s.winRead w (fmOff d + off) n | none => []))
      fun s _ d => { s, d0 := d.step0.toNat, d1 := match s.win (fmWid d) with | some w => w.lastStep.toNat | none => 0 } }

/-! ### The commands -/

def execFmemCreate (r : CmdRef) (s : State) : Ans := onBody s fun b => hostCmd specFmemCreate b r [] 0

def execFmemMirror (r : CmdRef) (survivor : Survivor) (s : State) : Ans :=
  onBody s fun b => hostCmd (specFmemMirror survivor) b r [] 0

def execFmemDestroy (r : CmdRef) (s : State) : Ans := onBody s fun b => hostCmd specFmemDestroy b r [] 0

def execFmemRestore (r : CmdRef) (data : List Byte) (s : State) : Ans := onBody s fun b => hostCmd specFmemRestore b r data 0

def execFmemSave (r : CmdRef) (units : Nat) (s : State) : Ans := onBody s fun b => hostCmd specFmemSave b r [] units

end Sys2Proof.Machine
end

