-- ==== Sys2Proof/Machine/Reset.lean ====
section
/-! DEFINITION. Fatal stops and what a reset keeps and loses (12 R307; 14 R373, R379-R384, Tables 14-4 and 14-6). -/
namespace Sys2Proof.Machine

/-- Frames being launched are cut short: no tail follows (03 R82, 12 R307). -/
def Body.cutLaunches (s : Body) : Body :=
  s.lports.foldl (fun s x =>
    match x.2.launch, x.2.launchCopy with
    | some fid, some c =>
      (match s.frame fid with | some f => s.putOut (.frame x.1 (copyHdr f.hdr c) f.ext none) | none => s).modLp x.1
        fun y => { y with launch := none, launchCopy := none, launchHop := none }
    | _, _ => s) s

/-- Every transmitter is dark (06 Table 6-7). -/
def Body.goDark (s : Body) : Body :=
  { s with
    lports := s.lports.map fun (x : Nat × LPort) => (x.1, { x.2 with state := .disabled, lock := false, drain := none })
    carts := s.carts.map fun (x : Nat × Cart) => (x.1, { x.2 with state := if x.2.state = .atPower then .inserted else x.2.state }) }

/-- A command that ends without a completion is forgotten; a running activation keeps the former slot (13 R351). -/
def Body.dropActivation (s : Body) : Body := { s with sec := { s.sec with activation := none } }

/-- The states in which a fatal stop can happen: the IOD runs and the module has not stopped. -/
def PowerState.runs : PowerState → Bool
  | .bringup | .operational | .removing => true
  | _ => false

/-- A stop: STOPPED, with its cause on the Lantern page (15 R394, Table 15-9). -/
def Body.stopWith (s : Body) (cause die stack subsys : Nat) : Body :=
  ({ s with power := { s.power with state := .stopped, thermalStop := cause == 0x0B } } : Body).lanternPut fun l =>
    { l with stopPhase := BitVec.ofNat 8 s.power.phase, stopCause := BitVec.ofNat 8 cause, die := BitVec.ofNat 8 die
             stack := BitVec.ofNat 8 stack, subsys := BitVec.ofNat 8 subsys }

/-- A fatal stop: nothing more is launched, light goes, the fallback map applies (12 R307). -/
def Body.fatalStop (s : Body) (cause die stack subsys : Nat) : Body :=
  if s.power.state.runs then
    (s.cutLaunches.goDark.dropActivation.stopWith cause die stack subsys).applyFallback
  else s

/-- The link of an interface drops, and its function with it. -/
def Iface.dropped (f : Iface) : Iface := { f with linkUp := false, tcache := [] }

/-- A fatal stop that finds the IOD not running: light and the host links go, the circuits hold (06 R165, Table 6-7). -/
def Body.silentStop (s : Body) : Body :=
  if s.power.state.runs then
    let s := s.cutLaunches.goDark.dropActivation
    { s with power := { s.power with state := .stopped, iodStopped := true, thermalStop := false }
             hifA := s.hifA.dropped, hifB := s.hifB.dropped }
  else s

/-! ### What MRAM holds of the groups (01 R25, 14 R384) -/

/-- The context journal names every group (14 Table 14-7). -/
def Body.journal (s : Body) : Body :=
  { s with mram := { s.mram with epochFloors :=
    (s.coll.groups.filter fun g => g.2.state != .creating).foldl (fun l g => raiseFloor l g.2.addr g.2.epoch) s.mram.epochFloors } }

/-! ### Resets (14 Table 14-4) -/

/-- BAR0 fields marked [M] return to their reset value; link, function state and the other fields stay (16 R401). -/
def Iface.moduleReset (f : Iface) : Iface :=
  { pollT := f.pollT, priTimeout := f.priTimeout, errMask := f.errMask, msix := f.msix, linkUp := f.linkUp
    priEnabled := f.priEnabled, tcache := f.tcache }

/-- What the key store, the slots and the audit log keep without power (13 R338, R345, R349). -/
def Sec.kept (x : Sec) : Sec :=
  { operKeys := x.operKeys, instKeys := x.instKeys, plane0 := x.plane0, plane1 := x.plane1, fw := x.fw, fuseDigest := x.fuseDigest
    audit := { x.audit with buffered := [], lost := 0 } }

/-- The lines of the profile the MRAM keeps (16 "The installer profile"). -/
def Portage.kept (p : Portage) : Portage := { cells := p.cells, wear := p.wear }

/-- A cartridge as it stands in its bay, lasers off. -/
def Cart.off (c : Cart) : Cart :=
  { state := match c.state with | .absent => .absent | _ => .inserted }

/-- Everything a power cycle loses is gone: MRAM, key store, cells and what is plugged stay (14 Table 14-4). -/
def Body.powerCycled (s : Body) : Body :=
  { sec := s.sec.kept, portage := s.portage.kept, profiles := s.profiles, mram := s.mram, out := s.out, free := s.free
    carts := s.carts.map fun x => (x.1, x.2.off) }

/-- What a module reset leaves: hall time and the host links run on (14 Table 14-4; entry 43). -/
def Body.moduleCleared (s : Body) : Body :=
  let s := s.journal
  { s.powerCycled with
    hifA := s.hifA.moduleReset, hifB := s.hifB.moduleReset, lantern := s.lantern, power := s.power
    clock := { ns := s.clock.ns, frac := s.clock.frac } }

end Sys2Proof.Machine
end

