-- ==== Sys2Proof/Machine/Budget.lean ====
section
/-! DEFINITION. Budget, thermal protection, saturation and express requests (10 R262-R273, R279, R280; 14 R369-R371;
01 R23, R24). -/
namespace Sys2Proof.Machine

/-! ### Units and power (10 R270, R271) -/

/-- A Sett that takes part in the budget. -/
def inBudget (x : Sett) : Bool :=
  match x.state with
  | .inService | .duplicate | .subject => true
  | .spare => x.use != .none
  | .quarantined => false

/-- Fitted stacks, as P2 read them. -/
def Body.stacks (s : Body) : List Nat := setBits 20 s.lantern.fittedHbm

/-- Units in their cyclic order: Setts 0 to 19, then HBM controllers as 20 to 39 (14 R371). -/
def Body.units (s : Body) : List Nat :=
  ((List.range 20).filter fun n => inBudget (s.sett n)) ++ s.stacks.map (· + 20)

/-- Margin clock: 1.05 × SCLK_MAX rounded up to a whole 50 MHz step, at most 2.1 GHz (12 R329). -/
def Body.marginClock (s : Body) : Nat := min 2100 (ceilDiv (s.profiles.inForce.sclkMax * 105) 5000 * 50)

def unitFloor (i : Nat) : Nat := if i < 20 then 600 else 20

/-- Top of a unit's ladder. -/
def Body.unitTop (s : Body) (i : Nat) : Nat :=
  if i < 20 then (if (s.sett i).state = .subject then s.marginClock else s.profiles.inForce.sclkMax) else 100

def unitStep (i : Nat) : Nat := if i < 20 then 50 else 5

/-- Steps of a unit's ladder, lowest first. -/
def Body.ladder (s : Body) (i : Nat) : List Nat :=
  (List.range ((s.unitTop i - unitFloor i) / unitStep i + 1)).map fun k => unitFloor i + unitStep i * k

/-- Power of an HBM stack at a cap in per cent, in µW (10 Table 10-7). -/
def hbmPower (pct : Nat) : Nat := 9000000 + (pct - 20) * 262500

/-- Power of a unit at a step, in µW; a SUBJECT at its margin clock draws 0.88 × P(f). -/
def Body.unitPower (s : Body) (i v : Nat) : Nat :=
  if i < 20 then 1000 * settDraw ((s.sett i).state == .subject && v == s.marginClock) v else hbmPower v

/-- The grant in force. -/
def Body.unitNow (s : Body) (i : Nat) : Nat := if i < 20 then (s.sett i).lower.getD (s.sett i).sclk else mgetD s.budget.hbmCap (i - 20) 20

/-- The demand CLP gave last. -/
def Body.unitDemand (s : Body) (i : Nat) : Nat :=
  if i < 20 then mgetD s.budget.settDemand i 600 else mgetD s.budget.hbmDemand (i - 20) 20

/-! ### Period boundary: grants take effect, demands are given (01 R23; 10 R272, R279) -/

/-- Energy of a period at a power in µW, in pJ. -/
def periodEnergy (uw : Nat) : Nat := uw * 10

/-- The grant of a step. -/
def Body.grantAt (s : Body) (i v : Nat) : Grant := { step := v, energy := periodEnergy (s.unitPower i v) }

/-- Put a grant in force; a Sett with a result frame in launch lowers its SCLK only after that frame's tail (03 R81). -/
def Body.putGrant (s : Body) (i : Nat) (g : Grant) : Body :=
  if i < 20 then s.modSett i fun x =>
    let wait := g.step < x.sclk && s.settLaunching i
    { x with sclk := if wait then x.sclk else g.step, lower := if wait then some g.step else none, energy := g.energy, next := none }
  else
    let n := i - 20
    { s with budget := { s.budget with hbmCap := mset s.budget.hbmCap n g.step, hbmEnergy := mset s.budget.hbmEnergy n g.energy
                                       hbmNext := mdel s.budget.hbmNext n } }

/-- Every grant that has arrived takes effect. -/
def Body.takeGrants (s : Body) : Body :=
  let s := (List.range 20).foldl (fun s n => match (s.sett n).next with | some v => s.putGrant n v | none => s) s
  s.budget.hbmNext.foldl (fun s x => s.putGrant (x.1 + 20) x.2) s

/-- Temperatures that the sensors report. -/
def Body.readTemps (s : Body) (l : List (HotUnit × Nat)) : Body :=
  l.foldl (fun s x => match x.1 with
    | .sett n => s.modSett n.val fun y => { y with tj := x.2 }
    | .stack n => { s with budget := { s.budget with hbmTemp := mset s.budget.hbmTemp n.val x.2 } }
    | .engine e => { s with budget := { s.budget with oeTemp := mset s.budget.oeTemp e.val x.2 } }
    | .die _ => s) s

/-- A demand ceiling moves one step: down at the hot threshold, up below the cool one (10 Table 10-11). -/
def moveCeil (ceil top t hot cool step floor : Nat) : Nat :=
  if hot ≤ t then max floor (min ceil top - step) else if t < cool then min top (ceil + step) else min ceil top

def Body.moveCeils (s : Body) : Body :=
  let s := (List.range 20).foldl (fun s n => s.modSett n fun x => { x with ceil := moveCeil x.ceil (s.unitTop n) x.tj 95 90 50 600 }) s
  { s with budget := { s.budget with hbmCeil := s.stacks.foldl (fun m k =>
      mset m k (moveCeil (mgetD m k 100) 100 (mgetD s.budget.hbmTemp k 25) 90 85 5 20)) s.budget.hbmCeil } }

/-- The Sett has a dispatch unit that is ready. -/
def Body.hasReady (s : Body) (n : Nat) : Bool := (s.unitsOf n).any fun u => s.unitFree u.1 u.2.2.1 u.2.2.2.1

/-- What a Sett demands, before its ceiling. -/
def Body.settWants (s : Body) (n : Nat) : Nat :=
  let x := s.sett n
  if x.state = .subject ∧ x.test = .running then s.marginClock
  else if s.hasReady n || x.recent > 0 then s.profiles.inForce.sclkMax
  else 600

/-- A port of the die is in Bivouac hold. -/
def Body.dieHolds (s : Body) (die : Nat) : Bool := s.lports.any fun x => dieOf x.1 == die && x.2.hold.isSome

/-- What an HBM controller demands, before its ceiling: the next 5 % step above what it was asked for. -/
def Body.hbmWants (s : Body) (k asked : Nat) : Nat :=
  if s.dieHolds (k / 5) then 100 else max 20 (min 100 ((asked / 50 + 1) * 5))

/-- CLP's demands at the start of a period. -/
def Body.giveDemands (s : Body) (asked : List (Fin 20 × Nat)) : Body :=
  let ask := fun (k : Nat) => match asked.find? fun x => x.1.val == k with | some x => x.2 | none => 0
  let b := s.budget
  let sd := (List.range 20).foldl (fun m n => mset m n (min (s.settWants n) (s.sett n).ceil)) b.settDemand
  let hd := s.stacks.foldl (fun m k => mset m k (min (s.hbmWants k (ask k)) (mgetD b.hbmCeil k 100))) b.hbmDemand
  let s := { s with budget := { b with settDemand := sd, hbmDemand := hd } }
  (List.range 20).foldl (fun s n => if (s.sett n).recent > 0 then s.modSett n fun x => { x with recent := x.recent - 1 } else s) s

/-- The start of a period of 10 µs (10 R272). CLP gives no demand while its plane restarts (entry 41). -/
def Body.demand (s : Body) (v : PeriodView) : Body :=
  let s := (s.takeGrants.readTemps v.hot).moveCeils
  if s.planes.controlRestart then s else s.giveDemands v.asked

/-! ### Grants (10 R270, R273; 14 R370, R371) -/

/-- Highest step within the allotment: P(s) - P(floor) ≤ num / den × want. -/
def Body.stepWithin (s : Body) (i num den want : Nat) : Nat :=
  let fl := s.unitPower i (unitFloor i)
  ((s.ladder i).reverse.find? fun v => (s.unitPower i v - fl) * den ≤ num * want).getD (unitFloor i)

/-- Watts of load that one period may add, × 10886: 9.6 W at the input, in µW (14 R371). -/
def rampLimit : Nat := 96000000000

/-- One round of raises in the cyclic order: (unit, step now, target), what is left, the last one raised. -/
def Body.raiseRound (s : Body) (l : List (Nat × Nat × Nat)) (left last : Nat) : List (Nat × Nat × Nat) × Nat × Nat :=
  l.foldl (fun (acc : List (Nat × Nat × Nat) × Nat × Nat) x =>
    let (i, v, t) := x
    let cost := (s.unitPower i (v + unitStep i) - s.unitPower i v) * 10886
    if v < t && cost ≤ acc.2.1 then (acc.1 ++ [(i, v + unitStep i, t)], acc.2.1 - cost, i) else (acc.1 ++ [x], acc.2.1, acc.2.2))
    ([], left, last)

/-- Rounds until no further step fits. -/
def Body.raiseRounds (s : Body) (l : List (Nat × Nat × Nat)) (left last : Nat) : Nat → List (Nat × Nat × Nat) × Nat
  | 0 => (l, last)
  | n + 1 =>
    let (l', left', last') := s.raiseRound l left last
    if l' = l then (l, last) else s.raiseRounds l' left' last' n

/-- Grants after the ramp limit: decreases in full, raises in rotation when the limit binds. -/
def Body.ramped (s : Body) (l : List (Nat × Nat)) : List (Nat × Nat) × Nat :=
  let up := l.filter fun x => s.unitNow x.1 < x.2
  let rise := up.foldl (fun a x => a + (s.unitPower x.1 x.2 - s.unitPower x.1 (s.unitNow x.1))) 0
  if rise * 10886 ≤ rampLimit then (l, s.budget.lastRaised)
  else
    let key := fun (i : Nat) => (i + 39 - s.budget.lastRaised) % 40
    let r := s.raiseRounds ((sortBy (fun (a b : Nat × Nat) => key a.1 < key b.1) up).map fun x => (x.1, s.unitNow x.1, x.2))
      rampLimit s.budget.lastRaised 64
    (l.map fun x => match r.1.find? fun y => y.1 == x.1 with | some y => (x.1, y.2.1) | none => x, r.2)

/-- Hand a grant to its unit for the next period. -/
def Body.sendGrant (s : Body) (x : Nat × Nat) : Body :=
  if x.1 < 20 then s.modSett x.1 fun y => { y with next := some (s.grantAt x.1 x.2) }
  else { s with budget := { s.budget with hbmNext := mset s.budget.hbmNext (x.1 - 20) (s.grantAt x.1 x.2) } }

/-- BUDGET_BELOW_FLOOR and its count of periods (10 R270). -/
def Body.markFloor (s : Body) (below : Bool) (floors : Nat) : Body :=
  let pf := s.variant.pFixed
  let low := pf + ceilDiv (floors * 10886) 10000000000
  let s := if below && !s.budget.belowFloor then s.emit 0x600 [put (low % 65536) 16 + s.budget.cap % 65536] else s
  let s := if below then s.bump .budgetFloorPeriods 0 else s
  { s with budget := { s.budget with belowFloor := below } }

/-- PWR computes and issues the grants of the next period. -/
def Body.energyGrant (s : Body) : Body :=
  if s.planes.mgmtRestart then s.units.foldl (fun s i => s.sendGrant (i, s.unitNow i)) s
  else
    let us := s.units
    let floors := us.foldl (fun a i => a + s.unitPower i (unitFloor i)) 0
    -- the pool in µW of load × 10886
    let base : Int := ((s.budget.cap : Int) - (s.variant.pFixed : Int)) * 10000000000 - (floors * 10886 : Nat)
    let pool : Int := base - (s.budget.excess * 10000000000 : Nat)
    let wants := us.map fun i => (i, s.unitPower i (s.unitDemand i) - s.unitPower i (unitFloor i))
    let sum : Nat := (wants.foldl (fun (a : Nat) x => a + x.2) 0) * 10886
    let k : Nat × Nat :=
      if pool ≤ 0 ∨ s.budget.maxLeft > 0 then (0, 1) else if (Int.ofNat sum) ≤ pool then (1, 1) else (pool.toNat, sum)
    let s := s.markFloor (base < 0) floors
    let (gs, last) := s.ramped (wants.map fun x => (x.1, s.stepWithin x.1 k.1 k.2 x.2))
    let s := gs.foldl Body.sendGrant s
    { s with budget := { s.budget with lastRaised := last, excess := 0, maxLeft := s.budget.maxLeft - 1 } }

/-- No grant for three periods: the unit falls to its floor (01 R24). Its energy is the floor's (entry 42). -/
def Body.lapse (s : Body) (i : Nat) : Body :=
  if s.units.contains i then (s.putGrant i (s.grantAt i (unitFloor i))).bump .tokenLapse i else s

/-- Input power of the last 100 µs, and whether 1 ms of it exceeded 3,400 W (14 R370). -/
def Body.measurePower (s : Body) (watts : Nat) (overMax : Bool) : Body :=
  let s := if s.budget.cap < watts ∧ !s.budget.belowFloor then
      ({ s with budget := { s.budget with excess := watts - s.budget.cap } } : Body).bump .powerOverCap 0 else s
  if overMax then ({ s with budget := { s.budget with maxLeft := 1000 } } : Body).bump .powerOverMax 0 else s

/-! ### POWER SET_CAP (14 R369) -/

def capWatts (d : Desc) : Nat := d.f 2 15 0

def specSetCap : CmdSpec :=
  { cls := 5, op := 1
    bad0 := fun _ _ d => capWatts d < 1800 || 3400 < capWatts d
    mode := .atomic (fun _ => 0) (fun _ _ _ => false) fun s _ d _ =>
      { s := { s with budget := { s.budget with cap := capWatts d } }, d0 := capWatts d } }

/-! ### Thermal protection (10 R279, R280) -/

/-- An engine's emergency begins or ends: weights by R269, the event. -/
def Body.thermalChange (s : Body) (e code tj : Nat) (l : List Nat) : Body :=
  let s := { s with budget := { s.budget with emergency := l, oeTemp := mset s.budget.oeTemp e tj } }
  ((s.emit code [put tj 8 + e]).clpChange 1 .thermal).clpChange 3 .thermal

def Body.thermalOn (s : Body) (e tj : Nat) : Body :=
  if s.budget.emergency.contains e then s else s.thermalChange e 0x601 tj (s.budget.emergency ++ [e])

def Body.thermalOff (s : Body) (e tj : Nat) : Body :=
  if s.budget.emergency.contains e then s.thermalChange e 0x602 tj (s.budget.emergency.filter (· != e)) else s

/-- DIE field of the Lantern page for a hot unit (16 Table 16-2). -/
def hotDie : HotUnit → Nat
  | .die n => n.val
  | .engine n => 6 + n.val
  | .sett n => n.val / 5
  | .stack _ => 0xFF

def hotStack : HotUnit → Nat
  | .stack n => n.val
  | _ => 0xFF

/-! ### Saturation (10 R262, R263) -/

/-- Load figures of the 100 µs that end. -/
def Body.takeLoads (s : Body) : Body :=
  (List.range 20).foldl (fun s n => s.modSett n fun x =>
    { x with loadAll := x.loadWork * loadOne / max 1 x.loadSlots, loadWork := 0, loadSlots := 0 }) s

/-- Inputs a pod supplies to one chunk stage of a context. -/
def podInputs (c : Ctx) (g : Group) (plane pod : Nat) : Nat :=
  (c.expect.filter fun i => match i with
    | .rank r => adPod (g.member r).ep == pod && adPlane (g.member r).ep == plane
    | _ => false).length

/-- One hint a second per group and pod. -/
def Body.hint (s : Body) (a : W32) (pod : Nat) : Body :=
  let k := 512 * a.toNat + pod
  let now := s.clock.ns.toNat
  match mget s.budget.hintAt k with
  | some t => if now < t + 1000000000 then s
    else ({ s with budget := { s.budget with hintAt := mset s.budget.hintAt k now } } : Body).emit 0x301 [put 1 44 + put pod 32 + a.toNat]
  | none => ({ s with budget := { s.budget with hintAt := mset s.budget.hintAt k now } } : Body).emit 0x301 [put 1 44 + put pod 32 + a.toNat]

/-- PLACEMENT_HINT for the pods of running contexts that supply 8 or more inputs with PRE = 0. -/
def Body.hints (s : Body) : Body :=
  (s.coll.ctxs.filter fun c => c.st == .running).foldl (fun s c =>
    match s.group c.key.g with
    | none => s
    | some g => (g.repl.filter fun r => r.kind == 0 && !r.pre && podInputs c g (adPlane r.target) (adPod r.target) ≥ 8).foldl
        (fun s r => s.hint g.addr (adPod r.target)) s) s

def Body.saturation (s : Body) (v : SatView) : Body :=
  let s := s.takeLoads
  let dies := (List.range 4).filter fun d => !(s.inServiceOf d).isEmpty
  let sat := dies.filter fun d => s.dieLoad d ≥ s.profiles.inForce.satLoad * (loadOne / 1000)
  let atCap := fun (k : Nat) => v.hbmAtCap.any fun x => x.1.val == k && x.2 ≥ 950
  let own := fun (d : Nat) => s.stacks.filter fun k => k / 5 == d
  let s := { s with budget := { s.budget with
    satPeers := (v.peerWait.filter fun x => x.2 ≥ 100).map fun x => x.1.val
    satDies := sat
    satHbm := (List.range 4).filter fun d => !(own d).isEmpty && (own d).all atCap } }
  if !dies.isEmpty && sat == dies then s.hints else s

/-! ### Express circuits (10 R264-R268) -/

/-- Valid candidates for a peer, in order (10 Table 10-4). -/
def Body.expressCands (s : Body) (peer : Nat) : List W64 :=
  (s.profiles.inForce.expressPlan.filter fun e => bit e 63 && fld e 62 53 == peer).take 2

/-- Word 0 of an express message for a candidate (13 Table 13-8). -/
def Body.expressWord (s : Body) (sub peer : Nat) (c : W64) : Nat :=
  put sub 56 + put s.moduleIndex 46 + put peer 36 + put (fld c 33 28) 30 + put (fld c 27 25) 27 + put (fld c 24 22) 24

/-- Send a message about a candidate to its transit module. -/
def Body.sendExpress (s : Body) (sub peer : Nat) (c : W64) : Body := s.sendMgmt (fld c 43 34) (s.expressWord sub peer c)

def Body.setTried (s : Body) (peer v : Nat) : Body := { s with budget := { s.budget with tried := mset s.budget.tried peer v } }

/-- Ask the transit of candidate n + 1, if the plan has one. -/
def Body.askCandidate (s : Body) (peer n : Nat) : Option Body :=
  match (s.expressCands peer)[n]? with
  | some c => some ((s.setTried peer (n + 1)).sendExpress 0x50 peer c)
  | none => none

/-- One measurement of 1 ms of a pair (10 R265, R268). -/
def Body.measureExpress (s : Body) (peer : Nat) : Body :=
  let b := s.budget
  let p := s.profiles.inForce
  let bytes := mgetD b.levelC peer 0
  let above := if p.expressRate * 1000000 < bytes * 8 then mgetD b.above peer 0 + 1 else 0
  let below := if bytes * 16 < p.expressRate * 1000000 then mgetD b.below peer 0 + 1 else 0
  let wait := mgetD b.expWait peer 0 - 1
  let s := { s with budget := { b with levelC := mdel b.levelC peer, above := mset b.above peer above
                                       below := mset b.below peer below, expWait := mset b.expWait peer wait } }
  let hold := if b.satPeers.contains peer then p.expressHoldSat else p.expressHold
  if !(s.moduleIndex < peer) then s
  else match mgetD b.tried peer 0 with
    | 0 => if wait = 0 ∧ hold ≤ above then (s.askCandidate peer 0).getD s else s
    | 3 | 4 =>
      if p.expressHold ≤ below then
        match (s.expressCands peer)[mgetD b.tried peer 0 - 3]? with
        | some c => (s.setTried peer 0).sendExpress 0x52 peer c
        | none => s.setTried peer 0
      else s
    | _ => s

/-- The answer to a request. -/
def Body.expressAnswer (s : Body) (src : Nat) (w : W64) : Body :=
  let peer := fld w 45 36
  let t := mgetD s.budget.tried peer 0
  if fld w 55 46 ≠ s.moduleIndex ∨ !(t == 1 || t == 2) then s
  else match (s.expressCands peer)[t - 1]? with
    | none => s
    | some c =>
      if fld c 43 34 ≠ src then s
      else if fld w 23 16 = 0 then s.setTried peer (t + 2)
      else
        let s := s.bump .expressRefused 0
        let none_ := ({ s with budget := { s.budget with above := mset s.budget.above peer 0
                                                         expWait := mset s.budget.expWait peer s.profiles.inForce.expressHold } } : Body).setTried peer 0
        if t = 1 then (s.askCandidate peer 1).getD none_ else none_

/-- A request at the transit module (10 R266, 14 R377). -/
def Body.expressRequest (s : Body) (w : W64) : Body :=
  let a := fld w 55 46
  let q := fld w 45 36
  let g := fld w 35 30
  let p1 := fld w 29 27
  let p2 := fld w 26 24
  let m := (s.bypass g).partner
  let back := fun (s : Body) (result status : Nat) => s.sendMgmt a
    (put 0x51 56 + put a 46 + put q 36 + put g 30 + put p1 27 + put p2 24 + put result 16 + put status 8)
  if s.power.state = .removing then back s 4 1
  else if !s.profiles.inForce.portageOwner.getLsbD g then back s 1 0
  else if partnerOf m p1 ≠ p1 ∨ partnerOf m p2 ≠ p2 then back s 2 0
  else if s.portage.dwell.contains g then back s 3 0
  else
    match s.clpRequest g (setFld (setFld m (4 * p1 + 2) (4 * p1) p2) (4 * p2 + 2) (4 * p2) p1) (.peer a q g p1 p2) with
    | (0, s) => s
    | (st, s) => back s 4 st

/-- A release at the transit module (10 R268). -/
def Body.expressRelease (s : Body) (w : W64) : Body :=
  if s.profiles.inForce.portageOwner.getLsbD (fld w 35 30) then s.expressRestore (fld w 35 30) (fld w 29 27) (fld w 26 24) else s

/-- Run an express message now, or after the control plane has restarted (01 Table 1-5). -/
def Body.expressIn (s : Body) (fid sub : Nat) (act : Body → Nat → W64 → Body) : Body :=
  if !s.dataRuns then s
  else if s.planes.controlRestart then
    (if s.planes.ctlQueue.contains (.frame fid) then s else { s with planes := { s.planes with ctlQueue := s.planes.ctlQueue ++ [.frame fid] } })
  else s.mgmtIn fid sub act

def Body.runReq (s : Body) (fid : Nat) : Body := s.expressIn fid 0x50 fun s _ w => s.expressRequest w
def Body.runAns (s : Body) (fid : Nat) : Body := s.expressIn fid 0x51 fun s src w => s.expressAnswer src w
def Body.runRel (s : Body) (fid : Nat) : Body := s.expressIn fid 0x52 fun s _ w => s.expressRelease w

/-! ### The commands -/

def execPowerSetCap (r : CmdRef) (s : State) : Ans := onBody s fun b => hostCmd specSetCap b r [] 0

def execDemand (v : PeriodView) (s : State) : Ans := onBody s fun b => if b.serves then b.demand v else b

def execEnergyGrant (s : State) : Ans := onBody s fun b => if b.serves then b.energyGrant else b

def execTokenLapse (u : BudgetUnit) (s : State) : Ans :=
  match u with
  | .sett n => onBody s fun b => if b.serves then b.lapse n.val else b
  | .hbm n => if s.hw.fittedHbm.getLsbD n.val then onBody s fun b => if b.serves then b.lapse (n.val + 20) else b
    else .fault (.absentStack n.val)

def execPowerMeasurement (watts : Nat) (overMax : Bool) (s : State) : Ans :=
  onBody s fun b => if b.serves then b.measurePower watts overMax else b

def execThermalEmergency (e : Fin 8) (tj : Byte) (s : State) : Ans :=
  if e.val < s.hw.engines then onBody s fun b => if b.serves then b.thermalOn e.val tj.toNat else b
  else .fault (.absentEngine e.val)

def execThermalClear (e : Fin 8) (tj : Byte) (s : State) : Ans :=
  if e.val < s.hw.engines then onBody s fun b => if b.serves then b.thermalOff e.val tj.toNat else b
  else .fault (.absentEngine e.val)

def execThermalStop (u : HotUnit) (s : State) : Ans :=
  match u with
  | .engine e => if e.val < s.hw.engines then onBody s fun b => b.fatalStop 0x0B (hotDie (.engine e)) 0xFF 0 else .fault (.absentEngine e.val)
  | .stack n => if s.hw.fittedHbm.getLsbD n.val then onBody s fun b => b.fatalStop 0x0B 0xFF n.val 0 else .fault (.absentStack n.val)
  | u => onBody s fun b => b.fatalStop 0x0B (hotDie u) (hotStack u) 0

def execSaturationEvaluation (view : SatView) (s : State) : Ans :=
  onBody s fun b => if b.serves && !b.planes.controlRestart then b.saturation view else b

def execExpressReq (fid : Nat) (s : State) : Ans := onData s fun b => b.runReq fid

def execExpressAns (fid : Nat) (s : State) : Ans := onData s fun b => b.runAns fid

def execExpressRel (fid : Nat) (s : State) : Ans := onData s fun b => b.runRel fid

def execExpressMeasurement (peer : Fin 1024) (s : State) : Ans :=
  onBody s fun b => if b.serves && !b.planes.controlRestart then b.measureExpress peer.val else b

end Sys2Proof.Machine
end

