-- ==== Sys2Proof/Machine/Integ.lean ====
section
/-! DEFINITION. Faults and live test: plane restarts, Den clusters, HBM stacks, the rotating Sett test, Ridgepole lanes, probe
cells, the failure detector (01 R17; 12 R307, R319-R334). -/
namespace Sys2Proof.Machine

/-! ### Data-plane restart (01 Table 1-5) -/

/-- Cells of one die's buffer: the sum of Table 3-1. -/
abbrev cellsPerDie : Nat := 393216

/-- The pools of every die with an empty buffer (03 R73). -/
def Body.freshPools (s : Body) : Body :=
  let s := { s with fwc := { s.fwc with pools := List.replicate 4 { shared := cellsPerDie - 4096 } } }
  (List.range 4).foldl (fun s d => s.resizePools d) s

/-- A port whose buffers are empty; the credit it granted stands (03 R76). -/
def LPort.emptied (x : LPort) : LPort :=
  let z := [0, 0, 0, 0, 0, 0, 0, 0]
  { x with tx := [], replay := [], replaying := false, launch := none, launchCopy := none, launchHop := none, rxFid := none
           rxHere := [], rxTails := [], rxSeen := [], occ := z, uncred := z, pfcOff := [] }

/-- Cells that a port's outstanding credit holds above its lane reserves (03 R75). -/
def LPort.committed (x : LPort) : Nat := (List.range 8).foldl (fun a v => a + (x.outstanding v - laneReserve v)) 0

/-- The shared pools less the credit granted on the die's links. -/
def Body.commitPools (s : Body) : Body :=
  s.lports.foldl (fun s x =>
    let pl := s.pool (dieOf x.1)
    s.setPool (dieOf x.1) { pl with shared := pl.shared - x.2.committed }) s

/-- Every frame in the cell buffer and the replay buffers is lost; frames in the Bivouac reserve, in HBM, stay. -/
def Body.loseFrames (s : Body) : Body :=
  let q := s.tms.queue.filter fun e => e.held
  let s := { s with
    fwc := { s.fwc with frames := s.fwc.frames.filter (fun f => q.any fun e => e.copy.fid == f.fid), origWait := [] }
    tms := { s.tms with queue := q }
    lports := s.lports.map fun (x : Nat × LPort) => (x.1, x.2.emptied) }
  s.freshPools.commitPools

/-- The data plane restarts: its frames are lost, every context is aborted with CAUSE DATAPLANE_RESTART. -/
def Body.restartData (s : Body) : Body :=
  if s.planes.dataRestart then s
  else
    let s := s.cutLaunches.loseFrames
    let s := (s.coll.ctxs.map fun c => c.key).foldl (fun s k => s.closeCtx k 4 3) s
    { s with planes := { s.planes with dataRestart := true } }

/-- The data plane serves again: credit is granted anew. -/
def Body.dataBack (s : Body) : Body :=
  let s := { s with planes := { s.planes with dataRestart := false } }
  (s.lports.map fun x => x.1).foldl (fun s l => s.grantPort l) s

/-- The management plane restarts: no ring is polled, audit records are buffered. -/
def Body.restartMgmt (s : Body) : Body :=
  let locked : Bool := s.clock.state = .locked
  let s := (s.holdEngine 0).holdEngine 1
  let s := { s with planes := { s.planes with mgmtRestart := true } }
  if locked then ({ s with clock := { s.clock with state := .holdover, settled := none } } : Body).timeEvent else s

/-- Its service resumes: buffered audit records are chained, with a GAP record for those lost (13 R346), and events go out. -/
def Body.mgmtBack (s : Body) : Body :=
  let a := s.sec.audit
  let s := { s with planes := { s.planes with mgmtRestart := false }
                    sec := { s.sec with audit := { a with buffered := [], lost := 0 } } }
  let s := a.buffered.foldl (fun s b => s.payGap.chainOne b) s
  let s := if a.lost = 0 then s else s.audit { kind := 6, role := 4, path := 3, data1 := a.lost }
  (s.flushEvents.drainIfc 0).drainIfc 1

/-- Control-plane service stops; a shadow bank whose write is half done is dirty (01 R20, Table 1-5). -/
def Body.restartControl (s : Body) : Body := { s.markDirty with planes := { s.planes with controlRestart := true } }

/-! ### Den clusters (12 R321-R323) -/

/-- The STANDBY hears no heartbeat for 50 µs: it takes over; without a STANDBY the control plane restarts. -/
def Body.denLoss (s : Body) : Body :=
  let i := s.integ
  if i.denA = .active ∧ i.denB = .standby then
    ({ s with integ := { i with denA := .failed, denB := .active } } : Body).emit 0x503 [1]
  else if i.denB = .active ∧ i.denA = .standby then
    ({ s with integ := { i with denA := .active, denB := .failed } } : Body).emit 0x503 [0]
  else s.restartControl

/-- The cluster that is not ACTIVE starts its test. -/
def Body.denTest (s : Body) : Body :=
  let i := s.integ
  if i.denA = .active ∧ (i.denB = .standby ∨ i.denB = .failed) then { s with integ := { i with denB := .testing } }
  else if i.denB = .active ∧ (i.denA = .standby ∨ i.denA = .failed) then { s with integ := { i with denA := .testing } }
  else s

/-- The tested cluster rejoins as STANDBY, or stays out of service. -/
def Body.denTested (s : Body) (pass : Bool) : Body :=
  let i := s.integ
  let st : DenState := if pass then .standby else .failed
  let say := fun (s : Body) (n : Nat) => if pass then s else s.emit 0x504 [n]
  if i.denA = .testing then say { s with integ := { i with denA := st } } 0
  else if i.denB = .testing then say { s with integ := { i with denB := st } } 1
  else s

/-! ### HBM stacks (12 R324-R327) -/

def Body.stackSt (s : Body) (n : Nat) : StackState := mgetD s.integ.stackSt n .service

def Body.setStack (s : Body) (n : Nat) (x : StackState) : Body := { s with integ := { s.integ with stackSt := mset s.integ.stackSt n x } }

/-- Whether a held frame lies in units of the lost stack: the manual does not say where a frame's units fall (entry 45). -/
def Body.heldLost_ (s : Body) (e : QEntry) : Bool := (Config.unstated (2000000 + 2 * (s.free + e.seq))).getLsbD 0

/-- Held frames of the die whose units are lost are discarded (12 Table 12-6). -/
def Body.loseHeld (s : Body) (die : Nat) : Body :=
  let gone := s.tms.queue.filter fun e => e.held && dieOf e.lport == die && s.heldLost_ e
  let s := { s with free := s.free + 1 }
  gone.foldl (fun s e => ((({ s with tms := { s.tms with queue := s.tms.queue.filter fun q => q.seq != e.seq } } : Body).collect e.copy.fid).returnAllot
    e.lport).bump .holdLost e.lport) s

/-- Chunk stages with spilled units: their inputs' bits are cleared (03 R89). -/
def Body.loseSpill (s : Body) : Body :=
  (s.coll.ctxs.filter fun c => c.spill != 0).foldl (fun s c =>
    (s.coll.stages.filter fun t => t.key.ctx == c.key && !t.confirmed).foldl (fun s t =>
      match s.group c.key.g with | some g => s.poisonChunk c g t.key | none => s) s) s

/-- Every window has units on every stack (12 R326). -/
def Body.damageWindows (s : Body) : Body :=
  { s with mss := { s.mss with windows := s.mss.windows.map fun (w : Nat × Window) => (w.1, { w.2 with damaged := true }) } }

/-- The lost history: its range in hall time is not stated (entry 45). -/
def Body.logGap (s : Body) : Body :=
  ({ s with free := s.free + 1 } : Body).emit 0x507 [(Config.unstated (3000000 + 2 * s.free)).toNat, (Config.unstated (3000001 + 2 * s.free)).toNat]

/-- A stack leaves service: its units map into the headroom, or the module stops. -/
def Body.stackLost (s : Body) (n : Nat) : Body :=
  match s.stackSt n with
  | .lost | .retired | .absent => s
  | _ =>
    if s.profiles.inForce.headroom = 0 || s.integ.headroomUsed then s.fatalStop 0x0A (n / 5) 0xFF 8
    else
      let s := (s.setStack n .lost).emit 0x505 [n]
      let s := { s with integ := { s.integ with headroomUsed := true } }
      let s := s.lanternPut fun l => { l with stacksLost := l.stacksLost ||| ((1 : BitVec 20) <<< n) }
      let s := if s.profiles.inForce.logs = 0 then s else s.logGap
      ((s.loseHeld (n / 5)).loseSpill).damageWindows

def Body.drainStart (s : Body) (n : Nat) : Body :=
  if s.profiles.inForce.headroom ≠ 0 ∧ !s.integ.headroomUsed ∧ s.stackSt n = .service then
    ({ s with integ := { s.integ with headroomUsed := true } } : Body).setStack n .draining
  else s

def Body.drainCopied (s : Body) (n : Nat) : Body := if s.stackSt n = .draining then s.setStack n .testing else s

def Body.stackTested (s : Body) (n : Nat) (pass : Bool) : Body :=
  if s.stackSt n ≠ .testing then s
  else if pass then s.setStack n .copyBack
  else ((s.setStack n .retired).emit 0x506 [n]).lanternPut fun l => { l with stacksLost := l.stacksLost ||| ((1 : BitVec 20) <<< n) }

def Body.copiedBack (s : Body) (n : Nat) : Body :=
  if s.stackSt n = .copyBack then ({ s with integ := { s.integ with headroomUsed := false } } : Body).setStack n .service else s

/-! ### The rotating Sett test (12 R328-R330, R315) -/

/-- The die's next subject: one named by an arbitration, a DUPLICATE Sett, else the next in turn. -/
def Body.nextSubject (s : Body) (die : Nat) : Option Nat :=
  let ok := fun (n : Nat) => (s.sett n).state == .inService || (s.sett n).state == .duplicate
  let own := settsOf die
  match s.integ.arbTestNext.find? fun n => n / 5 == die && ok n with
  | some n => some n
  | none =>
    match own.find? fun n => (s.sett n).state == .duplicate with
    | some n => some n
    | none =>
      let last := mgetD s.integ.lastSubject die 4
      ((List.range 5).map fun k => 5 * die + (last + 1 + k) % 5).find? ok

/-- A Sett of the die is being tested or waits for its test. -/
def Body.testing (s : Body) (die : Nat) : Bool := (settsOf die).any fun n => (s.sett n).test != .none

/-- The die's own SPARE, the partner of its DUPLICATE subject too, or that of a ring neighbour, and whether it is lent. -/
def Body.rotationSpare (s : Body) (die : Nat) (subject : Option Nat) : Option (Nat × Bool) :=
  let free := fun (n : Nat) => (s.sett n).state == .spare && (s.sett n).use == .none
  let own := fun (n : Nat) => free n || ((s.sett n).state == .spare && subject.any fun m => (s.sett n).use == .partner m)
  match (settsOf die).find? own with
  | some n => some (n, false)
  | none => ((settsOf (ringSucc die) ++ settsOf (ringPred die)).find? free).map fun n => (n, true)

/-- A Sett becomes its die's subject; one in DUPLICATE keeps its partner until its contexts have closed (entry 46). -/
def Body.makeSubject (s : Body) (n : Nat) : Body :=
  let s := s.modSett n fun x => { x with state := if x.state = .duplicate then .duplicate else .subject, test := .waiting }
  { s with integ := { s.integ with lastSubject := mset s.integ.lastSubject (n / 5) (n % 5)
                                   arbTestNext := s.integ.arbTestNext.filter (· != n) } }

/-- One rotation of a die (12 R328). -/
def Body.rotate (s : Body) (die : Nat) : Body :=
  if s.testing die then s.bump .testSkipped die
  else match s.rotationSpare die (s.nextSubject die), s.nextSubject die with
    | some (p, lent), some n =>
      let s := if lent then { s.callSpare p (.standIn n) with integ := { s.integ with borrowed := s.integ.borrowed ++ [(n, p)] } }
        else (s.callSpare p (s.sett p).use).intoService p
      (s.makeSubject n).reselect
    | _, _ => s.bump .testSkipped die

/-- Every context placed on the subject has closed: the test starts. -/
def Body.testStart (s : Body) (n : Nat) : Body :=
  if (s.sett n).test = .waiting ∧ !s.coll.ctxs.any (fun c => s.settFor c == n) then
    let s := { s with setts := s.setts.map fun (x : Nat × Sett) => (x.1, if x.2.use = SettUse.partner n then { x.2 with use := .none } else x.2) }
    s.modSett n fun x => { x with state := .subject, test := .running }
  else s

/-- The round ends: the Sett becomes SPARE, or is in service again (12 Table 12-3; entry 46). -/
def Body.testOver (s : Body) (n : Nat) (back : Bool) : Body :=
  let s := (s.modSett n fun x => { x with state := .spare, use := .none, test := .none }).returnSpare n
  if back then (s.intoService n).reselect else s

/-- The Sett's die had no SPARE and borrowed one. -/
def Body.lentFor (s : Body) (n : Nat) : Bool := s.integ.borrowed.any fun x => x.1 == n

/-- The test ends (12 R329). -/
def Body.testDone (s : Body) (n : Nat) (pass : Bool) (pattern : Nat) : Body :=
  if (s.sett n).test ≠ .running then s
  else if pass then
    let back := s.lentFor n || (s.sett n).degraded.length ≥ 3
    (s.modSett n fun x => { x with degraded := [] }).testOver n back
  else ((s.returnSpare n).quarantine n 3).emit 0x502 [put pattern 16 + n]

/-- The test has waited 60 s for its clock: the round ends untested (12 R330). -/
def Body.testDefer (s : Body) (n : Nat) : Body :=
  if (s.sett n).test ≠ .running then s else (s.testOver n (s.lentFor n)).bump .testBudgetDefer (n / 5)

/-! ### Ridgepole lanes and roles (15 Table 15-3, R390-R392; 12 R331) -/

/-- Wiring group of a block: engines 0 and 1, ring successor 2, predecessor 3, diagonal 4, IOD 5 (entry 47). -/
def wiring (b : Nat) : Nat :=
  if b < 28 then 0 else if b < 56 then 1 else if b < 104 then 2 else if b < 152 then 3 else if b < 184 then 4 else 5

/-- First block of each wiring group. -/
def wiringBase : Nat → Nat
  | 0 => 0 | 1 => 28 | 2 => 56 | 3 => 104 | 4 => 152 | _ => 184

inductive Role4 where
  | off | oe | cross | reduction | iod
deriving DecidableEq, Repr

def roleNum : Role4 → Nat
  | .off => 0 | .oe => 0 | .cross => 1 | .reduction => 2 | .iod => 3

/-- Role P2 gave a block: the lowest blocks of each group, those out of service set aside (15 R390). -/
def Body.blockRole (s : Body) (die b : Nat) : Role4 :=
  let v := nth s.profiles.inForce.ridgepole die 0
  let nOe := v / 65536 % 256
  let nD := v / 256 % 256
  let r := v % 256
  let g := wiring b
  let rank := ((List.range (b - wiringBase g)).filter fun k => !s.integ.bootDown.contains (192 * die + wiringBase g + k)).length
  if s.integ.bootDown.contains (192 * die + b) then .off
  else match g with
    | 0 => if rank < (nOe + 1) / 2 ∧ s.lantern.fittedOe.getLsbD (2 * die) then .oe else .off
    | 1 => if rank < nOe / 2 ∧ s.lantern.fittedOe.getLsbD (2 * die + 1) then .oe else .off
    | 2 => if rank < (r + 1) / 2 then .reduction else .cross
    | 3 => if rank < r / 2 then .reduction else .cross
    | 4 => if rank < nD then .cross else .off
    | _ => .iod

/-- Blocks in service of a role of a die; CROSS counted per neighbour. -/
def Body.roleCount (s : Body) (die : Nat) (role : Role4) (g : Nat) : Nat :=
  ((List.range 192).filter fun b => s.blockRole die b == role && (role != .cross || wiring b == g)
    && !s.integ.blockDown.contains (192 * die + b)).length

/-- Bound of R391 that the role is below; engine blocks of a die with no engine have none. -/
def Body.belowBound (s : Body) (die : Nat) (role : Role4) (g : Nat) : Bool :=
  match role with
  | .oe => s.roleCount die .oe g < 52
  | .cross => s.roleCount die .cross g < 24
  | .reduction => s.roleCount die .reduction g < 8
  | _ => false

/-- A lane fails: a spare takes its place, or the block leaves service. -/
def Body.laneFault (s : Body) (die b lane : Nat) : Body :=
  let k := 192 * die + b
  let used := mgetD s.integ.blockLanes k []
  if s.integ.blockDown.contains k || used.contains lane then s
  else if used.length < 4 then
    { s with integ := { s.integ with blockLanes := mset s.integ.blockLanes k (used ++ [lane]) }
             mram := { s.mram with laneMap := mset s.mram.laneMap k (mgetD s.mram.laneMap k [] ++ [lane]) } }
  else
    let role := s.blockRole die b
    let p := put (roleNum role) 10 + put b 2 + die
    let was := s.belowBound die role (wiring b)
    let s := ({ s with integ := { s.integ with blockDown := s.integ.blockDown ++ [k] }
                       mram := { s.mram with laneMap := mset s.mram.laneMap k (mgetD s.mram.laneMap k [] ++ [lane]) } } : Body).emit 0x508 [p]
    if s.belowBound die role (wiring b) && !was then (s.emit 0x509 [p]).lanternPut fun l => { l with ridgepoleBelow := true } else s

/-! ### Probe cells (12 R332, R333) -/

/-- A probe of one path crosses whole. -/
def Body.probe (s : Body) (die port : Nat) : Body :=
  let k := 512 * die + port
  let now := s.clock.ns.toNat
  let s := match mget s.integ.probeAt k with
    | some t => if t + 10000000 < now then s.bump .probeStarved die else s
    | none => s
  { s with integ := { s.integ with probeSeq := s.integ.probeSeq + 1, probeAt := mset s.integ.probeAt k now } }

/-- A probe arrives altered, or not at all. -/
def Body.probeFailed (s : Body) (die port : Nat) : Body :=
  let k := 512 * die + port
  let now := s.clock.ns.toNat
  let twice := match mget s.integ.probeFails k with | some t => Nat.ble now (t + 10000000) | none => false
  let s := ({ s with integ := { s.integ with probeFails := mset s.integ.probeFails k now } } : Body).bump .probeFail die
  if !twice || s.integ.xbarBad.contains port then s
  else
    let s := ({ s with integ := { s.integ with xbarBad := s.integ.xbarBad ++ [port] } } : Body).emit 0x209 [put die 16 + port]
    if (s.integ.xbarBad.filter fun p => dieOfPort p == dieOfPort port).length ≥ 8 then s.fatalStop 0x0A (dieOfPort port) 0xFF 3
    else (s.lportsOf port).foldl (fun s l => (s.reenterQueued l).reenterReplay l) s

/-! ### The failure detector (12 R319) -/

/-- The rank's pod sends it pre-reduced. -/
def preRank (g : Group) (m : Member) : Bool :=
  g.repl.any fun r => r.kind == 0 && r.pre && adPod r.target == adPod m.ep && adPlane r.target == adPlane m.ep

/-- The rank's input alone is missing from some chunk stage of the group. -/
def Body.inputMissing (s : Body) (a : W32) (g : Group) (rank : Nat) : Bool :=
  s.coll.stages.any fun t => t.key.ctx.g == a && !t.confirmed && (s.ctx t.key.ctx).any fun c =>
    let w := c.wanted g t.key.chunk
    let here := fun (i : InIdx) => t.inputs.any fun x => x.idx == i && x.complete && !x.lost
    !w.2 && w.1.contains (.rank rank) && !here (.rank rank) && w.1.all fun i => i == .rank rank || here i

def Body.suspect (s : Body) (a : W32) (rank : Nat) (missing : Bool) : Body :=
  match s.group a with
  | none => s
  | some g =>
    match g.members[rank]? with
    | none => s
    | some m =>
      let seen := if missing then !preRank g m && s.inputMissing a g rank else !s.podLive m.ep
      if m.fenced || m.suspect || !seen then s
      else (s.modGroup a fun g => { g with members := setNth g.members rank { m with suspect := true, noPath := !missing } }).emit 0x302
        [put (if missing then 2 else 1) 50 + put rank 32 + a.toNat]

/-! ### The commands -/

def execTestRotation (die : Fin 4) (s : State) : Ans :=
  onBody s fun b => if b.dataRuns && !b.planes.controlRestart then b.rotate die.val else b

def execSettTestStart (n : Fin 20) (s : State) : Ans := onBody s fun b => if b.dataRuns then b.testStart n.val else b

def execSettTestComplete (n : Fin 20) (pass : Bool) (pattern : W16) (s : State) : Ans :=
  onBody s fun b => if b.dataRuns then b.testDone n.val pass pattern.toNat else b

def execTestBudgetDefer (n : Fin 20) (s : State) : Ans := onBody s fun b => if b.dataRuns then b.testDefer n.val else b

def execDenHeartbeatLoss (s : State) : Ans := onBody s fun b => if b.serves then b.denLoss else b

def execDenTestStart (s : State) : Ans := onBody s fun b => if b.serves then b.denTest else b

def execDenTestComplete (pass : Bool) (s : State) : Ans := onBody s fun b => if b.serves then b.denTested pass else b

/-- An event on a stack: it must be fitted. -/
def onStack (s : State) (n : Nat) (f : Body → Body) : Ans :=
  if s.hw.fittedHbm.getLsbD n then onBody s fun b => if b.serves then f b else b else .fault (.absentStack n)

def execStackLost (n : Fin 20) (s : State) : Ans := onStack s n.val fun b => b.stackLost n.val

def execStackDrainStart (n : Fin 20) (s : State) : Ans := onStack s n.val fun b => b.drainStart n.val

def execStackDrainCopyComplete (n : Fin 20) (s : State) : Ans := onStack s n.val fun b => b.drainCopied n.val

def execStackTestComplete (n : Fin 20) (pass : Bool) (s : State) : Ans := onStack s n.val fun b => b.stackTested n.val pass

def execStackCopyBackComplete (n : Fin 20) (s : State) : Ans := onStack s n.val fun b => b.copiedBack n.val

def execRidgepoleLaneFault (die : Fin 4) (blk : Fin 192) (lane : Fin 64) (s : State) : Ans :=
  onBody s fun b => if b.serves then b.laneFault die.val blk.val lane.val else b

def execProbeCell (die : Fin 4) (port : Fin 512) (s : State) : Ans :=
  if port.val < s.hw.ports then onBody s fun b => if b.dataRuns then b.probe die.val port.val else b
  else .fault (.absentPort (4 * port.val))

def execProbeFail (die : Fin 4) (port : Fin 512) (s : State) : Ans :=
  if port.val < s.hw.ports then onData s fun b => b.probeFailed die.val port.val
  else .fault (.absentPort (4 * port.val))

def execMemberSuspect (g : W32) (rank : BitVec 18) (missing : Bool) (s : State) : Ans :=
  onBody s fun b => if b.serves then b.suspect g rank.toNat missing else b

def execFatalStop (subsys : Fin 13) (u : DeadUnit) (s : State) : Ans :=
  onBody s fun b => if u.iodRuns then b.fatalStop 0x0A u.unit.toNat 0xFF subsys.val else b.silentStop

def execDataplaneFault (s : State) : Ans := onBody s fun b => if b.serves then b.restartData else b

def execManagementPlaneFault (s : State) : Ans := onBody s fun b => if b.serves then b.restartMgmt else b

def execControlPlaneRestart (s : State) : Ans := onBody s fun b => if b.serves then b.restartControl else b

end Sys2Proof.Machine
end

