-- ==== Sys2Proof/Machine/Tele.lean ====
section
/-! DEFINITION. TELE and DIAG commands, and the telemetry stream (05 R139, R140; 11 R303; 13 R357, R358). -/
namespace Sys2Proof.Machine

/-! ### Values -/

/-- The value of a counter ID; one the model does not keep is a free value (entry 14). -/
def Body.counterValue (s : Body) (id : Nat) : Nat :=
  match ctrOfId id with
  | some (c, i) => s.count c i
  | none => (Config.unstated (6000000 + s.free + id)).toNat

/-- The values of consecutive counter IDs. -/
def Body.counterBytes (s : Body) (first n : Nat) : List Byte :=
  (List.range n).flatMap fun k => leBytes 8 (s.counterValue (first + k))

/-- A high-water record (05 Table 5-5). -/
def Hwm.word (h : Hwm) : Nat :=
  put (h.occ % 2 ^ 20) 236 + put (min h.soj 0xFFFFFFFF) 192 + put h.occAt.toNat 128 + put h.sojAt.toNat 64
    + put (min h.nOver 0xFFFF) 48

/-! ### TELE COUNTERS and TELE HWM -/

def teleCount (d : Desc) : Nat := d.f 2 63 32
def teleFirst (d : Desc) : Nat := d.f 2 31 0

def specTeleCounters : CmdSpec :=
  { cls := 6, op := 1
    bad0 := fun _ _ d => teleFirst d + teleCount d > 2 ^ 32
    mode := .output (fun d => 8 * teleCount d) (fun d => d.word 3)
      (fun s d off n => ({ s with free := s.free + 1 },
        ((s.counterBytes (teleFirst d + off / 8) ((off % 8 + n + 7) / 8)).drop (off % 8)).take n))
      fun s _ d => { s, d1 := d.done } }

def hwmProfiles (d : Desc) : Bool := d.f 2 0 0 == 1
def hwmClear (d : Desc) : Bool := d.f 2 1 1 == 1
def hwmFirst (d : Desc) : Nat := d.f 2 63 32
def hwmCount (d : Desc) : Nat := d.f 4 31 0

/-- Class queues are numbered 8 × logical port + class (entry 22). -/
def hwmTotal (s : Body) (d : Desc) : Nat := if hwmProfiles d then 4096 else 32 * s.variant.ports

def Body.hwm (s : Body) (d : Desc) (i : Nat) : Hwm := mgetD (if hwmProfiles d then s.tms.profHwm else s.tms.classHwm) i {}

/-- Read and clear are one step for each record (05 R140). -/
def Body.clearHwm (s : Body) (d : Desc) (i : Nat) : Body :=
  if !hwmClear d then s
  else if hwmProfiles d then { s with tms := { s.tms with profHwm := mdel s.tms.profHwm i } }
  else { s with tms := { s.tms with classHwm := mdel s.tms.classHwm i } }

/-- The bytes of a unit: what is left of a record already read, then the records that begin in it, each read and cleared at
once. -/
def hwmMake (s : Body) (d : Desc) (off n : Nat) : Body × List Byte :=
  let a := hwmFirst d + (off + d.buf.length) / 32
  let k := (n - d.buf.length + 31) / 32
  let bs := (List.range k).flatMap fun j => leBytes 32 (s.hwm d (a + j)).word
  ((List.range k).foldl (fun s j => s.clearHwm d (a + j)) s, d.buf ++ bs)

def specTeleHwm : CmdSpec :=
  { cls := 6, op := 2
    bad0 := fun s _ d => hwmFirst d + hwmCount d > hwmTotal s d
    mode := .output (fun d => 32 * hwmCount d) (fun d => d.word 3) hwmMake fun s _ d => { s, d1 := d.done } }

/-! ### TELE STREAM -/

def streamPeriod (d : Desc) : Nat := d.f 2 31 0
def streamCount (d : Desc) : Nat := if streamPeriod d = 0 then 0 else d.f 4 9 0

def specTeleStream : CmdSpec :=
  { cls := 6, op := 3
    bad0 := fun _ _ d => streamPeriod d != 0 && (streamPeriod d < 10 || streamPeriod d > 1000000 || streamCount d > 512)
    mode := .atomic (fun d => 8 * streamCount d)
      (fun _ _ buf => (u64s buf).any fun w => w / 2 ^ 32 != 0 && (sampleUnit (w % 2 ^ 32)).isNone)
      fun s r d buf =>
        let st : Option TStream := if streamPeriod d = 0 then none
          else some { period := streamPeriod d, list := (u64s buf).map (BitVec.ofNat 64) }
        { s := s.modIfc r.iface fun f => { f with stream := st } } }

/-- One telemetry record: six counters from position 6k of the list (11 Table 11-10). -/
def Body.telRecord (s : Body) (i : Fin 2) (st : TStream) (k : Nat) : Body :=
  let f := s.ifc i
  let q := f.tel
  if q.state = .enabled ∧ q.hasRoom ∧ f.linkUp then
    let vs := ((st.list.drop (6 * k)).take 6).map fun w => BitVec.ofNat 64 (s.counterValue (fld w 31 0))
    let w := recordEntry (phaseOf q.pi q.log2.toNat) (6 * k) st.seq.toNat s.clock.ns vs
    (s.setIfc i { f with tel := { q with pi := q.pi + 1 }, telOwed := true }).putOut (.record i true (q.slot 64) w)
  else s

/-- A sample period of the stream ends: one record for each group of six counters (11 R303). -/
def Body.telemetry (s : Body) (i : Fin 2) : Body :=
  match (s.ifc i).stream with
  | none => s
  | some st =>
    let s := (List.range ((st.list.length + 5) / 6)).foldl (fun s k => s.telRecord i st k) s
    { s.modIfc i (fun f => { f with stream := some { st with seq := st.seq + 1 } }) with free := s.free + 1 }

/-! ### DIAG READ -/

def diagObj (d : Desc) : Nat := d.f 2 7 0
def diagFirst (d : Desc) : Nat := d.f 2 63 32
def diagCount (d : Desc) : Nat := d.f 4 31 0
def diagGroup (d : Desc) : W32 := setFld (BitVec.ofNat 32 (d.f 5 31 0)) 27 26 0

/-- Bytes of one entry of an object (11 Table 11-5). -/
def diagBytes : Nat → Nat
  | 1 => 16 | 2 => 64 | 3 => 16 | 4 => 1 | 5 => 4 | 6 => 16 | 7 => 128 | 8 => 64 | _ => 0

/-- Entries of an object; contexts are numbered in the order they stand open (entry 22). -/
def Body.diagTotal (s : Body) (d : Desc) : Nat :=
  match diagObj d with
  | 1 => 1048576 + 8192
  | 2 => 1048576
  | 3 => match s.group (diagGroup d) with | some g => g.members.length | none => 2 ^ 32
  | 4 => 256
  | 5 => 128 * s.variant.groups
  | 6 => s.variant.groups
  | 7 => 65536
  | 8 => 1024
  | _ => 0

/-- A partition offset, which the manual leaves to the module (entry 22). -/
def offsetOf (k i : Nat) : Nat := (Config.unstated (7000000 + 16 * i + k)).toNat % 2 ^ 40

def gstateCode : GState → Nat
  | .creating => 1 | .active => 2 | .destroying => 3

/-- A group descriptor (08 Table 8-2). -/
def Body.groupWord (s : Body) (i : Nat) (g : Group) : Nat :=
  put (gidOf g.addr) 486 + put (adPlane g.addr) 483 + put (gstateCode g.state) 480 + put g.epoch.toNat 448
    + put g.members.length 429 + put g.nFenced 410 + put (offsetOf 0 i) 364 + put (offsetOf 1 i) 324 + put g.repl.length 305
    + put ((g.policies.map fun p => 2 ^ p.1).foldl (· + ·) 0) 289 + put g.oplow 252
    + put (s.coll.ctxs.filter fun c => c.key.g == g.addr).length 235

/-- A member entry (08 Table 8-3). -/
def Member.word (m : Member) : Nat :=
  put m.ep.toNat 96 + put m.alias_.toNat 64 + put m.fenced.toNat 63 + put m.aliasv.toNat 62 + put m.suspect.toNat 61 + m.fepoch.toNat

/-- The (P) fields of a policy record that CLP copies as they stand; its other bits are reserved and read 0 (08 Table 8-6, 00 R9). -/
def polCopied (p : BitVec 1024) : BitVec 1024 :=
  [(925, 909), (905, 902), (891, 890), (855, 798), (727, 712), (639, 576)].foldl
    (fun (w : BitVec 1024) r => setFld w r.1 r.2 (fld p r.1 r.2)) 0

/-- A context descriptor (08 Table 8-6): the (P) fields with those that CLP fills. -/
def Ctx.word (c : Ctx) (i : Nat) : Nat :=
  let f := fun (w : BitVec 1024) (hi lo v : Nat) => setFld w hi lo v
  let w := f (f (f (polCopied c.pol) 1023 1023 c.valid.toNat) 1015 990 (gidOf c.key.g)) 989 958 c.key.opseq.toNat
  let w := f (f (f w 957 926 c.epoch.toNat) 908 907 c.alg) 906 906 c.levelc.toNat
  let w := f (f (f w 901 897 c.chunklog) 896 892 c.depth) 885 883 c.prio
  let w := f (f (f w 879 856 c.nchunk) 797 779 c.nin) 778 769 c.rootmod
  let w := f (f (f w 768 764 c.sett) 763 752 c.sprof) 751 728 c.deadline
  let w := f (f (f w 711 696 (c.succ.getD 0)) 658 640 c.ownn) 575 536 (offsetOf 2 i)
  let w := f (f (f w 535 496 (offsetOf 3 i)) 495 456 (offsetOf 4 i)) 455 416 (offsetOf 5 i)
  (f (f (f w 415 376 (offsetOf 6 i)) 375 352 (c.sram + c.spill)) 351 288 c.opened.toNat).toNat

def wstateCode : WState → Nat
  | .active => 1 | .primary => 2 | .secondary => 3 | .solo => 4 | .syncing => 5 | .shadow => 6 | .stateLost => 7 | .detached => 8

/-- A window descriptor (09 Table 9-2). -/
def Window.word (w : Window) (wid : Nat) : Nat :=
  put wid 496 + put (wstateCode w.state) 492 + put w.update.toNat 490 + put w.rdonly.toNat 489 + put w.rule 486 + put w.group 460
    + put w.bplane 457 + put w.buddy 447 + put w.wplane 444 + put w.witness 434 + put w.planemask.toNat 426 + put w.podlo 417
    + put w.podhi 408 + put w.size 360 + put w.base 338 + put w.rp 316 + put w.nregion 292 + put w.lastStep.toNat 228

/-- Entry i of the object; what is not there reads 0. -/
def Body.diagWord (s : Body) (d : Desc) (i : Nat) : Nat :=
  match diagObj d with
  | 1 =>
    let b := s.tables.group.act
    ((if i < 1048576 then mget b.slots i else mget b.store (i - 1048576)).getD 0).toNat
  | 2 => match mget s.coll.groups i with | some g => s.groupWord i g | none => 0
  | 3 => match s.group (diagGroup d) with
    | some g => (match g.members[i]? with | some m => m.word | none => 0)
    | none => 0
  | 4 => (mgetD s.tables.settSel.act i 0).toNat
  | 5 => mgetD s.portage.wear i 0
  | 6 => put (s.bypass i).gen.toNat 96 + (s.bypass i).partner.toNat
  | 7 => match s.coll.ctxs[i]? with | some c => c.word i | none => 0
  | 8 => match s.win i with | some w => w.word i | none => 0
  | _ => 0

def diagMake (s : Body) (d : Desc) (off n : Nat) : Body × List Byte :=
  let b := diagBytes (diagObj d)
  let bs := (List.range ((off % b + n + b - 1) / b)).flatMap fun j => leBytes b (s.diagWord d (diagFirst d + off / b + j))
  (s, (bs.drop (off % b)).take n)

def specDiagRead : CmdSpec :=
  { cls := 9, op := 1
    bad0 := fun s _ d => diagBytes (diagObj d) == 0 || diagFirst d + diagCount d > s.diagTotal d
    pre := fun s _ d => if diagObj d = 3 && (s.group (diagGroup d)).isNone then stIllegal else 0
    mode := .output (fun d => diagBytes (diagObj d) * diagCount d) (fun d => d.word 3) diagMake fun s _ d => { s, d1 := d.done } }

def specRestartDataplane : CmdSpec :=
  { cls := 9, op := 2
    mode := .atomic (fun _ => 0) (fun _ _ _ => false) fun s _ _ _ => { s := s.restartData } }

/-! ### The commands -/

def execTeleCounters (r : CmdRef) (units : Nat) (s : State) : Ans := onBody s fun b => hostCmd specTeleCounters b r [] units

def execTeleHwm (r : CmdRef) (units : Nat) (s : State) : Ans := onBody s fun b => hostCmd specTeleHwm b r [] units

def execTeleStream (r : CmdRef) (data : List Byte) (s : State) : Ans := onBody s fun b => hostCmd specTeleStream b r data 0

def execTelemetrySample (i : Fin 2) (s : State) : Ans := onBody s fun b => if b.ringsRun then b.telemetry i else b

def execDiagRead (r : CmdRef) (units : Nat) (s : State) : Ans := onBody s fun b => hostCmd specDiagRead b r [] units

def execDiagRestartDataplane (r : CmdRef) (s : State) : Ans := onBody s fun b => hostCmd specRestartDataplane b r [] 0

end Sys2Proof.Machine
end

