-- ==== Sys2Proof/Machine/Sec.lean ====
section
/-! DEFINITION. Sessions, challenges, ring ownership, firmware and the checkpoints of the audit log, as host commands and timers
(11 R302; 13 R335-R351). Signatures are judged by an oracle, the operand `sigOk` (entry 10). -/
namespace Sys2Proof.Machine

/-! ### Challenges (13 R340) -/

/-- One owner holds one challenge: a ring, a mailbox of an interface, or a management-port address. -/
def Challenge.at (c : Challenge) (o : MbRef) (ring : Option (Fin 64)) : Bool :=
  c.ring == ring && (match c.owner, o with
    | .hif a, .hif b => a == b
    | .mgmt a _, .mgmt b _ => a == b
    | _, _ => false)

def pathCode (o : MbRef) (ring : Option (Fin 64)) : Nat :=
  if ring.isSome then 0 else match o with | .hif _ => 1 | .mgmt .. => 2

def ifaceCode : MbRef → Nat
  | .hif i => i.val
  | .mgmt .. => 0

def Body.dropChallenge (s : Body) (o : MbRef) (ring : Option (Fin 64)) : Body :=
  { s with sec := { s.sec with challenges := s.sec.challenges.filter fun c => !c.at o ring } }

/-- A new challenge replaces the old one; its 64 bytes. -/
def Body.newChallenge (s : Body) (o : MbRef) (ring : Option (Fin 64)) : List Byte × Body :=
  let (rnd, s) := s.rand256
  let g := match ring with | some r => r.val | none => 0
  let bytes := rnd ++ s.serialBytes ++ leBytes 8 s.clock.ns.toNat
    ++ [BitVec.ofNat 8 (pathCode o ring + put (ifaceCode o) 2), BitVec.ofNat 8 g] ++ List.replicate 6 0
  let s := s.dropChallenge o ring
  (bytes, { s with sec := { s.sec with challenges := s.sec.challenges ++ [⟨o, ring, bytes⟩] } })

/-! ### Sessions (13 R341, R342) -/

/-- A random, non-zero session ID that no open session has. -/
def Body.freshId (s : Body) : W32 × Body :=
  let (v, s) := s.rand32
  let used := s.sec.sessions.map fun x => x.id
  let ids := (List.range 258).map fun k => v + BitVec.ofNat 32 k
  ((ids.find? fun x => x != 0 && !used.contains x).getD 1, s)

/-- Rings bound to a session become unbound. -/
def Iface.unbind (f : Iface) (id : W32) : Iface :=
  { f with rings := f.rings.map fun (x : Nat × CmdRing) => (x.1, if x.2.session = id then { x.2 with session := 0 } else x.2) }

def Body.closeSession (s : Body) (id : W32) : Body :=
  { s with sec := { s.sec with sessions := s.sec.sessions.filter fun x => x.id != id }, hifA := s.hifA.unbind id, hifB := s.hifB.unbind id }

/-- End a session on the module's account, with its audit record (entry 26). -/
def Body.endSession (s : Body) (id : W32) : Body :=
  match s.session id with
  | none => s
  | some x => (s.closeSession id).audit { kind := 3, role := roleCode x.role, session := id.toNat, path := 3, op := 5 }

def Body.endSessions (s : Body) (which : Session → Bool) : Body :=
  ((s.sec.sessions.filter which).map fun x => x.id).foldl (fun s id => s.endSession id) s

/-- A proof (13 Table 13-3). -/
def proofRole (p : List Byte) : Nat := leAt p 64 1
def proofKey (p : List Byte) : Nat := leAt p 66 2
abbrev proofBytes : Nat := 3441

def roleOfCode : Nat → Role
  | 1 => .operator | 2 => .installer | 3 => .maker | _ => .none

/-- The key ID names an enrolled key of the role; a maker key's fused digest is part of the oracle (entry 10). -/
def Body.keyKnown (s : Body) (role key : Nat) : Bool :=
  match role with
  | 1 => s.sec.operKeys.any fun k => k.id.toNat == key
  | 2 => s.sec.instKeys.any fun k => k.id.toNat == key
  | 3 => true
  | _ => false

/-- The conditions of R341 that do not depend on OPEN or ELEVATE. -/
def Body.proofOk (s : Body) (o : MbRef) (ring : Option (Fin 64)) (p : List Byte) (sigOk : Bool) : Bool :=
  (s.sec.challenges.any fun c => c.at o ring && c.bytes == p.take 64) && s.keyKnown (proofRole p) (proofKey p) && sigOk
    && (proofRole p != 3 || s.power.ppContact)

/-- Openings on the interface are refused for 60 s; the management port has no such interface (entry 34). -/
def Body.lockedOut (s : Body) : MbRef → Bool
  | .hif i => (s.ifc i).lockout
  | .mgmt .. => false

/-- Count a failure of an interface: the eighth within 60 s starts the lockout. -/
def Body.countFailure (s : Body) : MbRef → Body
  | .hif i => s.modIfc i fun f =>
    if f.lockout then f
    else
      let l := (f.failures.filter fun t => Nat.blt s.clock.ns.toNat (t + 60000000000)) ++ [s.clock.ns.toNat]
      if l.length ≥ 8 then { f with failures := [], lockout := true } else { f with failures := l }
  | .mgmt .. => s

/-- SESSION_FAIL (13 Table 13-9). -/
def Body.openFailed (s : Body) (o : MbRef) (ring : Option (Fin 64)) (p : List Byte) : Body :=
  let g := match ring with | some r => r.val | none => 0
  (s.countFailure o).emit 0x702
    [put (proofKey p) 16 + put (proofRole p % 8) 9 + put g 3 + put (ifaceCode o) 2 + pathCode o ring]

/-- OPEN: status, and the session. The attempt consumes the challenge. -/
def Body.openSession (s : Body) (o : MbRef) (ring : Option (Fin 64)) (p : List Byte) (sigOk : Bool) : Nat × W32 × Body :=
  let ok := s.proofOk o ring p sigOk && !s.lockedOut o
  let s := s.dropChallenge o ring
  if !ok then (stDenied, 0, s.openFailed o ring p)
  else if s.sec.sessions.length ≥ 256 then (stNoRoom, 0, s)
  else
    let (id, s) := s.freshId
    let r := roleOfCode (proofRole p)
    let x : Session := { id, role := r, key := BitVec.ofNat 16 (proofKey p), opened := r, path := if ring.isSome then none else some o }
    (0, id, { s with sec := { s.sec with sessions := s.sec.sessions ++ [x] } })

/-- ELEVATE of an open session the issuer holds, to a role ranked above its own. -/
def Body.elevate (s : Body) (o : MbRef) (ring : Option (Fin 64)) (id : W32) (held : Bool) (p : List Byte) (sigOk : Bool) : Nat × Body :=
  let r := roleOfCode (proofRole p)
  let ok := s.proofOk o ring p sigOk && !s.lockedOut o && held && (s.session id).any fun x => roleRank x.role < roleRank r
  let s := s.dropChallenge o ring
  if ok then
    (0, { s with sec := { s.sec with sessions := s.sec.sessions.map fun (x : Session) => if x.id = id then { x with role := r } else x } })
  else (stDenied, s.openFailed o ring p)

/-! ### SEC commands -/

def secSession (d : Desc) : W32 := BitVec.ofNat 32 (d.f 2 31 0)
def secElevated (d : Desc) : W32 := BitVec.ofNat 32 (d.f 2 63 32)

def noData : CmdMode := .atomic (fun _ => 0) (fun _ _ _ => false) fun s _ _ _ => { s }

def specChallenge : CmdSpec :=
  { cls := 7, op := 1
    mode := .atomic (fun _ => 0) (fun _ _ _ => false) fun s r d _ =>
      let (bs, s) := s.newChallenge (.hif r.iface) (some r.ring)
      { s := s.putOut (.host r.iface (d.word 3) bs) } }

def proofBad (d : Desc) : Bool := d.f 4 15 0 != proofBytes || !(1 ≤ d.f 2 3 0 && d.f 2 3 0 ≤ 3)

/-- The descriptor carries the session and role it obtained into its audit record. -/
def Body.nowIn (s : Body) (r : CmdRef) (id : W32) : Body :=
  match s.desc r with
  | none => s
  | some d => s.putDesc r { d with session := id, role := s.roleOf id }

/-- What the oracle says of the proof is kept from the start of the command, for data that arrives later. -/
def specOpen (sigOk : Bool) : CmdSpec :=
  { cls := 7, op := 2
    bad0 := fun _ _ d => proofBad d
    begin := fun _ _ _ => if sigOk then 1 else 0
    mode := .atomic (fun _ => proofBytes) (fun _ _ _ => false) fun s r d buf =>
      let (st, id, s) := s.openSession (.hif r.iface) (some r.ring) buf (d.step0 == 1)
      if st = 0 then { s := (s.setRing r { s.ringOf r with session := id }).nowIn r id, d0 := id.toNat } else .no s st }

def specElevate (sigOk : Bool) : CmdSpec :=
  { cls := 7, op := 4
    bad0 := fun _ _ d => proofBad d
    begin := fun _ _ _ => if sigOk then 1 else 0
    mode := .atomic (fun _ => proofBytes) (fun _ _ _ => false) fun s r d buf =>
      let id := secElevated d
      let (st, s) := s.elevate (.hif r.iface) (some r.ring) id ((s.ringOf r).session == id) buf (d.step0 == 1)
      if st = 0 then { s := s.nowIn r id, d0 := id.toNat } else .no s st }

/-- A ring number that exists (15 Table 15-5). -/
def Body.ringExists (s : Body) (n : Nat) : Bool := n < s.nRings

def ringFin (n : Nat) : Fin 64 := Fin.ofNat 64 n

/-- A ring of the issuing interface. -/
def onRing (r : CmdRef) (n : Nat) : CmdRef := { r with ring := ringFin n }

/-- The issuing ring is bound to the session (Table 13-1, "Own session"). -/
def ownSession (s : Body) (r : CmdRef) (id : W32) : Bool := id != 0 && (s.ringOf r).session == id && (s.session id).isSome

def specBind : CmdSpec :=
  { cls := 7, op := 3
    bad0 := fun s _ d => !s.ringExists (d.f 2 37 32)
    pre := fun s r d => if ownSession s r (secSession d) then 0 else stDenied
    mode := .atomic (fun _ => 0) (fun _ _ _ => false) fun s r d _ =>
      let q := onRing r (d.f 2 37 32)
      { s := s.setRing q { s.ringOf q with session := secSession d } } }

def specClose : CmdSpec :=
  { cls := 7, op := 5
    pre := fun s r d => if ownSession s r (secSession d) then 0 else stDenied
    mode := .atomic (fun _ => 0) (fun _ _ _ => false) fun s _ d _ => { s := s.closeSession (secSession d) } }

/-- RELEASE gives up a ring of the issuer's own session (11 R302; 16 R407). -/
def specRelease_ : CmdSpec :=
  { cls := 7, op := 7
    bad0 := fun s _ d => !s.ringExists (d.f 2 5 0)
    pre := fun s r d =>
      let x := s.ringOf (onRing r (d.f 2 5 0))
      if x.session != (s.ringOf r).session then stDenied
      else if x.state == .enabled || x.state == .stopped then 0 else stIllegal
    mode := .atomic (fun _ => 0) (fun _ _ _ => false) fun s r d _ =>
      let q := onRing r (d.f 2 5 0)
      { s := s.setRing q { s.ringOf q with state := .released, cause := 0 } } }

/-! ### Takeover (11 R302) -/

def tkOld (r : CmdRef) (d : Desc) : CmdRef := { iface := 1 - r.iface, ring := ringFin (d.f 2 6 1), idx := 0 }
def tkNew (r : CmdRef) (d : Desc) : CmdRef := onRing r (d.f 2 12 7)
def tkCq (d : Desc) : Nat := d.f 2 18 13

/-- What an unfinished streaming command leaves undone (11 R293). -/
def Body.stopStream (s : Body) (r : CmdRef) (d : Desc) : Body :=
  if d.cls = 0 ∧ d.op = 2 then (if s.writerOf (bulkTable d) = some r then (s.endBulk d).wakeAll else s)
  else if d.cls = 8 ∧ d.op = 1 then
    let i := nth s.sec.fw (d.f 2 3 0) {}
    let e := if d.f 2 4 4 = 1 then { i with slotB := {} } else { i with slotA := {} }
    { s with sec := { s.sec with fw := setNth s.sec.fw (d.f 2 3 0) e } }
  else s

/-- Host address at which a buffer stands, `off` bytes into the data a command moves (11 Table 11-5). -/
def bufferAt (l : List (Nat × Nat)) (off : Nat) : Nat :=
  match l with
  | [] => off
  | [(a, _)] => a + off
  | (a, n) :: t => if off < n then a + off else bufferAt t (off - n)

/-- The buffers of a command, in the order their bytes are moved. -/
def Body.buffers (s : Body) (d : Desc) : List (Nat × Nat) :=
  let members := match s.group (BitVec.ofNat 32 (d.f 2 31 0)) with | some g => g.members.length | none => 0
  match d.cls, d.op with
  | 0, 1 => [(d.word 3, d.f 4 31 0)]
  | 1, 1 | 1, 2 => [(d.word 3, 16 * d.f 4 18 0), (d.word 5, 8 * d.f 6 18 0)]
  | 2, 1 => [(d.word 3, 128), (d.word 4, if d.word 4 = 0 then 0 else 4 * members),
             (d.word 5, if d.word 5 = 0 then 0 else 4096), (d.word 6, 64)]
  | _, _ => [(d.word 3, 2 ^ 64)]

/-- Bytes moved: a bulk load also holds those of a record that spans a stop. -/
def Desc.moved (d : Desc) : Nat := if d.cls = 0 ∧ d.op = 2 then d.done + d.buf.length else d.done

/-- IOVA of the next byte the command moves. -/
def Body.nextIova (s : Body) (d : Desc) : Nat := bufferAt (s.buffers d) d.moved

/-- Bytes left in the buffer that holds the byte `off` of the data. -/
def bufferLeft (l : List (Nat × Nat)) (off : Nat) : Nat :=
  match l with
  | [] => 0
  | (_, n) :: t => if off < n then n - off else bufferLeft t (off - n)

/-- Bytes of the next unit: the part of the buffer within one 4 KiB page (11, Translation and page faults). -/
def Body.unitBytes (s : Body) (d : Desc) : Nat := min (4096 - s.nextIova d % 4096) (bufferLeft (s.buffers d) d.moved)

/-- Complete a descriptor FAULTED, TIMEOUT or PREEMPTED, with its bytes done. -/
def Body.breakOff (s : Body) (r : CmdRef) (status : Nat) : Body :=
  match s.desc r with
  | none => s
  | some d =>
    let d0 := if status = stPreempted then 0 else s.nextIova d
    let s := { s with tables := { s.tables with waiting := s.tables.waiting.filter (· != r) } }
    let s := s.modIfc r.iface fun f => { f with pageReqs := f.pageReqs.filter (· != r) }
    (s.stopStream r d).completeRef r status d0 d.moved

/-- One fetched descriptor of the old ring: those not started, and streams, end PREEMPTED; an atomic command runs on, and one
that still lacks host data ends FAULTED (entry 48). -/
def Body.carry (s : Body) (old : CmdRef) (q : Fin 2 × Nat) (d : Desc) : Body :=
  let r := { old with idx := d.idx }
  let s := s.putDesc r { d with dest := some q }
  if d.st = .queued then s.completeRef r stPreempted 0 0
  else if d.streams then s.breakOff r stPreempted
  else if d.st = .waiting then s
  else s.breakOff r stFaulted

def specTakeover : CmdSpec :=
  { cls := 7, op := 6
    bad0 := fun s r d => d.f 2 0 0 == r.iface.val || !s.ringExists (d.f 2 6 1) || !s.ringExists (d.f 2 12 7) || !s.ringExists (tkCq d)
    pre := fun s r d =>
      let old := s.ringOf (tkOld r d)
      let new := s.ringOf (tkNew r d)
      if roleRank d.role < roleRank (s.roleOf old.session) then stDenied
      else if (s.ifc (1 - r.iface)).linkUp && old.state != .released then stIllegal
      else if new.enable || new.state != .disabled || new.base == 0 || (s.ifc r.iface).dbBase == 0 then stIllegal
      else 0
    mode := .atomic (fun _ => 0) (fun _ _ _ => false) fun s r d _ =>
      let o := tkOld r d
      let n := tkNew r d
      let q := (r.iface, tkCq d)
      let old := s.ringOf o
      let s := s.setRing o { old with state := .takenOver, cause := 0 }
      let s := s.setRing n { s.ringOf n with session := old.session, enable := true, state := .enabled, cause := 0, fetch := 0 }
      let s := old.descs.foldl (fun s d => s.carry o q d) s
      { s, d0 := old.descs.length } }

/-! ### Firmware (13 R349-R351) -/

/-- A slot from an image: its header and body agree (13 Table 13-5, R349). -/
def slotOf (kind : Nat) (img : List Byte) : Option FwSlot :=
  let h := img.take 128
  let body := img.drop 4096
  if h.take 8 = ascii "HLMFWIM1" ∧ leAt h 8 1 = kind ∧ leAt h 24 8 = body.length ∧ 4096 ≤ img.length
      ∧ (h.drop 32).take 48 = digestBytes (sha384 body) then
    some { filled := true, release := BitVec.ofNat 16 (leAt h 10 2), svn := BitVec.ofNat 32 (leAt h 12 4)
           hiMinor := BitVec.ofNat 8 (leAt h 16 1), loMinor := BitVec.ofNat 8 (leAt h 17 1), lowStep := BitVec.ofNat 8 (leAt h 18 1)
           digest := sha384 h, bodyOk := true }
  else none

def fwKind (d : Desc) : Nat := d.f 2 3 0
def fwSlotB (d : Desc) : Bool := d.f 2 4 4 == 1

def FwImage.slot (x : FwImage) (b : Bool) : FwSlot := if b then x.slotB else x.slotA

def FwImage.setSlot (x : FwImage) (b : Bool) (f : FwSlot) : FwImage := if b then { x with slotB := f } else { x with slotA := f }

def Body.image (s : Body) (k : Nat) : FwImage := nth s.sec.fw k {}

def Body.setImage (s : Body) (k : Nat) (x : FwImage) : Body := { s with sec := { s.sec with fw := setNth s.sec.fw k x } }

def stageBytes (d : Desc) : Nat := d.f 4 31 0

def specFwStage : CmdSpec :=
  { cls := 8, op := 1
    bad0 := fun _ _ d => fwKind d > 3
    pre := fun s _ d => if (s.image (fwKind d)).active == fwSlotB d then stIllegal else 0
    mode := .input (fun d => d.done ≥ stageBytes d)
      (fun s _ d data =>
        let buf := (d.buf ++ data).take (stageBytes d)
        (s.setImage (fwKind d) ((s.image (fwKind d)).setSlot (fwSlotB d) {}), { d with buf, done := buf.length }))
      fun s _ d =>
        match slotOf (fwKind d) d.buf with
        | some f => { s := s.setImage (fwKind d) ((s.image (fwKind d)).setSlot (fwSlotB d) f), d1 := d.done }
        | none => { s, status := stBadDesc, d1 := d.done } }

/-- The RELEASE values stay within 1 of each other. -/
def Body.releaseNear (s : Body) (k : Nat) (rel : Nat) : Bool :=
  (List.range 4).all fun j => j == k || (let o := (s.activeSlot j).release.toNat; rel ≤ o + 1 && o ≤ rel + 1)

def Body.iodStep (s : Body) : Nat := if s.iodA then 0 else 1

/-- The conditions of R350. -/
def Body.mayActivate (s : Body) (k : Nat) (b : Bool) (sigOk : Bool) : Bool :=
  let x := s.image k
  let f := x.slot b
  f.filled && f.bodyOk && sigOk && x.floor.toNat ≤ f.svn.toNat && (s.sec.instKeys.isEmpty || x.approvals.contains f.digest)
    && s.releaseNear k f.release.toNat && f.lowStep.toNat ≤ s.iodStep && s.sec.activation.isNone
    && (k != 1 || ((s.integ.denA == .active && s.integ.denB == .standby) || (s.integ.denB == .active && s.integ.denA == .standby)))

/-- Engines fitted and found, ascending. -/
def Body.enginesIn (s : Body) : List Nat := (setBits 8 s.lantern.fittedOe).filter fun e => !s.lantern.oeMissing.getLsbD e

def Body.enginePorts (s : Body) (e : Nat) : List Nat := ((List.range 64).map fun k => 64 * e + k).flatMap fun p => s.lportsOf p

/-- Engine n's turn in an OE activation begins: its ports drain. -/
def Body.engineDown (s : Body) (n : Nat) : Body :=
  match s.enginesIn[n]? with
  | some e => (s.enginePorts e).foldl (fun s l => s.drainOrDark l .engine) s
  | none => s

/-- It is loaded: the engine's ports train again. -/
def Body.engineBack (s : Body) (n : Nat) : Body :=
  match s.enginesIn[n]? with
  | some e => (s.enginePorts e).foldl (fun s l => match (s.lp l).state with | .disabled => s.retrain l | _ => s)
      (s.clearDrain (s.enginePorts e))
  | none => s

/-- The cluster that is not ACTIVE loads the new image. -/
def Body.denLoads (s : Body) : Body :=
  let f := fun (x : DenState) => if x = .standby then DenState.loading else x
  { s with integ := { s.integ with denA := f s.integ.denA, denB := f s.integ.denB } }

/-- The cluster that has loaded serves as STANDBY again. -/
def Body.denLoaded (s : Body) : Body :=
  let f := fun (x : DenState) => if x = .loading then DenState.standby else x
  { s with integ := { s.integ with denA := f s.integ.denA, denB := f s.integ.denB } }

/-- The planned handover: the clusters change roles. -/
def Body.denHandover (s : Body) : Body :=
  { s with integ := { s.integ with denA := s.integ.denB, denB := s.integ.denA } }

/-- The first step of an activation (13 Table 13-6). -/
def Body.startActivation (s : Body) (k : Nat) : Body :=
  match k with
  | 0 => s.restartMgmt
  | 1 => s.denLoads
  | 2 => s.engineDown 0
  | _ => s

def specFwActivate (sigOk : Bool) : CmdSpec :=
  { cls := 8, op := 2
    bad0 := fun _ _ d => fwKind d > 3
    pre := fun s _ d => if s.mayActivate (fwKind d) (fwSlotB d) sigOk then 0 else stIllegal
    mode := .atomic (fun _ => 0) (fun _ _ _ => false) fun s r d _ =>
      let a : Activation := { image := fwKind d, slot := fwSlotB d, cmd := r }
      { s := ({ s with sec := { s.sec with activation := some a } } : Body).startActivation (fwKind d), later := true } }

/-- The step of an activation is its last one, where the table numbers them. -/
def Body.atLast (s : Body) (a : Activation) : Option Bool :=
  match a.image with
  | 0 => some true | 1 => some (a.step == 1) | 2 => some (s.enginesIn.length ≤ a.step / 2 + 1) | _ => none

/-- What the end of a step does as the next one begins. An engine has two: its load, after which its ports train again, and the
wait until they are UP or 2 s have passed. -/
def Body.endStep (s : Body) (a : Activation) : Body :=
  match a.image with
  | 1 => if a.step = 0 then s.denLoaded.denHandover.denLoads else s.denLoaded
  | 2 => if a.step % 2 = 0 then s.engineBack (a.step / 2) else s.engineDown (a.step / 2 + 1)
  | _ => s

/-- The slots and releases on the Lantern page (16 Table 16-2). -/
def Body.showFirmware (s : Body) : Body :=
  let rel := (List.range 4).map fun k => put (s.activeSlot k).release.toNat (16 * k)
  let sl := (List.range 4).map fun k => if (s.image k).active then 2 ^ k else 0
  s.lanternPut fun l => { l with release := BitVec.ofNat 64 (rel.foldl (· + ·) 0), slot := BitVec.ofNat 4 (sl.foldl (· + ·) 0) }

/-- An activation is over (13 R351): the new slot is active, or the former one stays. -/
def Body.activated (s : Body) (a : Activation) (ok : Bool) : Body :=
  let s := { s with sec := { s.sec with activation := none } }
  let s := if ok then (s.setImage a.image { s.image a.image with active := a.slot }).showFirmware.renegotiate else s
  let rel := ((s.image a.image).slot a.slot).release.toNat
  let s := s.emit 0x701 [put rel 16 + put (!ok).toNat 8 + put a.slot.toNat 4 + a.image]
  let s := if ok then (s.coll.groups.map fun g => g.2).foldl (fun s g => s.sendFeatures g) s else s
  s.completeRef a.cmd 0 0 0

/-- A failed step: what it took out of service comes back with the former image. -/
def Body.stepFailed (s : Body) (a : Activation) : Body :=
  let s := match a.image with
    | 1 => s.denLoaded
    | 2 => if a.step % 2 = 0 then s.engineBack (a.step / 2) else s
    | _ => s
  s.activated a false

/-- The last step of the running activation ends. -/
def Body.activationEnds (s : Body) (ok : Bool) : Body :=
  match s.sec.activation with
  | none => s
  | some a =>
    if !ok then s.stepFailed a
    else if a.image = 0 ∧ s.planes.mgmtRestart then s
    else match s.atLast a with
      | some true => (if a.image = 2 ∧ a.step % 2 = 1 then s else s.endStep a).activated a true
      | some false => s
      | none => s.activated a true

/-- An intermediate step ends, and the next begins. -/
def Body.stepEnds (s : Body) (ok : Bool) : Body :=
  match s.sec.activation with
  | none => s
  | some a =>
    if !ok then s.stepFailed a
    else if s.atLast a == some true ∧ !(a.image = 2 ∧ a.step % 2 = 0) then s
    else
      let s := s.endStep a
      { s with sec := { s.sec with activation := some { a with step := a.step + 1 } } }

/-! ### Checkpoints (13 R347) -/

/-- Chain a CHECKPOINT record, when records have been chained since the last. -/
def Body.checkpoint (s : Body) : Body :=
  let a := s.sec.audit
  if a.since = 0 ∨ s.planes.mgmtRestart then s
  else
    let s := s.chainOne (({ kind := 4, role := 4, path := 3, object := a.lastCheckpoint.toNat, data1 := a.since } : AuditArgs).body s.clock.ns)
    let a' := s.sec.audit
    let new := match a'.ring.getLast? with | some r => [r] | none => []
    { s with sec := { s.sec with audit := { a' with since := 0, lastCheckpoint := a.seq, unsigned := a'.unsigned ++ new } } }

/-- The signature block of the oldest unsigned checkpoint is ready: kept in one of 303 slots, and exported in 106 parts (13 R348). -/
def Body.checkpointSigned (s : Body) : Body :=
  let a := s.sec.audit
  match a.unsigned with
  | [] => s
  | r :: t =>
    let rec_ := auditBytes r.body ++ digestBytes r.chain
    let blk := Config.signature 4 (sha384 (ascii "HLMAUDC1" ++ rec_))
    let seq := BitVec.ofNat 64 (fld r.body 63 0)
    let s := { s with sec := { s.sec with audit := { a with
      unsigned := t, blocks := (a.blocks ++ [(seq, blk)]).drop (a.blocks.length + 1 - 303) } } }
    (List.range 106).foldl (fun s k =>
      s.emit 4 ([seq.toNat, k] ++ (List.range 4).map fun j => leAt blk (32 * k + 8 * j) 8)) s

/-! ### The commands -/

def execSecChallenge (r : CmdRef) (s : State) : Ans := onBody s fun b => hostCmd specChallenge b r [] 0

def execSecOpen (r : CmdRef) (data : List Byte) (sigOk : Bool) (s : State) : Ans := onBody s fun b => hostCmd (specOpen sigOk) b r data 0

def execSecBind (r : CmdRef) (s : State) : Ans := onBody s fun b => hostCmd specBind b r [] 0

def execSecElevate (r : CmdRef) (data : List Byte) (sigOk : Bool) (s : State) : Ans :=
  onBody s fun b => hostCmd (specElevate sigOk) b r data 0

def execSecClose (r : CmdRef) (s : State) : Ans := onBody s fun b => hostCmd specClose b r [] 0

def execSecTakeover (r : CmdRef) (s : State) : Ans := onBody s fun b => hostCmd specTakeover b r [] 0

def execSecRelease (r : CmdRef) (s : State) : Ans := onBody s fun b => hostCmd specRelease_ b r [] 0

def execFwStage (r : CmdRef) (data : List Byte) (s : State) : Ans := onBody s fun b => hostCmd specFwStage b r data 0

def execFwActivate (r : CmdRef) (sigOk : Bool) (s : State) : Ans := onBody s fun b => hostCmd (specFwActivate sigOk) b r [] 0

def execFwActivated (ok : Bool) (s : State) : Ans := onBody s fun b => if b.serves then b.activationEnds ok else b

def execActivationStepEnd (ok : Bool) (s : State) : Ans := onBody s fun b => if b.serves then b.stepEnds ok else b

def execChallengeExpiry (p : MbRef) (ring : Option (Fin 64)) (s : State) : Ans := onBody s fun b => b.dropChallenge p ring

def execSessionExpiry (id : W32) (s : State) : Ans := onBody s fun b => b.endSession id

def execLockoutExpiry (i : Fin 2) (s : State) : Ans := onBody s fun b => b.modIfc i fun f => { f with lockout := false }

def execCheckpoint (s : State) : Ans := onBody s fun b => if b.power.state.runs then b.checkpoint else b

def execCheckpointSignatureReady (s : State) : Ans := onBody s fun b => if b.power.state.runs then b.checkpointSigned else b

end Sys2Proof.Machine
end

