-- ==== Sys2Proof/Machine/Profile.lean ====
section
/-! DEFINITION. The installer profile: its byte form, the checks of PROFILE_WRITE and those of bring-up
(16 R412-R415, Tables 16-9 to 16-12; 15 R391, R395; 01 R16; 09 R226). -/
namespace Sys2Proof.Machine

/-- A parameter: its ID, the range of its rule, and where the profile holds it (16 Table 16-9). -/
structure Param where
  id : Nat
  ok : Nat → Bool
  set : Profile → Nat → Profile

def within (lo hi : Nat) (v : Nat) : Bool := lo ≤ v && v ≤ hi

/-- A 64-bit value in two's complement. -/
def signed64 (v : Nat) : Int := if v < 2 ^ 63 then (v : Int) else (v : Int) - 2 ^ 64

def paramsA : List Param :=
  [⟨0x01, within 0 7, fun p v => { p with homePlane := v }⟩, ⟨0x02, within 0 1023, fun p v => { p with moduleIndex := v }⟩,
   ⟨0x03, within 0 0xFFFFFF, fun p v => { p with hallId := v }⟩,
   ⟨0x04, fun v => within 1200 2200 v && v % 25 == 0, fun p v => { p with cclk := v }⟩,
   ⟨0x05, fun v => within 1200 2000 v && v % 50 == 0, fun p v => { p with sclkMax := v }⟩,
   ⟨0x06, within 1800 3400, fun p v => { p with cap := v }⟩,
   ⟨0x07, fun _ => true, fun p v => { p with portageOwner := BitVec.ofNat 64 v }⟩]

def paramsB : List Param :=
  [⟨0x10, within 1 64, fun p v => { p with contextStore := v }⟩, ⟨0x11, within 1 32, fun p v => { p with tablesMembers := v }⟩,
   ⟨0x12, within 0 8, fun p v => { p with logs := v }⟩, ⟨0x13, within 0 512, fun p v => { p with bivouac := v }⟩,
   ⟨0x14, within 0 512, fun p v => { p with spill := v }⟩, ⟨0x15, fun v => v == 0 || v == 72, fun p v => { p with headroom := v }⟩]
  ++ (List.range 4).map fun n => ⟨0x20 + n, within 0 0xFFFFFF, fun p v => { p with ridgepole := setNth p.ridgepole n v }⟩

def paramsC : List Param :=
  [⟨0x30, fun v => (let x := signed64 v; -6 ≤ x && x ≤ 1), fun p v => { p with alpha := signed64 v }⟩,
   ⟨0x31, within 64 65536, fun p v => { p with sharedCap := v }⟩, ⟨0x32, within 0 131072, fun p v => { p with uncreditedFloor := v }⟩,
   ⟨0x33, within 64 16384, fun p v => { p with pfcXoff := v }⟩, ⟨0x34, within 64 16384, fun p v => { p with pfcXon := v }⟩,
   ⟨0x35, within 20 2000, fun p v => { p with specWindow := v }⟩, ⟨0x36, within 0 196608, fun p v => { p with holdCellCap := v }⟩,
   ⟨0x37, within 1 3600, fun p v => { p with agingT := v }⟩, ⟨0x40, within 4096 1048576, fun p v => { p with tree1Max := v }⟩,
   ⟨0x41, within 12 20, fun p v => { p with chunkDefault := v }⟩, ⟨0x42, within 1 16, fun p v => { p with depthDefault := v }⟩,
   ⟨0x43, within 5 5000, fun p v => { p with admitWindow := v }⟩, ⟨0x44, within 10 10000, fun p v => { p with resendT := v }⟩,
   ⟨0x45, within 500 1000, fun p v => { p with satLoad := v }⟩, ⟨0x46, within 100 10000, fun p v => { p with satT := v }⟩,
   ⟨0x47, within 500 5000, fun p v => { p with urgentT := v }⟩, ⟨0x48, within 100 10000, fun p v => { p with suspectT := v }⟩]

def paramsD : List Param :=
  [⟨0x50, within 100 10000, fun p v => { p with dupwin := v }⟩, ⟨0x51, within 200 5000, fun p v => { p with buddyTimeout := v }⟩,
   ⟨0x52, within 50 800, fun p v => { p with copyRate := v }⟩, ⟨0x53, within 1 64, fun p v => { p with joinK := v }⟩,
   ⟨0x54, within 1 20, fun p v => { p with holdLimit := v }⟩, ⟨0x60, within 100 800, fun p v => { p with expressRate := v }⟩,
   ⟨0x61, within 10 10000, fun p v => { p with expressHold := v }⟩, ⟨0x62, within 1 10000, fun p v => { p with expressHoldSat := v }⟩,
   ⟨0x63, within 100 60000, fun p v => { p with expressDwell := v }⟩, ⟨0x70, within 1 60, fun p v => { p with testPeriod := v }⟩,
   ⟨0x71, within 0 168, fun p v => { p with denTestPeriod := v }⟩, ⟨0x72, within 0 30, fun p v => { p with stackTestPeriod := v }⟩,
   ⟨0x73, within 10 100000, fun p v => { p with ceLimit := v }⟩, ⟨0x74, within 50 400, fun p v => { p with drainRate := v }⟩,
   ⟨0x80, within 1 10080, fun p v => { p with sessionLife := v }⟩, ⟨0x81, within 0 65535, fun p v => { p with mgmtUdp := v }⟩,
   ⟨0x82, within 1 14, fun p v => { p with maxDist := v }⟩, ⟨0x83, within 1 3600, fun p v => { p with holdoverLimit := v }⟩,
   ⟨0x84, within 0 127, fun p v => { p with ptpDomain := v }⟩, ⟨0x85, within 0 255, fun p v => { p with ptpPrio1 := v }⟩,
   ⟨0x86, within 0 255, fun p v => { p with ptpPrio2 := v }⟩]

def params : List Param := paramsA ++ paramsB ++ paramsC ++ paramsD

/-- Rules that bind two parameters (03 R78, 10 R265). -/
def Profile.joint (p : Profile) : Bool := p.pfcXon < p.pfcXoff && p.expressHoldSat ≤ p.expressHold

/-- Entries of n bytes as a map. -/
def entriesOf (w n : Nat) (b : List Byte) : Map (BitVec w) :=
  ((pieces n (b.length / n) b).zipIdx).map fun x => (x.2, BitVec.ofNat w (leNat x.1))

/-- The section's length is right and its values lie in range (16 Tables 16-10, 16-11; 06 R157). -/
def sectionOk (id : Nat) (b : List Byte) : Bool :=
  match id with
  | 1 => b.length == 4096 && (let es := entriesOf 64 8 b
      es.all fun e => fld e.2 20 19 != 3 && fld e.2 23 21 ≤ 3 && fld e.2 23 21 == fld (mgetD es (e.1 / 8 * 8) 0) 23 21)
  | 2 => b.length == 4096
  | 3 => b.length % 8 == 0 && b.length ≤ 16384
  | 4 => b.length == 1024 && (entriesOf 128 16 b).all fun e => mapValid (BitVec.ofNat 32 (fld e.2 31 0))
  | 5 => b.length == 32
  | _ => false

def putSection (p : Profile) (id : Nat) (b : List Byte) : Profile :=
  match id with
  | 1 => { p with portMap := entriesOf 64 8 b }
  | 2 => { p with gateway := entriesOf 512 64 b }
  | 3 => { p with expressPlan := (u64s b).map (BitVec.ofNat 64) }
  | 4 => { p with fallback := entriesOf 128 16 b }
  | 5 => { p with mgmtPort := BitVec.ofNat 256 (leNat b) }
  | _ => p

/-- Parameter records; none when one is unknown, repeated or out of range. -/
def takeRecords (p : Profile) (seen : List Nat) : List (List Byte) → Option Profile
  | [] => some p
  | r :: t =>
    let id := leAt r 0 2
    let v := leAt r 8 8
    match params.find? fun x => x.id == id with
    | none => none
    | some x => if seen.contains id || !x.ok v then none else takeRecords (x.set p v) (id :: seen) t

/-- Sections, `n` of them, that fill the bytes exactly. -/
def takeSections (p : Profile) (seen : List Nat) : Nat → List Byte → Option Profile
  | 0, b => if b.isEmpty then some p else none
  | n + 1, b =>
    let id := leAt b 0 2
    let len := leAt b 4 4
    let body := (b.drop 8).take len
    if b.length < 8 + (len + 7) / 8 * 8 || seen.contains id || !sectionOk id body then none
    else takeSections (putSection p id body) (id :: seen) n (b.drop (8 + (len + 7) / 8 * 8))

/-- CRC-32C over every byte but the CRC's own (16 R412). -/
def profileCrc (b : List Byte) : Nat := crc32c (b.take 60 ++ b.drop 64)

/-- A profile from its bytes, for a part number; none where PROFILE_WRITE answers BAD_DESC (16 R413). -/
def parseProfile (partno : Nat) (b : List Byte) : Option Profile :=
  let n := leAt b 16 4
  if b.length < 64 || b.length > 65536 || b.take 8 != ascii "HLMPROF1" || leAt b 8 2 != 1 || leAt b 10 2 != partno
      || leAt b 12 4 != b.length || leAt b 60 4 != profileCrc b || 64 + 16 * n > b.length || leAt b 20 4 > 5 then none
  else
    match takeRecords {} [] (pieces 16 n ((b.drop 64).take (16 * n))) with
    | none => none
    | some p => match takeSections p [] (leAt b 20 4) (b.drop (64 + 16 * n)) with
      | none => none
      | some p => if p.joint then some p else none

/-- The factory profile of a part number as bytes: a header alone (15 R395). -/
def factoryBytes (partno : Nat) : List Byte :=
  let h := ascii "HLMPROF1" ++ leBytes 2 1 ++ leBytes 2 partno ++ leBytes 4 64 ++ List.replicate 44 0
  h ++ leBytes 4 (crc32c h)

/-! ### The checks of bring-up (15 R391, R395) -/

/-- Bounds of the Ridgepole values of one die; a die without engines has no engine bound. -/
def ridgepoleDieOk (v : Variant) (die w : Nat) : Bool :=
  let r := w % 256
  (v == .p384 && die == 3 || within 52 56 (w / 65536 % 256)) && within 24 32 (w / 256 % 256) && within 8 48 r

/-- Every die within bounds, and both ends of each ring link agreed on its reduction blocks; the ring is FD0, FD1, FD3, FD2 (01 R15). -/
def Profile.ridgepoleOk (p : Profile) (v : Variant) : Bool :=
  let at_ := fun n => nth p.ridgepole n 0
  (List.range 4).all fun n => ridgepoleDieOk v n (at_ n) && (at_ n % 256 + 1) / 2 == at_ (ringSucc n) % 256 / 2

/-- Active ports on the busiest die: those enabled that exist (01 R16). -/
def Profile.busiest (p : Profile) (v : Variant) : Nat :=
  let per := (List.range 4).map fun die =>
    ((List.range 128).filter fun k => 128 * die + k < v.ports && (match mget p.portMap (128 * die + k) with | some e => bit e 18 | none => true)).length
  per.foldl max 0

def Profile.cclkOk (p : Profile) (v : Variant) : Bool := 128 * p.cclk ≥ 1600 * p.busiest v

/-- At most two candidates for each peer (10 R264). -/
def Profile.planOk (p : Profile) : Bool :=
  let ps := (p.expressPlan.filter fun e => bit e 63).map fun e => fld e 62 53
  ps.all fun q => (ps.filter (· == q)).length ≤ 2

/-- The partitions fit (09 R226). -/
def Profile.sum (p : Profile) : Nat := p.contextStore + p.tablesMembers + p.logs + p.bivouac + p.spill + p.headroom

def Profile.partsOk (p : Profile) (v : Variant) : Bool := !v.hasFmem || p.sum ≤ v.hbmGB

/-- PROFILE_STATUS of the first P2 check that refuses a profile, 0 when none does (15 Table 15-8). -/
def Profile.p2Status (p : Profile) (v : Variant) : Nat :=
  if !p.ridgepoleOk v then 2 else if !p.cclkOk v then 3 else if !p.planOk then 5 else 0

end Sys2Proof.Machine
end

