-- ==== Sys2Proof/Machine/Mailbox.lean ====
section
/-! DEFINITION. The session mailbox and the management port: parts, operations and answers (13 R335-R355, Table 13-2;
15 R388; 16 R410-R413). Request and answer layouts that the manual does not give are those of entry 34. -/
namespace Sys2Proof.Machine

/-! ### Mailboxes -/

/-- Management-port mailbox of an address and port. -/
def Body.mgmtBox (s : Body) (m : MbRef) : Mailbox :=
  match s.sec.mgmtBoxes.find? fun x => x.1 == m with | some x => x.2 | none => {}

def Body.mbox (s : Body) (m : MbRef) : Mailbox :=
  match m with
  | .hif i => (s.ifc i).mailbox
  | .mgmt .. => s.mgmtBox m

def Body.setMbox (s : Body) (m : MbRef) (b : Mailbox) : Body :=
  match m with
  | .hif i => s.modIfc i fun f => { f with mailbox := b }
  | .mgmt .. =>
    let l := s.sec.mgmtBoxes.filter fun x => x.1 != m
    { s with sec := { s.sec with mgmtBoxes := if b.state = .idle then l else l ++ [(m, b)] } }

abbrev partMax : Nat := 3840

/-- Answer parts leave the management port at once, each as a datagram (13 R343). -/
def Body.sendAnswer (s : Body) (m : MbRef) (status : Nat) (ans : List Byte) : Body :=
  match m with
  | .hif _ => s
  | .mgmt a p =>
    (if ans.isEmpty then [[]] else pieces partMax (ans.length / partMax + 1) ans).foldl (fun s x =>
      s.putOut (.mgmt a p (BitVec.ofNat 8 status) x)) s

/-- The operation ends with its answer; part 0 lies in MB_DATA (16 R410, R411). -/
def Body.answer (s : Body) (m : MbRef) (status : Nat) (ans : List Byte) : Body :=
  let b := s.mbox m
  match m with
  | .mgmt .. => (s.setMbox m {}).sendAnswer m status ans
  | .hif _ =>
    if b.dropAnswer then s.setMbox m { b with state := .idle, dropAnswer := false, req := [] }
    else
      let d := ans.take partMax
      s.setMbox m { b with state := .answer, status := BitVec.ofNat 8 status, part := 0, ans, req := []
                           data := d ++ b.data.drop d.length }

/-! ### Parts of a request -/

/-- Codes of Table 13-2. -/
def mbOps : List Nat := [1, 2, 3, 4, 0x10, 0x11, 0x12, 0x13, 0x20, 0x21, 0x22, 0x23, 0x24, 0x25, 0x26, 0x30, 0x31, 0x32]

/-- The session is open, and usable here: one bound to a management address serves that address only (13 R343). -/
def Body.mbRole (s : Body) (m : MbRef) (id : W32) : Role :=
  match s.session id with
  | none => .none
  | some x =>
    let here : Bool := match x.path, m with
      | some (.mgmt a p), _ => m == .mgmt a p
      | _, .mgmt .. => false
      | _, _ => true
    if here then x.role else .none

/-- Operations that leave an audit record (13 R344). -/
def mbAudited (op : Nat) : Bool := !(op == 1 || op == 0x10 || op == 0x11 || op == 0x12 || op == 0x13)

/-- The audit record of an operation, in the session and role it ends with (13 R344). -/
def Body.mbAudit (s : Body) (m : MbRef) (op status : Nat) (req : List Byte) (id : W32) (role : Role) : Body :=
  if mbAudited op then
    s.audit { kind := if op ≤ 4 then 3 else 2, role := roleCode role, session := id.toNat, path := pathCode m none
              iface := ifaceCode m, op, status, digest := req }
  else s

/-- The last part is in: the operation runs, or is answered BAD_DESC. -/
def Body.mbStart (s : Body) (m : MbRef) (b : Mailbox) : Body :=
  let op := b.reqOp.toNat
  let known := mbOps.contains op
  let role := s.mbRole m b.reqSession
  let s := s.setMbox m { b with state := .running, reqRole := role, reqContact := s.power.ppContact }
  if !known then s.answer m stBadDesc []
  else if b.tooLong then (s.mbAudit m op stBadDesc [] b.reqSession role).answer m stBadDesc []
  else s

/-- Take one part (16 R410). -/
def Body.mbPart (s : Body) (m : MbRef) (b : Mailbox) (p : MbPart) : Body :=
  let req := if p.first then p.data else b.req ++ p.data
  let long := (if p.first then false else b.tooLong) || req.length > 1048576
  let b := { b with refused := 0, state := .receiving, dropAnswer := false, tooLong := long, req := if long then [] else req
                    reqSession := if p.first then p.session else b.reqSession, reqOp := if p.first then p.op else b.reqOp
                    ans := if p.first then [] else b.ans }
  if p.last then s.mbStart m b else s.setMbox m b

/-- GO (16 R411): status of the refusal, or none. -/
def Mailbox.goRefused (b : Mailbox) (first : Bool) : Option Nat :=
  if first then (if b.state = .running then some stNotReady else none)
  else if b.state = .receiving then none else some stBadDesc

def Body.mbGo (s : Body) (i : Fin 2) : Body :=
  let m := MbRef.hif i
  let b := s.mbox m
  match b.goRefused b.first with
  | some c => s.setMbox m { b with refused := BitVec.ofNat 8 c }
  | none => s.mbPart m b { session := b.session, op := b.op, first := b.first, last := b.last, data := b.data.take b.partLen.toNat }

/-- NEXT (16 R410, R411). -/
def Body.mbNext (s : Body) (i : Fin 2) : Body :=
  let m := MbRef.hif i
  let b := s.mbox m
  if b.state ≠ .answer then s.setMbox m { b with refused := BitVec.ofNat 8 stBadDesc }
  else
    let k := b.part + 1
    if partMax * k < b.ans.length then
      let d := (b.ans.drop (partMax * k)).take partMax
      s.setMbox m { b with refused := 0, part := k, data := d ++ b.data.drop d.length }
    else s.setMbox m { b with refused := 0, state := .idle, ans := [], part := 0 }

/-- ABORT (16 R411). -/
def Body.mbAbort (s : Body) (i : Fin 2) : Body :=
  let m := MbRef.hif i
  let b := s.mbox m
  match b.state with
  | .idle => s
  | .receiving => s.setMbox m { b with state := .idle, req := [], tooLong := false }
  | .running => s.setMbox m { b with dropAnswer := true }
  | .answer => s.setMbox m { b with state := .idle, ans := [], part := 0 }

/-- A write of MB_DOOR: one bit at once (16 R411). -/
def Body.mbDoor (s : Body) (i : Fin 2) (v : W64) : Body :=
  match fld v 2 0 with
  | 0 => s
  | 1 => s.mbGo i
  | 2 => s.mbNext i
  | 4 => s.mbAbort i
  | _ => s.setMbox (.hif i) { s.mbox (.hif i) with refused := BitVec.ofNat 8 stBadDesc }

/-- The mailbox registers answer, and its operations run, from P5 on (11 R284). -/
def onMailbox (s : State) (f : Body → Body) : Ans := onBody s fun b => if b.serves then f b else b

/-! ### Running an operation -/

/-- What an operation answers: state, status, answer bytes. -/
structure MbRes where
  s : Body
  status : Nat := 0
  ans : List Byte := []
  /-- session and role that the operation obtained -/
  now : Option (W32 × Role) := none

def MbRes.no (s : Body) (status : Nat) : MbRes := { s, status }

/-- The role's right to an operation (13 Table 13-1): own-session rows are judged by the operation. -/
def mbAllowed (op : Nat) (r : Role) (contact : Bool) : Bool :=
  if op == 1 || op == 2 || op == 0x10 || op == 0x11 then true
  else if op == 0x20 then contact
  else if op == 3 || op == 4 || op == 0x12 || op == 0x13 then r != .none
  else if op == 0x30 || op == 0x31 || op == 0x32 then r == .maker && contact
  else r == .installer

/-- Run operation `op` of mailbox `m`, when it is the one that runs there: BAD_DESC, then the right, then its effect. -/
def Body.mbRun (s : Body) (m : MbRef) (op : Nat) (bad : List Byte → Bool) (run : Body → Mailbox → MbRes) : Body :=
  let b := s.mbox m
  if b.state ≠ .running ∨ b.reqOp.toNat ≠ op ∨ s.planes.mgmtRestart then s
  else
    let res := if bad b.req then MbRes.no s stBadDesc
      else if !mbAllowed op b.reqRole b.reqContact then MbRes.no s stDenied
      else run s b
    let as := res.now.getD (b.reqSession, b.reqRole)
    (res.s.mbAudit m op res.status b.req as.1 as.2).answer m res.status res.ans

/-! ### Sessions by mailbox -/

/-- The session in MB_REQ is the one the request names (Table 13-1, "Own session"). -/
def mbOwn (b : Mailbox) : Bool := b.reqSession != 0 && leAt b.req 0 4 == b.reqSession.toNat && b.reqRole != .none

def Body.opChallenge (s : Body) (m : MbRef) : Body :=
  s.mbRun m 1 (fun r => !r.isEmpty) fun s _ => let (bs, s) := s.newChallenge m none; { s, ans := bs }

def Body.opOpen (s : Body) (m : MbRef) (sigOk : Bool) : Body :=
  s.mbRun m 2 (fun r => r.length != proofBytes || roleOfCode (proofRole r) == .none) fun s b =>
    let (st, id, s) := s.openSession m none b.req sigOk
    if st = 0 then { s, ans := leBytes 4 id.toNat, now := some (id, s.roleOf id) } else .no s st

def Body.opElevate (s : Body) (m : MbRef) (sigOk : Bool) : Body :=
  s.mbRun m 3 (fun r => r.length != 4 + proofBytes || roleOfCode (proofRole (r.drop 4)) == .none) fun s b =>
    let (st, s) := s.elevate m none b.reqSession (mbOwn b) (b.req.drop 4) sigOk
    if st = 0 then { s, now := some (b.reqSession, s.roleOf b.reqSession) } else .no s st

def Body.opClose (s : Body) (m : MbRef) : Body :=
  s.mbRun m 4 (fun r => r.length != 4) fun s b => if mbOwn b then { s := s.closeSession b.reqSession } else .no s stDenied

/-! ### Attestation (13 R355, Table 13-7) -/

/-- Role keys of the store in key ID order, operators before installers of one ID. -/
def Sec.keys (x : Sec) : List KeyRec := sortBy (fun (a b : KeyRec) => a.id.toNat < b.id.toNat) (x.operKeys ++ x.instKeys)

/-- Measurement 7's bytes: the quarantine list, then lanes by block (encoding: entry 24). -/
def Mram.healthBytes (x : Mram) : List Byte :=
  x.quarantine.map (BitVec.ofNat 8) ++ x.laneMap.flatMap fun e => leBytes 2 e.1 ++ e.2.map (BitVec.ofNat 8)

def Body.measurements (s : Body) : List Byte :=
  ((List.range 4).flatMap fun k => digestBytes (s.activeSlot k).digest)
  ++ digestBytes (sha384 s.profiles.inForceRaw)
  ++ digestBytes (sha384 (s.sec.keys.flatMap fun k => k.record ++ leBytes 2 k.id.toNat))
  ++ digestBytes s.sec.fuseDigest ++ digestBytes (sha384 s.mram.healthBytes)

def steppingBytes (s : Body) : List Byte := (List.range 6).map fun k => BitVec.ofNat 8 (fld s.lantern.stepping (23 - 4 * k) (20 - 4 * k))

def Body.quote (s : Body) (nonce : List Byte) : List Byte :=
  ascii "HLMQUOT1" ++ nonce ++ s.serialBytes ++ steppingBytes s ++ leBytes 8 s.mram.bootCount.toNat ++ leBytes 8 s.clock.ns.toNat
    ++ s.measurements ++ leBytes 8 (s.sec.audit.seq - 1).toNat ++ digestBytes s.sec.audit.chain

def Body.opAttest (s : Body) (m : MbRef) : Body :=
  s.mbRun m 0x10 (fun r => r.length != 32) fun s b =>
    let q := s.quote b.req
    { s, ans := q ++ Config.signature 5 (sha384 q) }

def Body.opCert (s : Body) (m : MbRef) : Body :=
  s.mbRun m 0x11 (fun r => !r.isEmpty) fun s _ =>
    let c := ascii "HLMCERT1" ++ s.serialBytes ++ Config.deviceKey
    { s, ans := c ++ Config.signature 6 (sha384 c) }

def Body.opCatalog (s : Body) (m : MbRef) : Body :=
  s.mbRun m 0x12 (fun r => r.length != 8) fun s b =>
    { s, ans := ((List.range (min 4096 (leAt b.req 4 4))).flatMap fun k => Config.catalogEntry (leAt b.req 0 4 + k)).take 1048576 }

/-! ### The audit log (13 Table 13-2) -/

def Body.opAuditRead (s : Body) (m : MbRef) : Body :=
  s.mbRun m 0x13 (fun r => r.length != 12 || leAt r 8 4 > 8192) fun s b =>
    let first := leAt b.req 0 8
    let n := leAt b.req 8 4
    let inRange : Nat → Bool := fun q => first ≤ q && q < first + n
    let rs := s.sec.audit.ring.filter fun r => inRange (fld r.body 63 0)
    let bs := s.sec.audit.blocks.filter fun x => inRange x.1.toNat
    { s, ans := ((rs.flatMap fun r => auditBytes r.body ++ digestBytes r.chain) ++ bs.flatMap fun x => x.2).take 1048576 }

/-! ### The key store (13 R338, R339) -/

abbrev keyBytes : Nat := 1984

def putKey (l : List KeyRec) (k : KeyRec) : List KeyRec := (l.filter fun x => x.id != k.id) ++ [k]

def keyRoom (l : List KeyRec) (id : W16) : Bool := l.length < 16 || l.any fun x => x.id == id

def Body.opClaim (s : Body) (m : MbRef) : Body :=
  s.mbRun m 0x20 (fun r => r.length != 2 + keyBytes) fun s b =>
    if !s.sec.instKeys.isEmpty then .no s stIllegal
    else
      let k : KeyRec := ⟨BitVec.ofNat 16 (leAt b.req 0 2), b.req.drop 2⟩
      let c := sha384 (ascii "HLMAUDG1" ++ s.serialBytes)
      { s := { s with sec := { s.sec with instKeys := [k], audit := { s.sec.audit with chain := c } } } }

/-- Kind and key ID or slot head an ENROLL or REVOKE request. -/
def keyKind (r : List Byte) : Nat := leAt r 0 1
def keyIdOf (r : List Byte) : Nat := leAt r 2 2

def keyHeadBad (r : List Byte) : Bool := !(keyKind r == 1 || keyKind r == 2 || (keyKind r == 4 && keyIdOf r < 2))

def Body.setPlaneKey (s : Body) (slot : Nat) (k : Option (List Byte)) : Body :=
  { s with sec := if slot = 0 then { s.sec with plane0 := k } else { s.sec with plane1 := k } }

def Body.opEnroll (s : Body) (m : MbRef) : Body :=
  s.mbRun m 0x21 (fun r => keyHeadBad r || r.length != 4 + (if keyKind r = 4 then 48 else keyBytes)) fun s b =>
    let id := BitVec.ofNat 16 (keyIdOf b.req)
    let k : KeyRec := ⟨id, b.req.drop 4⟩
    match keyKind b.req with
    | 1 => if keyRoom s.sec.operKeys id then { s := { s with sec := { s.sec with operKeys := putKey s.sec.operKeys k } } }
      else .no s stNoRoom
    | 2 => if keyRoom s.sec.instKeys id then { s := { s with sec := { s.sec with instKeys := putKey s.sec.instKeys k } } }
      else .no s stNoRoom
    | _ => { s := s.setPlaneKey (keyIdOf b.req) (some (b.req.drop 4)) }

def Body.opRevoke (s : Body) (m : MbRef) : Body :=
  s.mbRun m 0x22 (fun r => keyHeadBad r || r.length != 4) fun s b =>
    let id := BitVec.ofNat 16 (keyIdOf b.req)
    let without := fun (l : List KeyRec) => l.filter fun k => k.id != id
    let ends := fun (s : Body) (r : Role) => s.endSessions fun x => x.opened == r && x.key == id
    match keyKind b.req with
    | 1 =>
      if !(s.sec.operKeys.any fun k => k.id == id) then .no s stIllegal
      else { s := ends { s with sec := { s.sec with operKeys := without s.sec.operKeys } } .operator }
    | 2 =>
      if !(s.sec.instKeys.any fun k => k.id == id) || s.sec.instKeys.length == 1 then .no s stIllegal
      else { s := ends { s with sec := { s.sec with instKeys := without s.sec.instKeys } } .installer }
    | _ => { s := s.setPlaneKey (keyIdOf b.req) none }

/-! ### Profiles (16 R412, R413) -/

def Body.opProfileWrite (s : Body) (m : MbRef) : Body :=
  s.mbRun m 0x23 (fun _ => false) fun s b =>
    match parseProfile s.lantern.partno.toNat b.req with
    | none => .no s stBadDesc
    | some p => { s := { s with profiles := { s.profiles with staged := some (p, b.req), refused := false } } }

/-- The profile in force; then, when one is staged, an 8-byte word, 1 for a refused one, and its bytes. -/
def Body.opProfileRead (s : Body) (m : MbRef) : Body :=
  s.mbRun m 0x24 (fun r => !r.isEmpty) fun s _ =>
    { s, ans := s.profiles.inForceRaw ++ (match s.profiles.staged with
      | some x => leBytes 8 s.profiles.refused.toNat ++ x.2 | none => []) }

/-! ### Firmware (13 R350, R353) -/

/-- Image kinds whose slots hold the header, or every kind when none does (entry 34). -/
def Body.kindsOf (s : Body) (d : BitVec 384) : List Nat :=
  let l := (List.range 4).filter fun k =>
    ((s.image k).slotA.filled && (s.image k).slotA.digest == d) || ((s.image k).slotB.filled && (s.image k).slotB.digest == d)
  if l.isEmpty then List.range 4 else l

def Body.opFwApprove (s : Body) (m : MbRef) (sigOk : Bool) : Body :=
  s.mbRun m 0x25 (fun r => r.length != 58 + 3373 || r.take 8 != ascii "HLMFWAP1") fun s b =>
    let d := BitVec.ofNat 384 (beNat ((b.req.drop 8).take 48))
    if !sigOk || !(s.sec.instKeys.any fun k => k.id.toNat == leAt b.req 56 2) then .no s stBadDesc
    else
      { s := (s.kindsOf d).foldl (fun s k =>
          let x := s.image k
          let l := (x.approvals.filter (· != d)) ++ [d]
          s.setImage k { x with approvals := l.drop (l.length - 16) }) s }

def Body.opSvnCommit (s : Body) (m : MbRef) : Body :=
  s.mbRun m 0x26 (fun r => r.length != 1 || leAt r 0 1 > 3) fun s b =>
    let k := leAt b.req 0 1
    let x := s.image k
    let v := if x.floor.toNat < (s.activeSlot k).svn.toNat then (s.activeSlot k).svn else x.floor
    { s := s.setImage k { x with floor := v }, ans := leBytes 4 v.toNat }

/-! ### Maker operations (12 R318; 15 R388) -/

def Body.opMfgTest (s : Body) (m : MbRef) : Body :=
  s.mbRun m 0x31 (fun r => r.length != 2) fun s b => { s, ans := [Config.mfgResult (leAt b.req 0 2)] }

/-- The Sett leaves the quarantine list; it enters service at the next bring-up (12 Table 12-3; entry 46). -/
def Body.opClearQuarantine (s : Body) (m : MbRef) : Body :=
  s.mbRun m 0x32 (fun r => r.length != 1 || leAt r 0 1 ≥ 20) fun s b =>
    let n := leAt b.req 0 1
    if s.mram.quarantine.contains n then { s := { s with mram := { s.mram with quarantine := s.mram.quarantine.filter (· != n) } } }
    else .no s stIllegal

/-- REPAIR entries that the image writes: all outside them, and every entry already written, is as it stands (15 R388). -/
def repairFits (old new : BitVec 8192) : Bool :=
  old.toNat / 2 ^ 6144 == new.toNat / 2 ^ 6144
    && (List.range 768).all fun e => fld old (8 * e + 7) (8 * e) == 0 || fld old (8 * e + 7) (8 * e) == fld new (8 * e + 7) (8 * e)

def fuseTarget (r : List Byte) : Nat := leAt r 0 1
def fuseImage (r : List Byte) : BitVec 8192 := BitVec.ofNat 8192 (leNat (r.drop 1))

/-- The fuse record, each block's bytes from its least significant (entry 24). -/
def fuseRecord (fs : List (BitVec 8192)) : List Byte := fs.flatMap fun b => leBytes 1024 b.toNat

/-- The fuses after writing an image to a block: bits are only ever set. -/
def fuseWrite (fs : List (BitVec 8192)) (n : Nat) (v : BitVec 8192) : List (BitVec 8192) := setNth fs n (nth fs n 0 ||| v)

/-- FUSE is about to write: right, format and image fit. -/
def State.fuseOk (s : State) (m : MbRef) : Bool :=
  let b := s.mbox m
  b.state == .running && b.reqOp == 0x30 && !s.planes.mgmtRestart && mbAllowed 0x30 b.reqRole b.reqContact
    && b.req.length == 1025 && fuseTarget b.req < 6 && repairFits (nth s.fuses (fuseTarget b.req) 0) (fuseImage b.req)

def Body.opFuse (s : Body) (m : MbRef) (fits : Bool) (digest : BitVec 384) : Body :=
  s.mbRun m 0x30 (fun _ => false) fun s b =>
    if b.req.length != 1025 || fuseTarget b.req ≥ 6 || !fits then .no s stBadDesc
    else { s := { s with sec := { s.sec with fuseDigest := digest } } }

/-! ### The commands -/

def execMailboxChallenge (m : MbRef) (s : State) : Ans := onMailbox s fun b => b.opChallenge m
def execMailboxOpen (m : MbRef) (sigOk : Bool) (s : State) : Ans := onMailbox s fun b => b.opOpen m sigOk
def execMailboxElevate (m : MbRef) (sigOk : Bool) (s : State) : Ans := onMailbox s fun b => b.opElevate m sigOk
def execMailboxClose (m : MbRef) (s : State) : Ans := onMailbox s fun b => b.opClose m
def execAttest (m : MbRef) (s : State) : Ans := onMailbox s fun b => b.opAttest m
def execCert (m : MbRef) (s : State) : Ans := onMailbox s fun b => b.opCert m
def execCatalog (m : MbRef) (s : State) : Ans := onMailbox s fun b => b.opCatalog m
def execAuditRead (m : MbRef) (s : State) : Ans := onMailbox s fun b => b.opAuditRead m
def execClaim (m : MbRef) (s : State) : Ans := onMailbox s fun b => b.opClaim m
def execEnroll (m : MbRef) (s : State) : Ans := onMailbox s fun b => b.opEnroll m
def execRevoke (m : MbRef) (s : State) : Ans := onMailbox s fun b => b.opRevoke m
def execProfileWrite (m : MbRef) (s : State) : Ans := onMailbox s fun b => b.opProfileWrite m
def execProfileRead (m : MbRef) (s : State) : Ans := onMailbox s fun b => b.opProfileRead m
def execFwApprove (m : MbRef) (sigOk : Bool) (s : State) : Ans := onMailbox s fun b => b.opFwApprove m sigOk
def execSvnCommit (m : MbRef) (s : State) : Ans := onMailbox s fun b => b.opSvnCommit m

/-- FUSE alone writes the fuses (15 R388). -/
def execFuse (m : MbRef) (s : State) : Ans :=
  let b := s.mbox m
  let fits := repairFits (nth s.fuses (fuseTarget b.req) 0) (fuseImage b.req)
  let fs := if s.serves && s.fuseOk m then fuseWrite s.fuses (fuseTarget b.req) (fuseImage b.req) else s.fuses
  onMailbox { s with fuses := fs } fun x => x.opFuse m fits (sha384 (fuseRecord fs))

def execMfgTest (m : MbRef) (s : State) : Ans := onMailbox s fun b => b.opMfgTest m
def execClearQuarantine (m : MbRef) (s : State) : Ans := onMailbox s fun b => b.opClearQuarantine m

def execMailboxGo (i : Fin 2) (v : W64) (s : State) : Ans :=
  onMailbox s fun b => b.mbDoor i (v ||| 1)

def execMailboxNext (i : Fin 2) (v : W64) (s : State) : Ans :=
  onMailbox s fun b => b.mbDoor i (v ||| 2)

def execMailboxAbort (i : Fin 2) (v : W64) (s : State) : Ans :=
  onMailbox s fun b => b.mbDoor i (v ||| 4)

/-- One part on the management port; a refused one is answered with its status (13 R343). -/
def execMgmtPortDatagram (addr : BitVec 128) (port : W16) (part : MbPart) (s : State) : Ans :=
  onMailbox s fun b =>
    let m := MbRef.mgmt addr port
    let x := b.mbox m
    if part.data.length > partMax then b.sendAnswer m stBadDesc []
    else match x.goRefused part.first with
      | some c => b.sendAnswer m c []
      | none => b.mbPart m x part

end Sys2Proof.Machine
end

