-- ==== Sys2Proof/Machine/HostRing.lean ====
section
/-! DEFINITION. The rings: BAR0 register writes, doorbells and fetch, the DMA engine, translation, preemption, link loss and
interface reset (11 R283-R303; 14 R374; 16 R399-R409). -/
namespace Sys2Proof.Machine

/-! ### The command of a descriptor (11 Table 11-5) -/

def specOf (d : Desc) : Option CmdSpec :=
  match d.cls, d.op with
  | 0, 1 => some specTableWrite | 0, 2 => some specTableBulkLoad | 0, 3 => some specTableFlip
  | 1, 1 => some specGroupCreate | 1, 2 => some specGroupExtend | 1, 3 => some (specFence 3 true) | 1, 4 => some (specFence 4 false)
  | 1, 5 => some specGroupDestroy
  | 2, 1 => some specPolicySlot | 2, 2 => some specPolicyOpen | 2, 3 => some specCtxAbort
  | 3, 1 => some specFmemCreate | 3, 2 => some (specFmemMirror (.lost 0)) | 3, 3 => some specFmemDestroy | 3, 4 => some specFmemRestore
  | 3, 5 => some specFmemSave
  | 4, 1 => some specPortMode | 4, 2 => some specPortAdmin | 4, 3 => some specBypass | 4, 4 => some specPrepare | 4, 5 => some specHold
  | 4, 6 => some specRelease
  | 5, 1 => some specSetCap
  | 6, 1 => some specTeleCounters | 6, 2 => some specTeleHwm | 6, 3 => some specTeleStream
  | 7, 1 => some specChallenge | 7, 2 => some (specOpen false) | 7, 3 => some specBind | 7, 4 => some (specElevate false)
  | 7, 5 => some specClose | 7, 6 => some specTakeover | 7, 7 => some specRelease_
  | 8, 1 => some specFwStage | 8, 2 => some (specFwActivate false)
  | 9, 1 => some specDiagRead | 9, 2 => some specRestartDataplane
  | _, _ => none

/-! ### Stopped rings (16 R404, R407) -/

def causeXlate : BitVec 4 := 1
def causeDb : BitVec 4 := 2
def causeOverrun : BitVec 4 := 3
def causeNoCq : BitVec 4 := 4
def causeLink : BitVec 4 := 5

/-- An enabled command ring enters STOPPED. -/
def Body.stopRing (s : Body) (i : Fin 2) (g : Nat) (cause : BitVec 4) : Body :=
  let f := s.ifc i
  let x := f.ring g
  if x.state = .enabled then (s.setIfc i (f.setRing g { x with state := .stopped, cause })).raise i (.cr g) else s

def Iface.sel (f : Iface) : CqSel → CqRing
  | .cq q => f.cq q.val | .evt => f.evt | .tel => f.tel

def Iface.setSel (f : Iface) (c : CqSel) (x : CqRing) : Iface :=
  match c with
  | .cq q => f.setCq q.val x | .evt => { f with evt := x } | .tel => { f with tel := x }

def errOf : CqSel → Err
  | .cq q => .cq q.val | .evt => .evt | .tel => .tel

/-- An enabled module-written ring enters STOPPED; completions due to it are held. -/
def Body.stopSel (s : Body) (i : Fin 2) (c : CqSel) (cause : BitVec 4) : Body :=
  let f := s.ifc i
  let x := f.sel c
  if x.state = .enabled then (s.setIfc i (f.setSel c { x with state := .stopped, cause })).raise i (errOf c) else s

/-- The doorbell area fails: every enabled ring of the interface stops (16 R404). -/
def Body.stopAll (s : Body) (i : Fin 2) : Body :=
  let s := s.raise i .db
  let s := (List.range 64).foldl (fun s g => s.stopRing i g causeDb) s
  let s := (List.finRange 64).foldl (fun s q => s.stopSel i (.cq q) causeDb) s
  (s.stopSel i .evt causeDb).stopSel i .tel causeDb

/-! ### Register writes (16 R399-R405, Tables 16-3 to 16-8) -/

/-- A refused write: REG_REJECT, and its offset and code when the flag was clear (16 R400). -/
def Body.rejectWrite (s : Body) (i : Fin 2) (off : Nat) (code : Nat) : Body :=
  let f := s.ifc i
  let s := if f.regReject then s
    else s.setIfc i { f with rejectCode := BitVec.ofNat 8 code, rejectOffset := BitVec.ofNat 32 off }
  s.raise i .reg

/-- Some ring of the interface has ENABLE set. -/
def Iface.anyEnabled (f : Iface) : Bool :=
  f.rings.any (fun x => x.2.enable) || f.cqs.any (fun x => x.2.enable) || f.evt.enable || f.tel.enable

/-- The command ring's second register: PRIO, LOG2 and ENABLE (16 Tables 16-4, 16-8). -/
def Body.writeRingCtl (s : Body) (i : Fin 2) (off g : Nat) (v : W64) : Body :=
  let f := s.ifc i
  let x := f.ring g
  let en := bit v 63
  let log2 := BitVec.ofNat 5 (fld v 4 0)
  if !within 6 16 log2.toNat then s.rejectWrite i off stBadDesc
  else if x.enable && log2 != x.log2 then s.rejectWrite i off stIllegal
  else
    let x' := { x with prio := BitVec.ofNat 2 (fld v 9 8), log2, enable := en }
    if en && !x.enable then
      let idle : Bool := x.state = .disabled ∨ (x.state = .stopped ∧ x.descs.all fun d => d.st == .queued)
      if !idle || f.dbBase == 0 then s.rejectWrite i off stIllegal
      else s.setIfc i (f.setRing g { x' with state := .enabled, cause := 0, fetch := 0, descs := [] })
    else if !en && x.enable then
      if x.descs.isEmpty then s.setIfc i (f.setRing g { x' with state := .disabled, cause := 0 })
      else s.setIfc i (f.setRing g { x' with state := if x.state = .enabled then .draining else x.state })
    else s.setIfc i (f.setRing g x')

/-- A fetched, uncompleted descriptor of the interface names completion ring q (16 Table 16-8). -/
def Iface.named (f : Iface) (q : Nat) : Bool := f.rings.any fun x => x.2.descs.any fun d => d.cqn == q && d.dest.isNone

def Body.namedCq (s : Body) (i : Fin 2) (q : Nat) : Bool :=
  (s.ifc i).named q
    || [s.hifA, s.hifB].any fun f => f.rings.any fun x => x.2.descs.any fun d => d.dest == some (i, q)

/-- A module-written ring's second register (16 Tables 16-5, 16-8). -/
def Body.writeSelCtl (s : Body) (i : Fin 2) (off : Nat) (c : CqSel) (v : W64) : Body :=
  let f := s.ifc i
  let x := f.sel c
  let en := bit v 63
  let log2 := BitVec.ofNat 5 (fld v 4 0)
  let isCq : Bool := match c with | .cq _ => true | _ => false
  let format := isCq && bit v 8
  let lo := if isCq then 6 else 10
  if !within lo 16 log2.toNat then s.rejectWrite i off stBadDesc
  else if x.enable && (log2 != x.log2 || format != x.format) then s.rejectWrite i off stIllegal
  else
    let x' := { x with log2, format, enable := en }
    if en && !x.enable then
      if x.state ≠ .disabled || f.dbBase == 0 then s.rejectWrite i off stIllegal
      else
        let s := s.setIfc i (f.setSel c { x' with state := .enabled, cause := 0, pi := 0, ci := 0 })
        match c with
        | .cq q => s.drainHeld i q.val x.held.length
        | _ => s
    else if !en && x.enable then
      let barred : Bool := match c with | .cq q => s.namedCq i q.val | _ => false
      if barred then s.rejectWrite i off stIllegal
      else s.setIfc i (f.setSel c { x' with state := .disabled, cause := 0 })
    else s.setIfc i (f.setSel c x')

/-- BASE of a ring: 4 KiB aligned, not while the ring is enabled. -/
def Body.writeBase (s : Body) (i : Fin 2) (off : Nat) (enabled : Bool) (old : BitVec 52) (v : W64) (put_ : BitVec 52 → Iface → Iface) :
    Body :=
  let b := BitVec.ofNat 52 (fld v 63 12)
  if fld v 11 0 ≠ 0 then s.rejectWrite i off stBadDesc
  else if enabled && b != old then s.rejectWrite i off stIllegal
  else s.modIfc i (put_ b)

def Body.writeCmdRing (s : Body) (i : Fin 2) (off : Nat) (v : W64) : Body :=
  let g := (off - 0x10000) / 0x40
  let x := (s.ifc i).ring g
  if g ≥ s.nRings then s.rejectWrite i off stBadDesc
  else match off % 0x40 with
    | 0 => s.writeBase i off x.enable x.base v fun b f => f.setRing g { f.ring g with base := b }
    | 8 => s.writeRingCtl i off g v
    | _ => s

def Body.writeSel (s : Body) (i : Fin 2) (off : Nat) (c : CqSel) (v : W64) : Body :=
  let x := (s.ifc i).sel c
  let gone : Bool := match c with | .cq q => s.nRings ≤ q.val | _ => false
  if gone then s.rejectWrite i off stBadDesc
  else match off % 0x40 with
    | 0 => s.writeBase i off x.enable x.base v fun b f => f.setSel c { f.sel c with base := b }
    | 8 => s.writeSelCtl i off c v
    | _ => s

def Body.writeDbBase (s : Body) (i : Fin 2) (off : Nat) (v : W64) : Body :=
  let f := s.ifc i
  let b := BitVec.ofNat 53 (fld v 63 11)
  if fld v 10 0 ≠ 0 then s.rejectWrite i off stBadDesc
  else if f.anyEnabled && b != f.dbBase then s.rejectWrite i off stIllegal
  else s.setIfc i { f with dbBase := b }

/-- MSI-X table entry; a vector unmasked with its pending bit set is sent (16 R409, PCI Express). -/
def Body.writeMsix (s : Body) (i : Fin 2) (off : Nat) (v : W64) (four : Bool) : Body :=
  let k := (off - 0x20000) / 0x10
  let f := s.ifc i
  let x := mgetD f.msix k {}
  if k ≥ 67 then s
  else
    let lo := fld v 31 0
    let hi := if four then lo else fld v 63 32
    let x' : Msix := match off % 0x10, four with
      | 0, true => { x with addr := setFld x.addr 29 0 (lo / 4) }
      | 0, false => { x with addr := BitVec.ofNat 62 (fld v 63 2) }
      | 4, true => { x with addr := setFld x.addr 61 30 lo }
      | 8, true => { x with data := BitVec.ofNat 32 lo }
      | 8, false => { x with data := BitVec.ofNat 32 lo, mask := hi % 2 == 1 }
      | 12, true => { x with mask := lo % 2 == 1 }
      | _, _ => x
    if x'.pending && !x'.mask then
      (s.setIfc i { f with msix := mset f.msix k { x' with pending := false } }).signal i k
    else s.setIfc i { f with msix := mset f.msix k x' }

/-- Bytes into MB_DATA. -/
def writeData (d : List Byte) (off : Nat) (bs : List Byte) : List Byte :=
  let d := d ++ List.replicate (off + bs.length - d.length) 0
  d.take off ++ bs ++ d.drop (off + bs.length)

def Body.writeMailbox (s : Body) (i : Fin 2) (off : Nat) (v : W64) (four : Bool) : Body :=
  let o := off - 0x30000
  let m := (s.ifc i).mailbox
  if o ≥ 0x100 then
    s.modIfc i fun f => { f with mailbox := { m with data := writeData m.data (o - 0x100) (leBytes (if four then 4 else 8) v.toNat) } }
  else match o with
    | 0 =>
      if fld v 11 0 > partMax then s.rejectWrite i off stBadDesc
      else s.modIfc i fun f => { f with mailbox := { m with
        session := BitVec.ofNat 32 (fld v 63 32), op := BitVec.ofNat 8 (fld v 31 24), first := bit v 23, last := bit v 22
        partLen := BitVec.ofNat 12 (fld v 11 0) } }
    | 8 => s.mbDoor i v
    | _ => s

/-- Interface control (16 Table 16-3). -/
def Body.writeControl (s : Body) (i : Fin 2) (off : Nat) (v : W64) : Body :=
  let f := s.ifc i
  match off with
  | 0x1008 =>
    if within 250 100000 (fld v 16 0) then s.setIfc i { f with pollT := BitVec.ofNat 17 (fld v 16 0) } else s.rejectWrite i off stBadDesc
  | 0x1010 =>
    if within 1 10000 (fld v 13 0) then s.setIfc i { f with priTimeout := BitVec.ofNat 14 (fld v 13 0) }
    else s.rejectWrite i off stBadDesc
  | 0x1018 => s.setIfc i { f with regReject := f.regReject && !bit v 5, telError := f.telError && !bit v 4
                                  evtError := f.evtError && !bit v 3, dbError := f.dbError && !bit v 2 }
  | 0x1020 => s.setIfc i { f with crError := f.crError &&& ~~~v }
  | 0x1028 => s.setIfc i { f with cqError := f.cqError &&& ~~~v }
  | 0x1030 => s.setIfc i { f with errMask := BitVec.ofNat 6 (fld v 5 0) }
  | _ => s

/-- Where a 4-byte write is accepted (16 R399). -/
def fourOk (off : Nat) : Bool := (0x20000 ≤ off && off < 0x20000 + 0x10 * 67) || (0x30100 ≤ off && off < 0x31000)

/-- A BAR0 write. Before P5 it is ignored; an access that is not aligned is not accepted (16 R399-R401; 15 R397). -/
def Body.regWrite (s : Body) (i : Fin 2) (off : Nat) (v : W64) (four : Bool) : Body :=
  if !s.serves || !(s.ifc i).linkUp || off % (if four then 4 else 8) != 0 then s
  else if four && !fourOk off then s.rejectWrite i off stBadDesc
  else if off < 0x1000 then s
  else if off < 0x2000 then s.writeControl i off v
  else if off < 0x10000 then s
  else if off < 0x11000 then s.writeCmdRing i off v
  else if off < 0x12000 then s.writeSel i off (.cq (ringFin ((off - 0x11000) / 0x40))) v
  else if off < 0x12040 then s.writeSel i off .evt v
  else if off < 0x12080 then s.writeSel i off .tel v
  else if off = 0x13000 then s.writeDbBase i off v
  else if 0x20000 ≤ off ∧ off < 0x24000 then s.writeMsix i off v four
  else if 0x30000 ≤ off ∧ off < 0x31000 then s.writeMailbox i off v four
  else s

/-! ### Doorbells and fetch (11 R286-R290) -/

/-- Fetch one descriptor; the ring stops NO_CQ at one whose completion ring is not enabled (16 R407). -/
def Body.fetchOne (s : Body) (i : Fin 2) (g : Fin 64) (w : BitVec 512) : Body :=
  let f := s.ifc i
  let x := f.ring g.val
  let d : Desc := { idx := x.fetch, w }
  if x.state ≠ .enabled then s
  else if d.cqn ≥ s.nRings ∨ (f.cq d.cqn).state ≠ .enabled then s.stopRing i g.val causeNoCq
  else s.setIfc i (f.setRing g.val { x with fetch := x.fetch + 1, descs := x.descs ++ [d] })

/-- Index of the oldest descriptor without a completion (11 R287). -/
def CmdRing.oldest (x : CmdRing) : W32 := match x.descs with | d :: _ => d.idx | [] => x.fetch

/-- CMD_PI of a ring has been read: overrun, or fetch up to it. -/
def Body.readPi (s : Body) (i : Fin 2) (v : DbView) (g : Fin 64) (pi : W32) : Body :=
  let x := (s.ifc i).ring g.val
  if x.state ≠ .enabled ∨ g.val ≥ s.nRings then s
  else if v.ringFail.contains g then s.stopRing i g.val causeXlate
  else if (pi - x.oldest).toNat > 2 ^ x.log2.toNat then s.stopRing i g.val causeOverrun
  else
    let ws := match v.descs.find? fun y => y.1 == g with | some y => y.2 | none => []
    let s := (ws.take (pi - x.fetch).toNat).foldl (fun s w => s.fetchOne i g w) s
    s.settle ⟨i, g, 0⟩

/-- The module reads doorbells: the area is set up, its link is up, rings are served. -/
def Body.readsDoorbells (s : Body) (i : Fin 2) : Bool := s.ringsRun && (s.ifc i).linkUp && (s.ifc i).dbBase != 0

/-- A nudge: CMD_PI of one ring or of all (11 R289). -/
def Body.nudge (s : Body) (i : Fin 2) (off : Nat) (v : DbView) : Body :=
  if !s.readsDoorbells i then s
  else if v.areaFail && (off == 0x200 || (off % 8 == 0 && off < 0x200)) then s.stopAll i
  else if off = 0x200 then v.pi.foldl (fun s x => s.readPi i v x.1 x.2) s
  else if off % 8 = 0 ∧ off < 0x200 then
    (v.pi.filter fun x => x.1.val == off / 8).foldl (fun s x => s.readPi i v x.1 x.2) s
  else s

/-- New consumer indices, and held completions where space has appeared (11 R288). -/
def Body.takeCis (s : Body) (i : Fin 2) (v : DbView) : Body :=
  let s := s.modIfc i fun f => { f with
    evt := match v.evtCi with | some c => { f.evt with ci := c } | none => f.evt
    tel := match v.telCi with | some c => { f.tel with ci := c } | none => f.tel }
  v.cplCi.foldl (fun s x =>
    let s := s.modIfc i fun f => f.setCq x.1.val { f.cq x.1.val with ci := x.2 }
    s.drainHeld i x.1.val ((s.ifc i).cq x.1.val).held.length) s

/-- Vectors 64 and 65, at most once a poll (16 R408). -/
def Body.signalOwed (s : Body) (i : Fin 2) : Body :=
  let f := s.ifc i
  let s := s.setIfc i { f with evtOwed := false, telOwed := false }
  let s := if f.evtOwed then s.signal i 64 else s
  if f.telOwed then s.signal i 65 else s

/-- A poll of the doorbell area. -/
def Body.poll (s : Body) (i : Fin 2) (v : DbView) : Body :=
  if !s.readsDoorbells i then s
  else if v.areaFail then s.stopAll i
  else
    let s := v.cqFail.foldl (fun s c => s.stopSel i c causeXlate) s
    let s := s.takeCis i v
    let s := v.ringFail.foldl (fun s g => s.stopRing i g.val causeXlate) s
    let s := v.pi.foldl (fun s x => s.readPi i v x.1 x.2) s
    s.signalOwed i

/-! ### The command DMA engine (11 R296-R299) -/

/-- A descriptor that needs the engine, or waits to have it back. -/
def Body.readyToMove (s : Body) (r : CmdRef) (d : Desc) : Bool :=
  match d.st with
  | .ready | .preempted => true
  | .queued => s.startable r && (match specOf d with | some sp => sp.needsEngine d | none => false)
  | _ => false

/-- Highest priority of a ring that has a descriptor ready for the engine. -/
def Body.readyPrio (s : Body) (i : Fin 2) : Option Nat :=
  let f := s.ifc i
  best (fun a b => b < a) ((f.rings.filter fun x =>
    x.2.descs.any fun d => s.readyToMove ⟨i, ringFin x.1, d.idx⟩ d).map fun x => x.2.prio.toNat)

/-- At a unit end: a ready descriptor of higher priority preempts the running one (11 R298). -/
def Body.preempt (s : Body) (i : Fin 2) : Body :=
  match (s.ifc i).running with
  | none => s
  | some r =>
    match s.desc r, s.readyPrio i with
    | some d, some p => if (s.ringOf r).prio.toNat < p then (s.putDesc r { d with st := .preempted }).setEngine i none else s
    | _, _ => s

/-- The descriptor that the free engine takes next among those READY or PREEMPTED: highest priority, a preempted one first, then
ring after ring from the last. -/
def Body.engineNext (s : Body) (i : Fin 2) : Option CmdRef :=
  let f := s.ifc i
  let cs := f.rings.flatMap fun x => (x.2.descs.filter fun d => d.st == .ready || d.st == .preempted).map fun d =>
    ((3 - x.2.prio.toNat) * 256 + (if d.st = .preempted then 0 else 128) + (x.1 + 63 - f.lastRing) % 64, (⟨i, ringFin x.1, d.idx⟩ : CmdRef))
  (best (fun (a b : Nat × CmdRef) => a.1 < b.1) cs).map (·.2)

/-- The engine takes up a descriptor whose turn it is; the next unit is translated afresh (11 R298, R299). -/
def Body.resume (s : Body) (r : CmdRef) : Body :=
  match s.desc r with
  | none => s
  | some d =>
    if (s.ifc r.iface).running.isSome || s.engineNext r.iface != some r
        || (s.readyPrio r.iface).any (fun p => (s.ringOf r).prio.toNat < p) then s
    else
      let s := (s.putDesc r { d with st := .running }).setEngine r.iface (some r)
      let page := s.nextIova d / 4096
      if (s.ifc r.iface).tcache.contains page then s else s.putOut (.atsRequest r.iface page)

/-- At most 8,192 translations are kept (11 R296). -/
def Iface.cachePage (f : Iface) (p : Nat) : Iface :=
  let l := (f.tcache.filter (· != p)) ++ [p]
  { f with tcache := l.drop (l.length - 8192) }

/-- One unit of host data has moved for the running descriptor. -/
def Body.dmaUnit (s : Body) (i : Fin 2) (data : List Byte) : Body :=
  match (s.ifc i).running with
  | none => s
  | some r =>
    match s.desc r with
    | none => s
    | some d =>
      match specOf d with
      | none => s
      | some sp =>
        let n := s.unitBytes d
        let s := s.modIfc i fun f => f.cachePage (s.nextIova d / 4096)
        let d := { d with retried := false }
        (((((s.putDesc r d).advance sp r d (data.take n) 1 false).settle r).wakeAll).preempt i).invEnd i

/-- Page requests go out for the first 256 parked descriptors (11 R297). -/
def Body.sendPageReqs (s : Body) (i : Fin 2) : Body :=
  ((s.ifc i).pageReqs.take 256).foldl (fun s r =>
    match s.desc r with
    | some d => if d.reqSent then s else (s.putDesc r { d with reqSent := true }).putOut (.pageRequest i d.page)
    | none => s) s

/-- A translation is missing for the running descriptor (11 R297). -/
def Body.translationFails (s : Body) (r : CmdRef) (d : Desc) (page : Nat) : Body :=
  if !(s.ifc r.iface).priEnabled || d.retried then s.breakOff r stFaulted
  else
    let s := (s.putDesc r { d with st := .parked, page, reqSent := false }).setEngine r.iface none
    (s.modIfc r.iface fun f => { f with pageReqs := f.pageReqs ++ [r] }).sendPageReqs r.iface

/-- An ATS Translation Completion (11 R296, R297). -/
def Body.ats (s : Body) (i : Fin 2) (page : Nat) (granted : Bool) : Body :=
  if granted then s.modIfc i fun f => f.cachePage page
  else match (s.ifc i).running with
    | none => s
    | some r => match s.desc r with
      | some d => if s.nextIova d / 4096 = page then (s.translationFails r d page).wakeAll else s
      | none => s

/-- A response to a page request. -/
def Body.pageAnswer (s : Body) (r : CmdRef) (a : PriAnswer) : Body :=
  match s.desc r with
  | none => s
  | some d =>
    if d.st ≠ .parked || !d.reqSent then s
    else match a with
      | .success =>
        let s := s.putDesc r { d with st := .ready, retried := true, reqSent := false }
        (s.modIfc r.iface fun f => { f with pageReqs := f.pageReqs.filter (· != r) }).sendPageReqs r.iface
      | _ => (s.breakOff r stFaulted).sendPageReqs r.iface

def Body.pageTimeout (s : Body) (r : CmdRef) : Body :=
  match s.desc r with
  | none => s
  | some d => if d.st ≠ .parked || !d.reqSent then s else (s.breakOff r stTimeout).sendPageReqs r.iface

/-- The running descriptor's unit is in transfer under a translation of these pages. -/
def Body.inTransfer (s : Body) (i : Fin 2) (pages : List Nat) : Bool :=
  match (s.ifc i).running with
  | none => false
  | some r => match s.desc r with
    | some d => pages.contains (s.nextIova d / 4096) && (s.ifc i).tcache.contains (s.nextIova d / 4096)
    | none => false

/-- An invalidation drops entries, and is completed once no transfer uses them (11 R296). -/
def Body.invalidate (s : Body) (i : Fin 2) (pages : List Nat) : Body :=
  let f := s.ifc i
  let t := s.setIfc i { f with tcache := f.tcache.filter fun p => !pages.contains p }
  if s.inTransfer i pages then t.modIfc i fun f => { f with invHeld := f.invHeld + 1 } else t.putOut (.invDone i)

/-! ### Links and resets of an interface (14 R374; 16 R401, R407) -/

/-- The link goes down: every enabled command ring stops with LINK_LOST. -/
def Body.linkDown (s : Body) (i : Fin 2) : Body :=
  let s := s.modIfc i fun f => { f with linkUp := false, tcache := [], invHeld := 0 }
  if s.serves then (List.range 64).foldl (fun s g => s.stopRing i g causeLink) s else s

/-- A ring after the reset: its registers at their reset values, started descriptors mute, its queue left for a takeover. -/
def CmdRing.afterReset (x : CmdRing) : CmdRing :=
  let ds := x.descs.map fun (d : Desc) => if d.st = .queued then d else { d with mute := true }
  { descs := ds, state := if ds.isEmpty then .disabled else .stopped, cause := if ds.isEmpty then 0 else causeLink }

/-- BAR0 fields marked [I] return to their reset values (16 R401). -/
def Iface.afterReset (f : Iface) : Iface :=
  { rings := f.rings.map fun x => (x.1, x.2.afterReset), priEnabled := f.priEnabled, running := f.running, lastRing := f.lastRing
    evtSeq := f.evtSeq, stream := f.stream, failures := f.failures, lockout := f.lockout }

/-- Interface reset: parked descriptors end FAULTED, and so does one whose transfer the reset cuts (14 R374). -/
def Body.resetIfc (s : Body) (i : Fin 2) : Body :=
  let s := s.linkDown i
  let s := s.modIfc i fun f => f.afterReset
  let halted := (s.ifc i).rings.flatMap fun x => (x.2.descs.filter fun d =>
    d.st == .parked || d.st == .ready || d.st == .preempted || d.st == .running).map fun d => (⟨i, ringFin x.1, d.idx⟩ : CmdRef)
  (halted.foldl (fun s r => s.breakOff r stFaulted) s).wakeAll

/-- The states in which the host links can be up: the IOD is out of reset (14 Table 14-3). -/
def PowerState.iodUp : PowerState → Bool
  | .bringup | .operational | .inReset | .removing | .ready | .stopped => true
  | _ => false

/-- They come up from P1 on, while the IOD runs (06 Table 6-7, 15 Table 15-6). -/
def Power.linksUp (p : Power) : Bool := p.state.iodUp && !p.iodStopped && (p.state != .bringup || p.phase ≥ 1)

/-! ### The commands -/

/-- Offset of a command ring's ENABLE register. -/
def ringCtl (r : Fin 64) : Nat := 0x10008 + 0x40 * r.val

def selCtl : CqSel → Nat
  | .cq q => 0x11008 + 0x40 * q.val | .evt => 0x12008 | .tel => 0x12048

def withBit63 (v : W64) (b : Bool) : W64 := setFld v 63 63 b.toNat

def execCommandRingEnable (i : Fin 2) (r : Fin 64) (v : W64) (s : State) : Ans :=
  onBody s fun b => b.regWrite i (ringCtl r) (withBit63 v true) false

def execCommandRingDisable (i : Fin 2) (r : Fin 64) (v : W64) (s : State) : Ans :=
  onBody s fun b => b.regWrite i (ringCtl r) (withBit63 v false) false

def execCompletionRingEnable (i : Fin 2) (c : CqSel) (v : W64) (s : State) : Ans :=
  onBody s fun b => b.regWrite i (selCtl c) (withBit63 v true) false

def execCompletionRingDisable (i : Fin 2) (q : Fin 64) (v : W64) (s : State) : Ans :=
  onBody s fun b => b.regWrite i (selCtl (.cq q)) (withBit63 v false) false

def execEventRingDisable (i : Fin 2) (tel : Bool) (v : W64) (s : State) : Ans :=
  onBody s fun b => b.regWrite i (selCtl (if tel then .tel else .evt)) (withBit63 v false) false

def execRegisterWrite (i : Fin 2) (off : BitVec 26) (v : W64) (four : Bool) (s : State) : Ans :=
  onBody s fun b => b.regWrite i off.toNat v four

def execNudge (i : Fin 2) (off : BitVec 12) (view : DbView) (s : State) : Ans := onBody s fun b => b.nudge i off.toNat view

def execDoorbellPoll (i : Fin 2) (view : DbView) (s : State) : Ans := onBody s fun b => b.poll i view

/-- Engine and translation events reach an interface whose rings are served. -/
def onEngine (s : State) (i : Fin 2) (f : Body → Body) : Ans := onBody s fun b => if b.ringsRun && (b.ifc i).linkUp then f b else b

def execDescriptorPreempt (i : Fin 2) (s : State) : Ans := onEngine s i fun b => b.preempt i

def execDescriptorResume (r : CmdRef) (s : State) : Ans := onEngine s r.iface fun b => b.resume r

def execDmaUnitComplete (i : Fin 2) (data : List Byte) (s : State) : Ans := onEngine s i fun b => b.dmaUnit i data

def execAtsTranslationComplete (i : Fin 2) (page : Nat) (granted : Bool) (s : State) : Ans := onEngine s i fun b => b.ats i page granted

def execPageRequestResponse (r : CmdRef) (a : PriAnswer) (s : State) : Ans :=
  onEngine s r.iface fun b => (b.pageAnswer r a).wakeAll

def execPriTimeout (r : CmdRef) (s : State) : Ans := onEngine s r.iface fun b => (b.pageTimeout r).wakeAll

def execInvalidation (i : Fin 2) (pages : List Nat) (s : State) : Ans :=
  onBody s fun b => if (b.ifc i).linkUp then b.invalidate i pages else b

def execInterfaceReset (i : Fin 2) (s : State) : Ans := onBody s fun b => if b.power.state.iodUp then b.resetIfc i else b

def execHifLinkLost (i : Fin 2) (s : State) : Ans := onBody s fun b => if (b.ifc i).linkUp then b.linkDown i else b

def execHifLinkUp (i : Fin 2) (s : State) : Ans :=
  onBody s fun b => if b.power.linksUp then (b.modIfc i fun f => { f with linkUp := true }).drainIfc i else b

end Sys2Proof.Machine
end

