-- ==== Sys2Proof/Machine/Time.lean ====
section
/-! DEFINITION. Hall time: candidates, parent, servo, IEEE 1588, PPS (02 R66, R67; 13 R361-R364; 17 R424). -/
namespace Sys2Proof.Machine

/-- Number of the management port among the sources (13 Table 13-9). -/
abbrev mgmtSource : Nat := 0xFFFF

/-- The hall-time unit takes samples: ports are lit, and the management plane runs (01 Table 1-5). -/
def Body.timed (s : Body) : Bool := (s.serves || s.linksRun) && !s.planes.mgmtRestart

/-! ### Candidates and parent (13 R362) -/

/-- A source offers a DIST, or none; one above MAX_DIST is not used. The parent's DIST is the module's own. -/
def Body.offer (s : Body) (p : Nat) (dist : Option Nat) : Body :=
  let c := s.clock
  match dist.filter fun d => d ≤ s.profiles.inForce.maxDist with
  | none => { s with clock := { c with cands := mdel c.cands p } }
  | some d =>
    { s with clock := { c with cands := mset c.cands p d, dist := if c.parent = some p then BitVec.ofNat 8 d else c.dist } }

/-- Ties go to the management port, then to the lowest port number. -/
def sourceRank (p : Nat) : Nat := if p = mgmtSource then 0 else p + 1

def Clock.best (c : Clock) : Option (Nat × Nat) :=
  Machine.best (fun (a b : Nat × Nat) => a.2 < b.2 || (a.2 == b.2 && sourceRank a.1 < sourceRank b.1)) c.cands

/-- The parent still offers its time. -/
def Clock.held (c : Clock) : Bool := match c.parent with | some p => (mget c.cands p).isSome | none => false

/-- The module loses its parent: it holds frequency. -/
def Clock.lose (c : Clock) : Clock :=
  { c with parent := none, dist := 255, state := if c.state = .locked then .holdover else c.state, offset := 0, settled := none }

/-- Follow a source. -/
def Clock.follow (c : Clock) (p d : Nat) : Clock :=
  { c with parent := some p, dist := BitVec.ofNat 8 d, offset := 0, settled := none }

/-- Change parent: the best candidate when the parent is lost, or one of lower DIST. -/
def Body.changeParent (s : Body) : Body :=
  let c := s.clock
  match c.best with
  | none => if c.parent.isNone then s else ({ s with clock := c.lose } : Body).timeEvent
  | some (p, d) =>
    if c.held then (if d < c.dist.toNat then ({ s with clock := c.follow p d } : Body).timeEvent else s)
    else ({ s with clock := c.lose.follow p d } : Body).timeEvent

/-! ### The servo (13 R363; entry 49) -/

/-- Set the time directly, at the first lock after bring-up. -/
def Clock.jump (c : Clock) (offset : Int) : Clock :=
  let t : Nat := ((c.ns.toNat * 65536 + c.frac.toNat : Nat) + offset).toNat
  { c with ns := BitVec.ofNat 64 (t / 65536), frac := BitVec.ofNat 16 (t % 65536), firstLock := true, offset := 0, settled := none }

/-- One filtered offset: LOCKED when it has stayed within 5 ns for 1 s. -/
def Clock.filter (c : Clock) (offset : Int) : Clock :=
  let f := Config.servoFilter c.offset offset
  let now := c.ns.toNat
  if -5 * 65536 ≤ f ∧ f ≤ 5 * 65536 then
    let t := c.settled.getD now
    { c with offset := f, settled := some t, state := if t + 1000000000 ≤ now then .locked else c.state }
  else { c with offset := f, settled := none }

/-- An offset from the parent, in 2^-16 ns. -/
def Body.servo (s : Body) (offset : Int) : Body :=
  let c := if s.clock.firstLock then s.clock.filter offset else s.clock.jump offset
  let t : Body := { s with clock := c }
  if c.state = s.clock.state then t else t.timeEvent

/-- A sample from a source is used when the module follows it. -/
def Body.sampleFrom (s : Body) (p : Nat) (offset : Int) : Body :=
  if s.clock.parent = some p ∧ s.clock.held then s.servo offset else s

/-! ### TIME_RESP (02 R66, R67) -/

/-- A time stamp in 2^-16 ns. -/
def stamp (ns : W64) (f : Nat) : Int := (ns.toNat * 65536 + f : Nat)

/-- What the far end offers: a LOCKED spine module's DIST and one. -/
def offered (x : LPort) (w4 : Nat) : Option Nat :=
  if x.state = .up ∧ !isGroupAddr x.peerId ∧ adPod x.peerId = 511 ∧ w4 / 16 % 16 = 1 then some (w4 / 256 % 256 + 1) else none

/-- No replay touched the exchange. -/
def LPort.clean (x : LPort) : Bool := x.retry.isNone && !x.replaying && !x.badGroup

/-- A response to the outstanding exchange; one that comes later than 10 µs, or for another, is discarded. -/
def Body.timeRespIn (s : Body) (l : Nat) (w : List W64) (t4 : W64) (f4 : W16) : Body :=
  let x := s.lp l
  match x.timeOut with
  | none => s
  | some (id, t1, f1) =>
    if s.isGateway (physOf l) || x.state != .up || fld (nth w 0 0) 55 48 != id.toNat then s
    else
      let s := s.setLp l { x with timeOut := none }
      let w4 := nth w 4 0
      let a1 := stamp t1 (fracOf x f1)
      let a2 := stamp (nth w 2 0) (if x.minor = 2 then fld w4 47 32 else 0)
      let a3 := stamp (nth w 3 0) (if x.minor = 2 then fld w4 31 16 else 0)
      let a4 := stamp t4 (fracOf x f4)
      if a4 - a1 > 10000 * 65536 then s
      else
        let s := s.offer l (offered x (fld w4 15 0))
        if (a4 - a1) - (a3 - a2) < 2 * 2000 * 65536 ∧ x.clean then s.sampleFrom l (((a2 - a1) - (a4 - a3)) / 2) else s

/-! ### IEEE 1588 (13 R364) -/

/-- clockClass that a master port announces. -/
def clockClass : ClkState → Nat
  | .locked => 6 | .holdover => 7 | .free => 248

/-- The gateway port may be a slave (16 Table 16-11). -/
def Body.slaveCapable (s : Body) (l : Nat) : Bool :=
  s.isGateway (physOf l) && (s.lp l).state == .up && bit (mgetD s.profiles.inForce.portMap (physOf l) 0) 17

/-- A message: the port's state under IEEE 1588, an offset when it completes one; a master port announces (entry 50). -/
def Body.ptpIn (s : Body) (p : Nat) (port : Option Nat) (may : Bool) (domain : Nat) (slave : Bool) (offset : Option Int) : Body :=
  if domain ≠ s.profiles.inForce.ptpDomain then s
  else
    let s := s.offer p (if slave && may then some 1 else none)
    let s := match offset with | some o => s.sampleFrom p o | none => s
    if slave then s else s.putOut (.ptp port (clockClass s.clock.state))

/-! ### The commands -/

def execTimeResp (l : Fin 2048) (w : List W64) (t4 : W64) (f4 : W16) (s : State) : Ans :=
  onLink s l.val fun b => if b.timed then b.timeRespIn l.val w t4 f4 else b

def execParentChange (s : State) : Ans := onBody s fun b => if b.timed then b.changeParent else b

/-- HOLDOVER_LIMIT has passed: FREE (13 R363). -/
def execHoldoverExpiry (s : State) : Ans := onBody s fun b =>
  if b.clock.state = .holdover then ({ b with clock := { b.clock with state := .free } } : Body).timeEvent else b

def execPtpMessage (port : Option (Fin 2048)) (domain : Byte) (slave : Bool) (offset : Option Int) (s : State) : Ans :=
  match port with
  | none => onBody s fun b => if b.timed then b.ptpIn mgmtSource none true domain.toNat slave offset else b
  | some l => onLink s l.val fun b =>
    if b.timed && b.isGateway (physOf l.val) then b.ptpIn l.val (some l.val) (b.slaveCapable l.val) domain.toNat slave offset else b

/-- A whole second: a pulse while LOCKED or HOLDOVER (17 Table 17-8). -/
def execPpsPulse (s : State) : Ans := onBody s fun b =>
  match b.clock.state with
  | .free => b
  | _ => b.putOut .pps

end Sys2Proof.Machine
end

