-- ==== Sys2Proof/Machine/Power.lean ====
section
/-! DEFINITION. The feed, the pins, resets, the sag, removal, the end of a plane restart (01 R17; 14 R366-R385; 17 R424, R425). -/
namespace Sys2Proof.Machine

def Body.setPower (s : Body) (f : Power → Power) : Body := { s with power := f s.power }

/-- A change of state that the Lantern page shows. -/
def Body.enter (s : Body) (st : PowerState) : Body := (s.setPower fun p => { p with state := st }).lanternPut id

/-! ### Without power (14 R372, R385) -/

/-- Every regulator is off: what a power cycle keeps is left, and the pins and the controller stay as they are. -/
def Body.powerOff (s : Body) : Body :=
  let p := s.power
  { s.powerCycled with
    power := { state := .unpowered, inputMv := p.inputMv, fetOn := false, ocOpened := p.ocOpened, fetLatched := p.fetLatched
               fetWait := p.fetWait, present := p.present } }

/-- The controller charges the bank. -/
def Body.precharge (s : Body) (mv : Nat) : Body :=
  s.setPower fun p => { p with state := .precharge, inputMv := mv, fetWait := .none, fetLatched := false }

/-- PRESENT# has been asserted for 50 ms (14 R375). -/
def Body.debounced (s : Body) (mv : Nat) : Body :=
  let s := s.setPower fun p => { p with present := true }
  if s.power.state = .unpowered ∧ !s.power.fetLatched ∧ s.power.fetWait = .none ∧ 41000 ≤ mv then s.precharge mv else s

/-- Power good: P0, with every field at its reset value (00 R11; 14 R367). -/
def Body.powerGood (s : Body) : Body :=
  if s.power.state ≠ .precharge then s
  else s.setPower fun p => { p with state := .bringup, phase := 0, fetOn := true, lowLine := p.inputMv < 43000 }

/-! ### The supply sag (14 R379-R383) -/

/-- The IOD has power, and no save runs. -/
def PowerState.saves : PowerState → Bool
  | .bringup | .operational | .inReset | .removing | .ready | .stopped => true
  | _ => false

/-- The sag response: launches cut short, light and host links gone, the fallback map applied; then the save. -/
def Body.sag (s : Body) : Body :=
  if s.power.state.saves then
    let s := s.cutLaunches.goDark.dropActivation
    let s := { s with hifA := s.hifA.dropped, hifB := s.hifB.dropped }
    (s.setPower fun p => { p with state := .saving, removeCmd := none, draining := false }).applyFallback
  else if s.power.state = .precharge then s.setPower fun p => { p with state := .unpowered }
  else s

/-- The counters exist from P4, where they are restored, until a reset loses them. -/
def Body.counting (s : Body) : Bool := s.power.phase ≥ 4

/-- Items of Table 14-7 that the model keeps apart from MRAM: 2 event log, 3 context journal, 4 counters. -/
def Body.saveItem (s : Body) (n : Nat) : Body :=
  match n with
  | 2 =>
    let l := s.mram.eventLog ++ s.evlog
    { s with mram := { s.mram with eventLog := l.drop (l.length - 8192) } }
  | 3 => s.journal
  | 4 => if s.counting then { s with mram := { s.mram with counterSnapshot := some s.counters } } else s
  | _ => s

def Body.saveItems (s : Body) (n : Nat) : Body := (List.range n).foldl (fun s k => s.saveItem (k + 1)) s

/-- SAVE_COMPLETE is written and the regulators are off (14 R381). -/
def Body.saved (s : Body) : Body :=
  if s.power.state ≠ .saving then s
  else
    let s := s.saveItems 5
    ({ s with mram := { s.mram with saveComplete := true, saveTime := s.clock.ns } } : Body).powerOff

/-- The bank runs down first: how many items are in MRAM is not known (14 Table 14-8; entry 51). -/
def Body.exhausted (s : Body) : Body :=
  if s.power.state ≠ .saving then s
  else
    let n := (Config.unstated (8000000 + s.free)).toNat % 6
    let s := ({ s with free := s.free + 1 } : Body).saveItems n
    ({ s with mram := { s.mram with saveComplete := false, gapOwed := true } } : Body).powerOff

/-- The input has held at or above 41 V for 100 ms (14 R384); `gone` when the feed had been absent for 1 s (14 R368). -/
def Body.sagRestart (s : Body) (mv : Nat) (gone : Bool) : Body :=
  let p := s.power
  let s := if gone then s.setPower fun p => { p with fetLatched := false, ocOpened := false } else s
  if p.state = .unpowered ∧ p.present ∧ 41000 ≤ mv ∧ (gone ∨ (!p.fetLatched ∧ p.fetWait = .none)) then s.precharge mv else s

/-! ### The hot-swap controller (14 R367, R368) -/

/-- The FET opens: the sag response starts at once. -/
def Body.fetOpens (s : Body) (w : FetWait) : Body :=
  if s.power.state = .unpowered then s else (s.setPower fun p => { p with fetOn := false, fetWait := w }).sag

/-- An overcurrent opening; `again` when it comes within 60 s of the last. -/
def Body.overcurrent (s : Body) (again : Bool) : Body :=
  if s.power.state = .unpowered then s
  else (s.setPower fun p => { p with fetLatched := p.ocOpened && again, ocOpened := true }).fetOpens .overcurrent

/-- The controller restarts through the insertion sequence; after an overvoltage, within the operating range. -/
def Body.controllerRestart (s : Body) (mv : Nat) : Body :=
  let p := s.power
  if p.state = .unpowered ∧ p.present ∧ !p.fetLatched ∧ p.fetWait ≠ .none ∧ 41000 ≤ mv
      ∧ (p.fetWait ≠ .overvoltage ∨ mv ≤ 60000) then s.precharge mv else s

/-- The sag threshold and LOW_LINE (14 R367). -/
def Body.setLowLine (s : Body) (on : Bool) : Body :=
  if s.power.state.saves ∧ s.power.lowLine ≠ on then (s.setPower fun p => { p with lowLine := on }).lanternPut id else s

/-- PRESENT# breaks (14 R375, R378; 17 R425). -/
def Body.presentBreak (s : Body) : Body :=
  let s := s.setPower fun p => { p with present := false, fetLatched := false, ocOpened := false, fetWait := .none }
  match s.power.state with
  | .ready => s.powerOff
  | .saving | .unpowered => s
  | _ => s.sag

/-! ### MODULE_RESET# and PP_CONTACT# (14 R373; 17 R424, R425) -/

/-- The states in which MODULE_RESET# resets the module. -/
def Power.resets (p : Power) : Bool :=
  match p.state with
  | .bringup | .operational | .removing | .ready => true
  | .stopped => !p.thermalStop
  | _ => false

/-- MODULE_RESET# has been low for 10 µs. -/
def Body.moduleReset (s : Body) : Body :=
  if s.power.resets then
    (s.cutLaunches.goDark.dropActivation.moduleCleared.setPower fun p =>
      { p with resetLow := true, removeCmd := none, draining := false, refallen := false, thermalStop := false, iodStopped := false }).enter .inReset
  else s

/-- It is released: bring-up runs from P1. -/
def Body.resetReleased (s : Body) : Body :=
  let s := s.setPower fun p => { p with resetLow := false }
  if s.power.state = .inReset then (s.setPower fun p => { p with phase := 1 }).enter .bringup else s

/-- Tray signals have an effect from P0 on. -/
def Body.sensed (s : Body) : Bool := s.power.state != .unpowered && s.power.state != .precharge

def Body.contact (s : Body) (on : Bool) : Body :=
  if !s.sensed then s
  else
    let s := s.setPower fun p => { p with ppContact := on }
    if on then s else s.endSessions fun x => x.role == .maker

/-! ### Removal (14 R377) -/

/-- Mirrored windows whose mirror writes have all been sent. -/
def Body.drainable (s : Body) : Bool := s.power.state == .removing && s.coll.ctxs.isEmpty && s.mss.later.isEmpty

/-- Copies of a pair are DETACHED (entry 52). -/
def Body.detachAll (s : Body) : Body :=
  (s.mss.windows.filter fun w => w.2.state == .primary || w.2.state == .secondary).foldl (fun s w =>
    (s.setWin w.1 { w.2 with state := .detached, soloAsked := false }).auditWindow w.1) s

/-- Every port drains. -/
def Body.removalDrain (s : Body) : Body :=
  if s.drainable then
    let s := s.detachAll.setPower fun p => { p with draining := true }
    (s.lports.map fun x => x.1).foldl (fun s l => s.drainOrDark l .remove) s
  else s

/-- Nothing is left to drain. -/
def Body.removable (s : Body) : Bool :=
  s.drainable && s.power.draining && s.mss.windows.all (fun w => w.2.state == .detached)
    && s.lports.all fun x => x.2.state == .disabled || x.2.state == .circuit

/-- Lasers off. -/
def Body.lasersOff (s : Body) : Body := { s with carts := s.carts.map fun (x : Nat × Cart) => (x.1, x.2.off) }

/-- READY: the event, the indicator, the completion. -/
def Body.ready (s : Body) : Body :=
  if s.removable then
    let s := s.journal.lasersOff.emit 0x204 [0]
    let s := match s.power.removeCmd with | some r => s.completeRef r 0 0 0 | none => s
    (s.setPower fun p => { p with removeCmd := none, draining := false }).enter .ready
  else s

/-! ### The end of a plane restart (01 Table 1-5) -/

/-- One item that has waited for the control plane. -/
def Body.runItem (s : Body) (x : CtlItem) : Body :=
  match x with
  | .cmd r => match s.desc r with
    | none => s
    | some d => match specOf d with
      | none => s
      | some sp => s.goOn sp r
  | .frame fid => ((s.runReq fid).runAns fid).runRel fid
  | .window k => s.windowExpiry k
  | .dwell g => s.dwellOver g
  | .clp t c => s.clpChange t c
  | .select => s.fillSelection

/-- The control plane serves again: what is queued runs in arrival order, then admissions. -/
def Body.controlBack (s : Body) : Body :=
  if !s.planes.controlRestart then s
  else
    let q := s.planes.ctlQueue
    let s := { s with planes := { s.planes with controlRestart := false, ctlQueue := [] } }
    let s := q.foldl (fun s x => s.runItem x) s
    ((s.clpSettle 1).clpSettle 3).grantAll s.coll.ctxs.length

def Body.planeBack (s : Body) (p : Plane) : Body :=
  match p with
  | .data => if s.planes.dataRestart then s.dataBack else s
  | .control => s.controlBack
  | .management => if s.planes.mgmtRestart then s.mgmtBack else s

/-! ### The commands -/

def execPresentDebounce (mv : Nat) (s : State) : Ans := onBody s fun b => b.debounced mv

def execPowerGood (s : State) : Ans := onBody s fun b => b.powerGood

def execPresentBreak (s : State) : Ans := onBody s fun b => b.presentBreak

def execSupplySag (s : State) : Ans := onBody s fun b => b.sag

def execSagSaveComplete (s : State) : Ans := onBody s fun b => b.saved

def execSagRestart (mv : Nat) (gone : Bool) (s : State) : Ans := onBody s fun b => b.sagRestart mv gone

def execBankExhausted (s : State) : Ans := onBody s fun b => b.exhausted

def execOvervoltage (s : State) : Ans := onBody s fun b => b.fetOpens .overvoltage

def execOvercurrent (again : Bool) (s : State) : Ans := onBody s fun b => b.overcurrent again

def execControllerRestart (mv : Nat) (s : State) : Ans := onBody s fun b => b.controllerRestart mv

def execLowLineEntry (s : State) : Ans := onBody s fun b => b.setLowLine true

def execLowLineExit (s : State) : Ans := onBody s fun b => b.setLowLine false

def execModuleReset (s : State) : Ans := onBody s fun b => b.moduleReset

def execModuleResetRelease (s : State) : Ans := onBody s fun b => b.resetReleased

def execPpContactAssert (s : State) : Ans := onBody s fun b => b.contact true

def execPpContactRelease (s : State) : Ans := onBody s fun b => b.contact false

def execRemovalDrainStart (s : State) : Ans := onBody s fun b => b.removalDrain

def execReadyToRemove (s : State) : Ans := onBody s fun b => b.ready

def execPlaneRestartComplete (p : Plane) (s : State) : Ans := onBody s fun b => if b.serves then b.planeBack p else b

end Sys2Proof.Machine
end

