-- ==== Sys2Proof/Machine/Bringup.lean ====
section
/-! DEFINITION. Bring-up: the end of each phase's work (06 R164; 09 R226, R227; 13 R352, R357; 14 R384; 15 R386-R397). -/
namespace Sys2Proof.Machine

/-! ### P1: firmware (13 R352, R353; 15 Table 15-5) -/

/-- A slot that P1 may boot. -/
def slotValid (x : FwImage) (sigBad : Bool) (step : Nat) (b : Bool) : Bool :=
  let f := x.slot b
  f.filled && f.bodyOk && !sigBad && x.floor.toNat ≤ f.svn.toNat && f.lowStep.toNat ≤ step

/-- Slot to boot of an image: the active one, or the other. -/
def bootSlot (x : FwImage) (bad : Bool → Bool) (step : Nat) : Option Bool :=
  if slotValid x (bad x.active) step x.active then some x.active
  else if slotValid x (bad !x.active) step (!x.active) then some (!x.active)
  else none

/-- Signature findings of an image, by slot. -/
def slotBad (f : Findings) (k : Nat) (b : Bool) : Bool := f.sigBad.any fun x => x.1.val == k && x.2.val == b.toNat

def Body.toPhase (s : Body) (n : Nat) : Body := (s.setPower fun p => { p with phase := n }).lanternPut id

/-- P0: MRAM read. -/
def Body.endP0 (s : Body) : Body :=
  let found := s.mram.saveComplete
  let m := { s.mram with saveComplete := false, counterSnapshot := if found then s.mram.counterSnapshot else none }
  (({ s with mram := m } : Body).lanternPut fun l => { l with saveComplete := found }).toPhase 1

def Body.endP1 (s : Body) (f : Findings) (step : Nat) : Body :=
  let boots := (List.range 4).map fun k => bootSlot (s.image k) (slotBad f k) step
  if boots.any (·.isNone) then s.stopWith 1 0xFF 0xFF 0
  else
    let fell := (List.range 4).filter fun k => nth boots k none != some (s.image k).active
    let s := (List.range 4).foldl (fun s k => s.setImage k { s.image k with active := (nth boots k none).getD false }) s
    let s := { s with mram := { s.mram with bootCount := s.mram.bootCount + 1 } }
    (s.showFirmware.lanternPut fun l => { l with slotFallback := BitVec.ofNat 4 ((fell.map (2 ^ ·)).foldl (· + ·) 0) }).toPhase 2

/-! ### P2: fuses and steppings (15 R386-R389, R393) -/

def fuStep (b : BitVec 8192) : Nat := fld b 8139 8136
def fuSerial (b : BitVec 8192) : Nat := fld b 8135 8008
def fuHbm (b : BitVec 8192) : Nat := fld b 7687 7668
def fuOe (b : BitVec 8192) : Nat := fld b 7667 7660
def fuPartno (b : BitVec 8192) : Nat := fld b 7659 7644

/-- CRC, SEALED and FORMAT. -/
def fuSealed (b : BitVec 8192) : Bool :=
  fld b 8191 8160 == crc32c (beBytes 252 (fld b 8159 6144)) && bit b 8159 && fld b 8151 8144 == 1

/-- ROLE and POSITION of the block in place k of the fuse record. -/
def fuPlaced (k : Nat) (b : BitVec 8192) : Bool :=
  if k < 4 then fld b 8143 8142 == 0 && fld b 8141 8140 == k else fld b 8143 8142 == k - 3

/-- First stop cause of Table 15-6 with the die it names; `dead` are the fabric dies not found. -/
def fuseCause (fs : List (BitVec 8192)) (dead : List Nat) : Option (Nat × Nat) :=
  let blk := fun k => nth fs k 0
  let read := (List.range 6).filter fun k => !dead.contains k
  let fd := read.filter (· < 4)
  match read.find? fun k => !(fuSealed (blk k) && fuPlaced k (blk k)) with
  | some k => some (2, k)
  | none =>
    if read.any fun k => fuSerial (blk k) != fuSerial (blk 4) then some (3, 0xFF)
    else if fd.any fun k => fd.any fun j => fuStep (blk k) != fuStep (blk j) then some (4, 0xFF)
    else if fd.any fun k => fuStep (blk k) != 1 then some (5, 0xFF)
    else dead.head?.map fun k => (6, k)

/-! ### P2: Ridgepole (15 R386, R390-R392; entry 47) -/

def evenParity (e : Nat) : Bool := ((List.range 8).filter fun i => e.testBit i).length % 2 == 0

def repairEntries (b : BitVec 8192) (n : Nat) : List Nat := (List.range 4).map fun k => fld b (32 * n + 8 * k + 7) (32 * n + 8 * k)

/-- Lanes that the REPAIR entries in use map. -/
def repairs (b : BitVec 8192) (n : Nat) : List Nat := ((repairEntries b n).filter fun e => e ≥ 128 && evenParity e).map (· % 64)

/-- Entries that fail parity, over every block read. -/
def oddEntries (fs : List (BitVec 8192)) : Nat :=
  (List.range 5).foldl (fun a k => a + (((List.range (if k = 4 then 32 else 192)).flatMap (repairEntries (nth fs k 0))).filter fun e =>
    !evenParity e).length) 0

/-- The other end of a block: fuse block and block number. -/
def otherEnd (die b : Nat) : Option (Nat × Nat) :=
  match wiring b with
  | 2 => some (ringSucc die, b + 48)
  | 3 => some (ringPred die, b - 48)
  | 4 => some (diagonal die, b)
  | 5 => some (4, 8 * die + (b - 184))
  | _ => none

/-- Lanes of one end: fused, and of the lane map. -/
def Body.lanesAt (s : Body) (fs : List (BitVec 8192)) (n b : Nat) : List Nat :=
  repairs (nth fs n 0) b ++ (if n < 4 then mgetD s.mram.laneMap (192 * n + b) [] else [])

/-- The union of both ends' repairs. -/
def Body.lanesOf (s : Body) (fs : List (BitVec 8192)) (die b : Nat) : List Nat :=
  dedupNat (s.lanesAt fs die b ++ match otherEnd die b with | some (n, c) => s.lanesAt fs n c | none => [])

def blockDead (f : Findings) (die b : Nat) : Bool := f.blocksDown.any fun x => x.1.val == die && x.2.val == b

/-- The block leaves service: too many repairs, or it fails to train at either end. -/
def Body.blockFails (s : Body) (f : Findings) (fs : List (BitVec 8192)) (die b : Nat) : Bool :=
  (s.lanesOf fs die b).length > 4 || blockDead f die b || (match otherEnd die b with | some (n, c) => n < 4 && blockDead f n c | none => false)

/-- Keys of the blocks out of service; those toward an engine that is not fitted are OFF and not trained. -/
def Body.failedBlocks (s : Body) (f : Findings) (fs : List (BitVec 8192)) (oe : Nat) : List Nat :=
  (List.range 768).filter fun k => (wiring (k % 192) > 1 || oe.testBit (2 * (k / 192) + wiring (k % 192)))
    && s.blockFails f fs (k / 192) (k % 192)

/-- Every block of a wiring group is among those given. -/
def groupDown (down : List Nat) (die g n : Nat) : Bool := (List.range n).all fun k => down.contains (192 * die + wiringBase g + k)

def deadDies (f : Findings) (down : List Nat) : List Nat :=
  (List.range 4).filter fun d => f.unreachable.any (fun x => x.val == d) || groupDown down d 5 8

def darkEngines (f : Findings) (down : List Nat) (oe : Nat) : List Nat :=
  (List.range 8).filter fun e => oe.testBit e && (f.enginesDark.any (fun x => x.val == e) || groupDown down (e / 2) (e % 2) 28)

/-- Some role is below its bound (15 R391, R392). -/
def Body.rolesBelow (s : Body) (v : Variant) : Bool :=
  (List.range 4).any fun d =>
    (!(v == .p384 && d == 3) && s.belowBound d .oe 0) || [2, 3, 4].any (fun g => s.belowBound d .cross g) || s.belowBound d .reduction 0

/-- Blocks, lanes and roles. -/
def Body.setRidgepole (s : Body) (fs : List (BitVec 8192)) (down : List Nat) (v : Variant) : Body :=
  let lanes := ((List.range 768).map fun k => (k, s.lanesOf fs (k / 192) (k % 192))).filter fun x => !x.2.isEmpty
  let s := { s with integ := { s.integ with blockLanes := lanes, bootDown := down, blockDown := down } }
  s.lanternPut fun l => { l with ridgepoleBelow := s.rolesBelow v }

/-! ### P2: the profile (15 R395) -/

/-- The profile put in force: IN_FORCE, the profile and its bytes. -/
def Body.fallProfile (s : Body) (v : Variant) : Nat × Profile × List Byte :=
  match s.profiles.last with
  | some (p, b) => if p.p2Status v = 0 ∧ p.partsOk v then (1, p, b) else (2, {}, factoryBytes v.partno.toNat)
  | none => (2, {}, factoryBytes v.partno.toNat)

def Body.useProfile (s : Body) (status : Nat) (x : Nat × Profile × List Byte) : Body :=
  let s := { s with profiles := { s.profiles with inForce := x.2.1, inForceRaw := x.2.2 } }
  s.lanternPut fun l => { l with profileStatus := BitVec.ofNat 8 status, inForce := BitVec.ofNat 2 x.1 }

def Body.chooseProfile (s : Body) (v : Variant) : Body :=
  match s.profiles.staged, s.profiles.refused with
  | some (p, b), false =>
    let st := p.p2Status v
    if st = 0 then s.useProfile 0 (0, p, b)
    else ({ s with profiles := { s.profiles with refused := true } } : Body).useProfile st (s.fallProfile v)
  | _, _ => s.useProfile (if s.power.refallen then 4 else 1) (s.fallProfile v)

/-- Every check has passed: a staged profile in force is accepted (16 R413). -/
def Body.acceptProfile (s : Body) : Body :=
  if s.lantern.inForce = 0 then
    { s with profiles := { s.profiles with last := s.profiles.staged, staged := none, refused := false } }
  else s

/-! ### P2: Portage and the port table (06 R164; 16 Table 16-11) -/

/-- A group's map from its cells; one that is not valid is left as found. -/
def Body.groupMap (s : Body) (g : Nat) : Option W32 := mapOfCells (s.cellsOf g)

def Body.readCells (s : Body) (v : Variant) : Body :=
  let gs := List.range v.groups
  let m : Map BypassEntry := gs.filterMap fun g => (s.groupMap g).map fun p => (g, { partner := p, gen := 0 : BypassEntry })
  let bad := gs.filter fun g => (s.groupMap g).isNone
  let w : W64 := BitVec.ofNat 64 ((bad.map (2 ^ ·)).foldl (· + ·) 0)
  let s := { s with portage := { s.portage with mapA := m, mapB := m, active := false, inconsistent := w } }
  let s := s.lanternPut fun l => { l with portageInconsistent := w }
  if s.power.refallen then s else bad.foldl (fun s g => s.emit 0x207 [g]) s

/-- Both banks of the port table, from the port map. -/
def Body.bootPorts (s : Body) (v : Variant) : Body :=
  let e := fun (k : Nat) => mget s.profiles.inForce.portMap k
  let b : PortBank :=
    { lp := (List.range (4 * v.ports)).map fun l => (l, { enable := match e (l / 4) with | some w => bit w 18 | none => true : LpEntry })
      phys := (List.range v.ports).map fun k => (k, { split := match e k with | some w => (if fld w 23 21 = 0 then fld w 20 19 else 0) | none => 0
                                                      gkind := match e k with | some w => fld w 23 21 | none => 0
                                                      blank := !s.through k : PhysEntry }) }
  { s with tables := { s.tables with portA := b, portB := b, portActive := false } }

/-- The identity that the fuses give (16 Table 16-2). -/
def Body.showFuses (s : Body) (fs : List (BitVec 8192)) (dead : List Nat) : Body :=
  let iod := nth fs 4 0
  let st := (List.range 6).map fun k => put (if dead.contains k then 0xF else fuStep (nth fs k 0)) (20 - 4 * k)
  s.lanternPut fun l => { l with
    partno := BitVec.ofNat 16 (fuPartno iod), serial := BitVec.ofNat 128 (fuSerial iod), stepping := BitVec.ofNat 24 (st.foldl (· + ·) 0)
    fittedHbm := BitVec.ofNat 20 (fuHbm iod), fittedOe := BitVec.ofNat 8 (fuOe iod) }

/-! ### P3: stacks and partitions (09 R226, R227; 15 R389, R396) -/

def stackIds (l : List (Fin 20)) (fitted : List Nat) : List Nat := fitted.filter fun n => l.any fun x => x.val == n

/-- Each die's part of the Bivouac reserve, in bytes. -/
def reserveOf (p : Profile) (fitted : List Nat) : List Nat :=
  (List.range 4).map fun d => p.bivouac * 1000000000 * (fitted.filter fun n => n / 5 == d).length / max 1 fitted.length

def Body.layOut (s : Body) (v : Variant) (fitted : List Nat) : Body :=
  let p := s.profiles.inForce
  { s with
    mss := { s.mss with partGB := [p.contextStore, p.tablesMembers, p.logs, p.bivouac, p.spill, p.headroom]
                        fmemUnits := (v.hbmGB - p.sum) * 1000000000 / 2097152 }
    coll := { s.coll with spillFree := p.spill * 1000000000 / 65536 }
    tms := { s.tms with reserve := reserveOf p fitted }
    integ := { s.integ with stackSt := ((List.range 20).filter fun n => !fitted.contains n).map fun n => (n, .absent) } }

/-- One stack fails training: its units lie in the headroom. -/
def Body.bootLost (s : Body) (n : Nat) : Body :=
  let s := s.setStack n .lost
  let s := { s with integ := { s.integ with headroomUsed := true } }
  (s.emit 0x505 [n]).lanternPut fun l => { l with stacksLost := 1 <<< n }

/-- Ports enter TRAINING, or stay dark. -/
def Body.enterP4 (s : Body) : Body :=
  let s := (s.acceptProfile.setPower fun p => { p with refallen := false }).toPhase 4
  (List.range (4 * s.variant.ports)).foldl (fun s l => s.retrain l) s

def Body.endP3 (s : Body) (f : Findings) : Body :=
  let v := s.variant
  let fitted := setBits 20 s.lantern.fittedHbm
  match stackIds f.idBad fitted, stackIds f.trainBad fitted with
  | n :: _, _ => s.stopWith 7 0xFF n 0
  | [], bad =>
    if !s.profiles.inForce.partsOk v then
      let s := { s with profiles := { s.profiles with refused := true } }
      ((s.setPower fun p => { p with refallen := true }).lanternPut fun l => { l with profileStatus := 4 }).toPhase 2
    else match bad with
      | [] => (s.layOut v fitted).enterP4
      | n :: t =>
        if !t.isEmpty || s.profiles.inForce.headroom ≠ 72 then s.stopWith 8 0xFF n 0
        else ((s.layOut v fitted).bootLost n).enterP4

/-- The work of P2 once the fuses have passed. -/
def Body.setUp (s : Body) (f : Findings) (fs : List (BitVec 8192)) (down : List Nat) : Body :=
  let iod := nth fs 4 0
  let v := Variant.ofPartno (BitVec.ofNat 16 (fuPartno iod))
  let oem := darkEngines f down (fuOe iod)
  let s := s.lanternPut fun l => { l with
    featureLevel := if fuStep iod = 0 then 1 else 0, oeMissing := BitVec.ofNat 8 ((oem.map (2 ^ ·)).foldl (· + ·) 0), stacksLost := 0 }
  let s := { s with sec := { s.sec with fuseDigest := sha384 (fuseRecord fs) } }
  let s := if s.power.refallen then s else s.bumpBy .fuseRepairParity 0 (oddEntries fs)
  let s := ((s.chooseProfile v).setRidgepole fs down v).readCells v
  let s := { s with budget := { s.budget with cap := s.profiles.inForce.cap } }
  let s := (s.bootPorts v).freshPools
  let s := s.lanternPut fun l => { l with infra := s.own }
  if v.hasFmem then s.toPhase 3 else s.enterP4

def Body.endP2 (s : Body) (f : Findings) (fs : List (BitVec 8192)) : Body :=
  let down := s.failedBlocks f fs (fuOe (nth fs 4 0))
  let dead := deadDies f down
  match fuseCause fs dead with
  | some (2, k) => s.stopWith 2 k 0xFF 0
  | some (c, k) => (s.showFuses fs dead).stopWith c k 0xFF 0
  | none => (s.showFuses fs dead).setUp f fs down

/-! ### P4 and P5 (13 R357; 12 R318) -/

/-- Cartridges that have not failed stand at target power. -/
def Body.lightUp (s : Body) (f : Findings) : Body :=
  ((List.range s.variant.cartridges).filter fun c => !f.cartsFailed.any fun x => x.val == c).foldl (fun s c => s.cartAtPower c) s

def Body.restoreCounters (s : Body) : Body :=
  match s.mram.counterSnapshot with
  | none => s.lanternPut fun l => { l with countersRestored := false }
  | some l =>
    let s := { s with mram := { s.mram with counterSnapshot := none } }
    (l.foldl (fun s x => s.plainBump x.1 x.2.1 x.2.2) s).lanternPut fun l => { l with countersRestored := true }

/-- The quarantine list holds, and each die's last other Sett is SPARE (entry 19). -/
def Body.bootSetts (s : Body) : Body :=
  let q := s.mram.quarantine
  let st := fun (n : Nat) =>
    if q.contains n then SettState.quarantined
    else if ((settsOf (n / 5)).filter fun k => !q.contains k).getLast? = some n then .spare else .inService
  ({ s with setts := (List.range 20).map fun n => (n, { state := st n : Sett }) } : Body).fillSelection

def Body.endP4 (s : Body) (f : Findings) : Body :=
  let s := (s.lightUp f).restoreCounters.bootSetts
  ((s.setPower fun p => { p with state := .operational }).toPhase 5).flushEvents

/-- A phase's work has ended (15 R394). -/
def Body.phaseEnd (s : Body) (f : Findings) (fs : List (BitVec 8192)) : Body :=
  if s.power.state ≠ .bringup then s
  else match s.power.phase with
    | 0 => s.endP0
    | 1 => s.endP1 f (fuStep (nth fs 4 0))
    | 2 => s.endP2 f fs
    | 3 => s.endP3 f
    | 4 => s.endP4 f
    | _ => s

/-- Twice the phase's time has passed. -/
def Body.phaseLate (s : Body) : Body :=
  if s.power.state = .bringup ∧ s.power.phase < 5 then s.goDark.stopWith 9 0xFF 0xFF 0 else s

/-! ### The commands -/

def execBringupPhase (f : Findings) (s : State) : Ans := onBody s fun b => b.phaseEnd f s.fuses

def execPhaseTimeout (s : State) : Ans := onBody s fun b => b.phaseLate

end Sys2Proof.Machine
end

