-- ==== Sys2Proof/Machine/Dispatch.lean ====
section
/-! DEFINITION. One arm per command: its meaning, called by its full name. -/
namespace Sys2Proof.Machine

def exec (i : Instr) (s : State) : Host.Outcome State Fault Refusal :=
  match i with
  | .tableWrite r data => Sys2Proof.Machine.execTableWrite r data s
  | .tableBulkLoad r data => Sys2Proof.Machine.execTableBulkLoad r data s
  | .tableFlip r => Sys2Proof.Machine.execTableFlip r s
  | .groupCreate r data => Sys2Proof.Machine.execGroupCreate r data s
  | .groupExtend r data => Sys2Proof.Machine.execGroupExtend r data s
  | .groupFence r data => Sys2Proof.Machine.execGroupFence r data s
  | .groupUnfence r data => Sys2Proof.Machine.execGroupUnfence r data s
  | .groupDestroy r => Sys2Proof.Machine.execGroupDestroy r s
  | .ctxPolicySlot r data => Sys2Proof.Machine.execCtxPolicySlot r data s
  | .ctxPolicyOpen r => Sys2Proof.Machine.execCtxPolicyOpen r s
  | .ctxAbort r => Sys2Proof.Machine.execCtxAbort r s
  | .fmemCreate r => Sys2Proof.Machine.execFmemCreate r s
  | .fmemMirror r survivor => Sys2Proof.Machine.execFmemMirror r survivor s
  | .fmemDestroy r => Sys2Proof.Machine.execFmemDestroy r s
  | .fmemRestore r data => Sys2Proof.Machine.execFmemRestore r data s
  | .fmemSave r units => Sys2Proof.Machine.execFmemSave r units s
  | .portMode r => Sys2Proof.Machine.execPortMode r s
  | .portAdmin r => Sys2Proof.Machine.execPortAdmin r s
  | .portBypassSet r data => Sys2Proof.Machine.execPortBypassSet r data s
  | .portPrepareRemoveCartridge r => Sys2Proof.Machine.execPortPrepareRemoveCartridge r s
  | .portPrepareRemoveModule r => Sys2Proof.Machine.execPortPrepareRemoveModule r s
  | .portHold r data => Sys2Proof.Machine.execPortHold r data s
  | .portRelease r data => Sys2Proof.Machine.execPortRelease r data s
  | .powerSetCap r => Sys2Proof.Machine.execPowerSetCap r s
  | .teleCounters r units => Sys2Proof.Machine.execTeleCounters r units s
  | .teleHwm r units => Sys2Proof.Machine.execTeleHwm r units s
  | .teleStream r data => Sys2Proof.Machine.execTeleStream r data s
  | .secChallenge r => Sys2Proof.Machine.execSecChallenge r s
  | .secOpen r data sigOk => Sys2Proof.Machine.execSecOpen r data sigOk s
  | .secBind r => Sys2Proof.Machine.execSecBind r s
  | .secElevate r data sigOk => Sys2Proof.Machine.execSecElevate r data sigOk s
  | .secClose r => Sys2Proof.Machine.execSecClose r s
  | .secTakeover r => Sys2Proof.Machine.execSecTakeover r s
  | .secRelease r => Sys2Proof.Machine.execSecRelease r s
  | .fwStage r data => Sys2Proof.Machine.execFwStage r data s
  | .fwActivate r sigOk => Sys2Proof.Machine.execFwActivate r sigOk s
  | .fwActivated ok => Sys2Proof.Machine.execFwActivated ok s
  | .diagRead r units => Sys2Proof.Machine.execDiagRead r units s
  | .diagRestartDataplane r => Sys2Proof.Machine.execDiagRestartDataplane r s
  | .mailboxChallenge m => Sys2Proof.Machine.execMailboxChallenge m s
  | .mailboxOpen m sigOk => Sys2Proof.Machine.execMailboxOpen m sigOk s
  | .mailboxElevate m sigOk => Sys2Proof.Machine.execMailboxElevate m sigOk s
  | .mailboxClose m => Sys2Proof.Machine.execMailboxClose m s
  | .attest m => Sys2Proof.Machine.execAttest m s
  | .cert m => Sys2Proof.Machine.execCert m s
  | .catalog m => Sys2Proof.Machine.execCatalog m s
  | .auditRead m => Sys2Proof.Machine.execAuditRead m s
  | .claim m => Sys2Proof.Machine.execClaim m s
  | .enroll m => Sys2Proof.Machine.execEnroll m s
  | .revoke m => Sys2Proof.Machine.execRevoke m s
  | .profileWrite m => Sys2Proof.Machine.execProfileWrite m s
  | .profileRead m => Sys2Proof.Machine.execProfileRead m s
  | .fwApprove m sigOk => Sys2Proof.Machine.execFwApprove m sigOk s
  | .svnCommit m => Sys2Proof.Machine.execSvnCommit m s
  | .fuse m => Sys2Proof.Machine.execFuse m s
  | .mfgTest m => Sys2Proof.Machine.execMfgTest m s
  | .clearQuarantine m => Sys2Proof.Machine.execClearQuarantine m s
  | .mailboxGo f v => Sys2Proof.Machine.execMailboxGo f v s
  | .mailboxNext f v => Sys2Proof.Machine.execMailboxNext f v s
  | .mailboxAbort f v => Sys2Proof.Machine.execMailboxAbort f v s
  | .mgmtPortDatagram addr port part => Sys2Proof.Machine.execMgmtPortDatagram addr port part s
  | .commandRingEnable f r v => Sys2Proof.Machine.execCommandRingEnable f r v s
  | .commandRingDisable f r v => Sys2Proof.Machine.execCommandRingDisable f r v s
  | .completionRingEnable f c v => Sys2Proof.Machine.execCompletionRingEnable f c v s
  | .completionRingDisable f q v => Sys2Proof.Machine.execCompletionRingDisable f q v s
  | .eventRingDisable f tel v => Sys2Proof.Machine.execEventRingDisable f tel v s
  | .nudge f off view => Sys2Proof.Machine.execNudge f off view s
  | .registerWrite f off v four => Sys2Proof.Machine.execRegisterWrite f off v four s
  | .doorbellPoll f view => Sys2Proof.Machine.execDoorbellPoll f view s
  | .descriptorPreempt f => Sys2Proof.Machine.execDescriptorPreempt f s
  | .descriptorResume r => Sys2Proof.Machine.execDescriptorResume r s
  | .pageRequestResponse r a => Sys2Proof.Machine.execPageRequestResponse r a s
  | .priTimeout r => Sys2Proof.Machine.execPriTimeout r s
  | .invalidation f pages => Sys2Proof.Machine.execInvalidation f pages s
  | .interfaceReset f => Sys2Proof.Machine.execInterfaceReset f s
  | .hifLinkLost f => Sys2Proof.Machine.execHifLinkLost f s
  | .pcsLock l => Sys2Proof.Machine.execPcsLock l s
  | .lightArrival l => Sys2Proof.Machine.execLightArrival l s
  | .version l src w0 => Sys2Proof.Machine.execVersion l src w0 s
  | .versionAck l src w0 => Sys2Proof.Machine.execVersionAck l src w0 s
  | .linkUp l => Sys2Proof.Machine.execLinkUp l s
  | .groupTransmit l => Sys2Proof.Machine.execGroupTransmit l s
  | .controlWord l cw => Sys2Proof.Machine.execControlWord l cw s
  | .codewordDecodeFailure l g => Sys2Proof.Machine.execCodewordDecodeFailure l g s
  | .pcsLockLostTimeout l => Sys2Proof.Machine.execPcsLockLostTimeout l s
  | .controlWordTimeout l => Sys2Proof.Machine.execControlWordTimeout l s
  | .timeReqSend l => Sys2Proof.Machine.execTimeReqSend l s
  | .timeReq l w0 t1 f1 t2 f2 => Sys2Proof.Machine.execTimeReq l w0 t1 f1 t2 f2 s
  | .timeResp l w t4 f4 => Sys2Proof.Machine.execTimeResp l w t4 f4 s
  | .frameArrival p h x => Sys2Proof.Machine.execFrameArrival p h x s
  | .frameTailArrival p r => Sys2Proof.Machine.execFrameTailArrival p r s
  | .frameLaunch l => Sys2Proof.Machine.execFrameLaunch l s
  | .cutUnderrun d => Sys2Proof.Machine.execCutUnderrun d s
  | .limiterCreditUpdate die => Sys2Proof.Machine.execLimiterCreditUpdate die s
  | .loadPublish die => Sys2Proof.Machine.execLoadPublish die s
  | .alpOverUdpDatagram l u => Sys2Proof.Machine.execAlpOverUdpDatagram l u s
  | .ethernetFrameArrival l e => Sys2Proof.Machine.execEthernetFrameArrival l e s
  | .encap fid => Sys2Proof.Machine.execEncap fid s
  | .agingVisit typ key => Sys2Proof.Machine.execAgingVisit typ key s
  | .rputArrival fid => Sys2Proof.Machine.execRputArrival fid s
  | .rresArrival fid => Sys2Proof.Machine.execRresArrival fid s
  | .confArrival fid => Sys2Proof.Machine.execConfArrival fid s
  | .admitRecord fid => Sys2Proof.Machine.execAdmitRecord fid s
  | .openRecord fid => Sys2Proof.Machine.execOpenRecord fid s
  | .closeRecord fid => Sys2Proof.Machine.execCloseRecord fid s
  | .answerArrival fid => Sys2Proof.Machine.execAnswerArrival fid s
  | .fmemPut fid => Sys2Proof.Machine.execFmemPut fid s
  | .fmemGet fid => Sys2Proof.Machine.execFmemGet fid s
  | .fmemAtomic fid => Sys2Proof.Machine.execFmemAtomic fid s
  | .gradientPut fid => Sys2Proof.Machine.execGradientPut fid s
  | .digestPut fid => Sys2Proof.Machine.execDigestPut fid s
  | .joinCopyComplete j => Sys2Proof.Machine.execJoinCopyComplete j s
  | .duplicateFilterExpiry src tag wid off => Sys2Proof.Machine.execDuplicateFilterExpiry src tag wid off s
  | .feature fid => Sys2Proof.Machine.execFeature fid s
  | .buddyHb fid => Sys2Proof.Machine.execBuddyHb fid s
  | .buddyHeartbeatSend wid => Sys2Proof.Machine.execBuddyHeartbeatSend wid s
  | .buddyTimeout wid => Sys2Proof.Machine.execBuddyTimeout wid s
  | .soloReq fid => Sys2Proof.Machine.execSoloReq fid s
  | .soloGrant fid => Sys2Proof.Machine.execSoloGrant fid s
  | .soloDeny d => Sys2Proof.Machine.execSoloDeny d s
  | .soloReqTimeout n => Sys2Proof.Machine.execSoloReqTimeout n s
  | .pairReset fid => Sys2Proof.Machine.execPairReset fid s
  | .expressReq fid => Sys2Proof.Machine.execExpressReq fid s
  | .expressAns fid => Sys2Proof.Machine.execExpressAns fid s
  | .expressRel fid => Sys2Proof.Machine.execExpressRel fid s
  | .expressMeasurement peer => Sys2Proof.Machine.execExpressMeasurement peer s
  | .drainComplete l => Sys2Proof.Machine.execDrainComplete l s
  | .drainTimeout l => Sys2Proof.Machine.execDrainTimeout l s
  | .portageCellWriteComplete g readBackOk => Sys2Proof.Machine.execPortageCellWriteComplete g readBackOk s
  | .laserDegraded c w k => Sys2Proof.Machine.execLaserDegraded c w k s
  | .laserFailed c w k => Sys2Proof.Machine.execLaserFailed c w k s
  | .cartridgeRemoved c => Sys2Proof.Machine.execCartridgeRemoved c s
  | .cartridgeInserted c => Sys2Proof.Machine.execCartridgeInserted c s
  | .cartridgeAtPower c => Sys2Proof.Machine.execCartridgeAtPower c s
  | .holdLimitExpiry l => Sys2Proof.Machine.execHoldLimitExpiry l s
  | .settDispatch n => Sys2Proof.Machine.execSettDispatch n s
  | .checkVerdict k faulty => Sys2Proof.Machine.execCheckVerdict k faulty s
  | .arbitrationComplete k differs checkOk => Sys2Proof.Machine.execArbitrationComplete k differs checkOk s
  | .duplicateCompare k differs checkOk => Sys2Proof.Machine.execDuplicateCompare k differs checkOk s
  | .specTimeout k => Sys2Proof.Machine.execSpecTimeout k s
  | .partialResend k => Sys2Proof.Machine.execPartialResend k s
  | .reservationGrant => Sys2Proof.Machine.execReservationGrant s
  | .admissionWindowExpiry c => Sys2Proof.Machine.execAdmissionWindowExpiry c s
  | .admitWaitExpiry c => Sys2Proof.Machine.execAdmitWaitExpiry c s
  | .contextDeadline c => Sys2Proof.Machine.execContextDeadline c s
  | .contextScrub => Sys2Proof.Machine.execContextScrub s
  | .demand v => Sys2Proof.Machine.execDemand v s
  | .energyGrant => Sys2Proof.Machine.execEnergyGrant s
  | .tokenLapse u => Sys2Proof.Machine.execTokenLapse u s
  | .powerMeasurement watts overMax => Sys2Proof.Machine.execPowerMeasurement watts overMax s
  | .thermalEmergency e tj => Sys2Proof.Machine.execThermalEmergency e tj s
  | .thermalClear e tj => Sys2Proof.Machine.execThermalClear e tj s
  | .thermalStop u => Sys2Proof.Machine.execThermalStop u s
  | .saturationEvaluation view => Sys2Proof.Machine.execSaturationEvaluation view s
  | .testRotation die => Sys2Proof.Machine.execTestRotation die s
  | .settTestStart n => Sys2Proof.Machine.execSettTestStart n s
  | .settTestComplete n pass pattern => Sys2Proof.Machine.execSettTestComplete n pass pattern s
  | .testBudgetDefer n => Sys2Proof.Machine.execTestBudgetDefer n s
  | .denHeartbeatLoss => Sys2Proof.Machine.execDenHeartbeatLoss s
  | .denTestStart => Sys2Proof.Machine.execDenTestStart s
  | .denTestComplete pass => Sys2Proof.Machine.execDenTestComplete pass s
  | .stackLost n => Sys2Proof.Machine.execStackLost n s
  | .stackDrainStart n => Sys2Proof.Machine.execStackDrainStart n s
  | .stackDrainCopyComplete n => Sys2Proof.Machine.execStackDrainCopyComplete n s
  | .stackTestComplete n pass => Sys2Proof.Machine.execStackTestComplete n pass s
  | .stackCopyBackComplete n => Sys2Proof.Machine.execStackCopyBackComplete n s
  | .ridgepoleLaneFault die blk lane => Sys2Proof.Machine.execRidgepoleLaneFault die blk lane s
  | .probeCell die port => Sys2Proof.Machine.execProbeCell die port s
  | .probeFail die port => Sys2Proof.Machine.execProbeFail die port s
  | .memberSuspect g rank missing => Sys2Proof.Machine.execMemberSuspect g rank missing s
  | .fatalStop subsys u => Sys2Proof.Machine.execFatalStop subsys u s
  | .dataplaneFault => Sys2Proof.Machine.execDataplaneFault s
  | .managementPlaneFault => Sys2Proof.Machine.execManagementPlaneFault s
  | .challengeExpiry p ring => Sys2Proof.Machine.execChallengeExpiry p ring s
  | .sessionExpiry id => Sys2Proof.Machine.execSessionExpiry id s
  | .lockoutExpiry f => Sys2Proof.Machine.execLockoutExpiry f s
  | .checkpoint => Sys2Proof.Machine.execCheckpoint s
  | .checkpointSignatureReady => Sys2Proof.Machine.execCheckpointSignatureReady s
  | .telemetrySample f => Sys2Proof.Machine.execTelemetrySample f s
  | .parentChange => Sys2Proof.Machine.execParentChange s
  | .holdoverExpiry => Sys2Proof.Machine.execHoldoverExpiry s
  | .ptpMessage port domain slave offset => Sys2Proof.Machine.execPtpMessage port domain slave offset s
  | .ppsPulse => Sys2Proof.Machine.execPpsPulse s
  | .presentDebounce mv => Sys2Proof.Machine.execPresentDebounce mv s
  | .powerGood => Sys2Proof.Machine.execPowerGood s
  | .presentBreak => Sys2Proof.Machine.execPresentBreak s
  | .supplySag => Sys2Proof.Machine.execSupplySag s
  | .sagSaveComplete => Sys2Proof.Machine.execSagSaveComplete s
  | .sagRestart mv gone => Sys2Proof.Machine.execSagRestart mv gone s
  | .overvoltage => Sys2Proof.Machine.execOvervoltage s
  | .overcurrent again => Sys2Proof.Machine.execOvercurrent again s
  | .controllerRestart mv => Sys2Proof.Machine.execControllerRestart mv s
  | .lowLineEntry => Sys2Proof.Machine.execLowLineEntry s
  | .lowLineExit => Sys2Proof.Machine.execLowLineExit s
  | .moduleReset => Sys2Proof.Machine.execModuleReset s
  | .moduleResetRelease => Sys2Proof.Machine.execModuleResetRelease s
  | .ppContactAssert => Sys2Proof.Machine.execPpContactAssert s
  | .ppContactRelease => Sys2Proof.Machine.execPpContactRelease s
  | .bringupPhase f => Sys2Proof.Machine.execBringupPhase f s
  | .phaseTimeout => Sys2Proof.Machine.execPhaseTimeout s
  | .removalDrainStart => Sys2Proof.Machine.execRemovalDrainStart s
  | .readyToRemove => Sys2Proof.Machine.execReadyToRemove s
  | .controlPlaneRestart => Sys2Proof.Machine.execControlPlaneRestart s
  | .planeRestartComplete p => Sys2Proof.Machine.execPlaneRestartComplete p s
  | .dmaUnitComplete f data => Sys2Proof.Machine.execDmaUnitComplete f data s
  | .atsTranslationComplete f page granted => Sys2Proof.Machine.execAtsTranslationComplete f page granted s
  | .hifLinkUp f => Sys2Proof.Machine.execHifLinkUp f s
  | .bankExhausted => Sys2Proof.Machine.execBankExhausted s
  | .expressDwellExpiry g => Sys2Proof.Machine.execExpressDwellExpiry g s
  | .activationStepEnd ok => Sys2Proof.Machine.execActivationStepEnd ok s

end Sys2Proof.Machine
end

