-- ==== Sys2Proof/Machine/Tick.lean ====
section
/-! DEFINITION. What the block does when no command waits (entry 7). -/
namespace Sys2Proof.Machine

/-- One 2^-16 ns in two cycles at most, 7.6 ppm: what the servo steers by (13 R363; entry 49). -/
def Clock.steer (c : Clock) : Int :=
  if c.parent.isNone || bit c.ns 0 then 0 else if c.offset > 0 then 1 else if c.offset < 0 then -1 else 0

/-- Hall time a nanosecond on, steered. -/
def Clock.tick (c : Clock) : Clock :=
  let t : Nat := ((c.ns.toNat * 65536 + c.frac.toNat + 65536 : Nat) + c.steer).toNat
  { c with ns := BitVec.ofNat 64 (t / 65536), frac := BitVec.ofNat 16 (t % 65536), offset := c.offset - c.steer }

/-- One cycle of TCLK: hall time counts while the IOD is powered (13 R361, 14 R385), and each whole microsecond of it counts the
ports that press back and the Setts whose log is full, and shows the failure detector the pods that have a path again (05 R142; 12
R308, R319). DESIGN CHOICE (entry 7). -/
def idle (s : Body) : Body :=
  match s.power.state with
  | .unpowered | .precharge => s
  | _ =>
    let t : Body := { s with clock := s.clock.tick }
    if t.clock.ns.toNat / 1000 ≠ s.clock.ns.toNat / 1000 ∧ t.dataRuns then t.pressTick.logTick.pathsBack else t

end Sys2Proof.Machine
end

