-- ==== Sys2Proof/Safety.lean ====
section
/-! DEFINITION. What counts as a safe step, and the invariants and the views of the state that claims speak of. -/
namespace Sys2Proof.Machine

/-- The step did not stop. -/
def goesOn (o : Host.Outcome State Fault Refusal) : Prop := ∃ t, o = .next t

/-- Every fuse bit set in `f` is set in `g`, block by block: a written bit never returns to 0 (15 "Fuses"). -/
def fusesGrow : List (BitVec 8192) → List (BitVec 8192) → Prop
  | [], [] => True
  | a :: f, b :: g => a &&& b = a ∧ fusesGrow f g
  | _, _ => False

/-- The fuse blocks agree outside their REPAIR entries, bits [6143:0] (15 Table 15-2). -/
def sameButRepair : List (BitVec 8192) → List (BitVec 8192) → Prop
  | [], [] => True
  | a :: f, b :: g => a >>> 6144 = b >>> 6144 ∧ sameButRepair f g
  | _, _ => False

/-- The part that a fault names is not on the variant of the IOD fuses (00 R4, R5; 17 R417). -/
def State.lacks (s : State) : Fault → Prop
  | .absentPort l => s.hw.ports ≤ physOf l
  | .absentCartridge k => s.hw.cartridges ≤ k
  | .absentEngine e => s.hw.engines ≤ e
  | .absentStack n => s.hw.fittedHbm.getLsbD n = false
  | .absentGroup g => s.hw.groups ≤ g

/-- A fault's number is one that some variant has (00 Table 0-2). -/
def Fault.numbered : Fault → Prop
  | .absentPort l => l < 2048
  | .absentCartridge k => k < 16
  | .absentEngine e => e < 8
  | .absentStack n => n < 20
  | .absentGroup g => g < 64

/-- The body without its reports: the host interfaces, the audit chain, the event log, held events, the counters, the next
random draw and the model's record of what has left the module. -/
def Body.quiet (s : Body) : Body :=
  { s with hifA := {}, hifB := {}, sec := { s.sec with audit := {} }, mram := { s.mram with gapOwed := false },
           counters := [], sampleAt := [], events := [], evlog := [], out := [], free := 0 }

/-- Command `c` completes in `s`, and all but the reports is as in body `b`. -/
def runsTo (c : Instr) (s : State) (b : Body) : Prop :=
  ∃ t, exec c s = .next t ∧ t.toBody.quiet = b.quiet ∧ t.fuses = s.fuses ∧ t.pending = s.pending

/-- Command `c` completes in `s` with exactly body `b`, its fuses and queue unchanged. -/
def becomes (c : Instr) (s : State) (b : Body) : Prop := exec c s = .next { s with toBody := b }

/-- Bytes of host data an ATOMIC command needs. -/
def CmdSpec.need (sp : CmdSpec) (d : Desc) : Nat :=
  match sp.mode with
  | .atomic need _ _ => need d
  | _ => 0

/-- BAD_DESC of an ATOMIC command's host data. -/
def CmdSpec.bad1 (sp : CmdSpec) (s : Body) (d : Desc) (b : List Byte) : Bool :=
  match sp.mode with
  | .atomic _ bad1 _ => bad1 s d b
  | _ => false

/-- An ATOMIC command's own effect. -/
def CmdSpec.run (sp : CmdSpec) (s : Body) (r : CmdRef) (d : Desc) (b : List Byte) : HostRes :=
  match sp.mode with
  | .atomic _ _ run => run s r d b
  | _ => { s }

/-- The descriptor a command starts with: RUNNING, with the session of its ring and that session's role (11 R290, 13 R335). -/
def Body.begun (s : Body) (r : CmdRef) (d : Desc) : Desc :=
  { d with st := .running, session := (s.ringOf r).session, role := s.roleOf (s.ringOf r).session }

/-- It, with what the command remembers of its start. -/
def Body.startDesc (s : Body) (sp : CmdSpec) (r : CmdRef) (d : Desc) : Desc :=
  { s.begun r d with step0 := sp.begin s r (s.begun r d) }

/-- The started descriptor with all its host data, when the command is carried out. -/
def Body.runDesc (s : Body) (sp : CmdSpec) (r : CmdRef) (d : Desc) (data : List Byte) : Desc :=
  { s.startDesc sp r d with
    buf := data.take (sp.need (s.startDesc sp r d)), done := sp.need (s.startDesc sp r d), st := .waiting }

/-- The body in which a command with all its data is carried out. -/
def Body.atRun (s : Body) (sp : CmdSpec) (r : CmdRef) (d : Desc) (data : List Byte) : Body :=
  ((s.putDesc r (s.startDesc sp r d)).releaseEngine r).putDesc r (s.runDesc sp r d data)

/-- A host command whose descriptor `d` may start (11 R290) and whose header, descriptor and role are right (11 Table 11-8). -/
structure Starts (sp : CmdSpec) (s : Body) (r : CmdRef) (d : Desc) : Prop where
  found : s.desc r = some d
  cls : d.cls = sp.cls
  op : d.op = sp.op
  start : s.startable r = true
  header : d.headerOk ((s.ifc r.iface).cq d.cqn).format = true
  good0 : sp.bad0 s r (s.begun r d) = false
  role : d.allowed (s.roleOf (s.ringOf r).session) = true
  engine : sp.needsEngine (s.begun r d) = false ∨ s.engineFree r = true
  fresh : d.buf = []
  first : d.done = 0
  served : sp.control = true → s.planes.controlRestart = false

/-- An ATOMIC command that is carried out at once: it starts, `data` holds all the host data it needs, the checks of Table
11-8 that remain pass, and it waits for no table. -/
structure Ready (sp : CmdSpec) (s : Body) (r : CmdRef) (d : Desc) (data : List Byte) : Prop extends Starts sp s r d where
  enough : sp.need (s.startDesc sp r d) ≤ data.length
  good1 : sp.bad1 (s.putDesc r (s.startDesc sp r d)) (s.runDesc sp r d data) (s.runDesc sp r d data).buf = false
  pre : (s.atRun sp r d data).preStatus sp r (s.runDesc sp r d data) = 0
  free : sp.wait (s.atRun sp r d data) (s.runDesc sp r d data) = false

/-- A STREAMED command that begins at once: it starts, no refusal that needs no host data applies, and it waits for no table. -/
structure Streams (sp : CmdSpec) (s : Body) (r : CmdRef) (d : Desc) : Prop extends Starts sp s r d where
  pre : (s.putDesc r (s.startDesc sp r d)).preStatus sp r (s.startDesc sp r d) = 0
  free : sp.wait (s.putDesc r (s.startDesc sp r d)) (s.startDesc sp r d) = false

/-- A command whose header, descriptor and role are right, refused with status `st` by the checks of Table 11-8 that remain. -/
structure Refused (sp : CmdSpec) (s : Body) (r : CmdRef) (d : Desc) (data : List Byte) (st : Nat) : Prop extends Starts sp s r d where
  enough : sp.need (s.startDesc sp r d) ≤ data.length
  good1 : sp.bad1 (s.putDesc r (s.startDesc sp r d)) (s.runDesc sp r d data) (s.runDesc sp r d data).buf = false
  pre : (s.atRun sp r d data).preStatus sp r (s.runDesc sp r d data) = st
  refuses : st ≠ 0

/-- A banked table with its active bank changed, or not. -/
def Banked.flipIf {n : Nat} (t : Banked n) (b : Bool) : Banked n := { t with active := t.active ^^ b }

def Hashed.flipIf {n : Nat} (t : Hashed n) (b : Bool) : Hashed n := { t with active := t.active ^^ b }

/-- What the first data, or the first `u` units, of a streamed command do: inward, the bytes that have come are fed to it and
it completes once it is done; outward, the bytes up to the end of the last unit are written at its destination. -/
def CmdSpec.moves (sp : CmdSpec) (s : Body) (r : CmdRef) (d : Desc) (data : List Byte) (u : Nat) : Body :=
  let b := s.putDesc r (s.startDesc sp r d)
  let d1 := s.startDesc sp r d
  match sp.mode with
  | .atomic .. => s
  | .input isDone feed finish =>
    let p := feed (b.putDesc r d1) r d1 data
    let b2 := p.1.putDesc r p.2
    if !isDone p.2 then b2.moreUnits r p.2 else concludeRes r (finish (b2.releaseEngine r) r p.2)
  | .output total dest make finish =>
    let e := unitsEnd (dest d1) d1.done u (total d1)
    let n := e - d1.done
    let p := make b d1 d1.done n
    let b1 := if n = 0 then b else p.1.putOut (.host r.iface (dest d1 + d1.done) (p.2.take n))
    let d2 := { d1 with done := e, buf := if n = 0 then d1.buf else p.2.drop n }
    let b2 := b1.putDesc r d2
    if e < total d2 then b2.moreUnits r d2 else concludeRes r (finish (b2.releaseEngine r) r d2)

/-- The STREAMED host commands, with their data or units (11 R293). -/
def streamSpec : Instr → Option (CmdSpec × CmdRef × List Byte × Nat)
  | .tableBulkLoad r data => some (specTableBulkLoad, r, data, 0)
  | .fmemRestore r data => some (specFmemRestore, r, data, 0)
  | .fwStage r data => some (specFwStage, r, data, 0)
  | .fmemSave r u => some (specFmemSave, r, [], u)
  | .teleCounters r u => some (specTeleCounters, r, [], u)
  | .teleHwm r u => some (specTeleHwm, r, [], u)
  | .diagRead r u => some (specDiagRead, r, [], u)
  | _ => none

/-- The host commands that are ATOMIC or carry no data, with what each is carried out by (11 Table 11-5). -/
def hostSpec : Instr → Option (CmdSpec × CmdRef × List Byte)
  | .tableWrite r data => some (specTableWrite, r, data)
  | .tableFlip r => some (specTableFlip, r, [])
  | .groupCreate r data => some (specGroupCreate, r, data)
  | .groupExtend r data => some (specGroupExtend, r, data)
  | .groupFence r data => some (specFence 3 true, r, data)
  | .groupUnfence r data => some (specFence 4 false, r, data)
  | .groupDestroy r => some (specGroupDestroy, r, [])
  | .ctxPolicySlot r data => some (specPolicySlot, r, data)
  | .ctxPolicyOpen r => some (specPolicyOpen, r, [])
  | .ctxAbort r => some (specCtxAbort, r, [])
  | .fmemCreate r => some (specFmemCreate, r, [])
  | .fmemMirror r lost => some (specFmemMirror lost, r, [])
  | .fmemDestroy r => some (specFmemDestroy, r, [])
  | .portMode r => some (specPortMode, r, [])
  | .portAdmin r => some (specPortAdmin, r, [])
  | .portBypassSet r data => some (specBypass, r, data)
  | .portHold r data => some (specHold, r, data)
  | .portRelease r data => some (specRelease, r, data)
  | .powerSetCap r => some (specSetCap, r, [])
  | .teleStream r data => some (specTeleStream, r, data)
  | .secChallenge r => some (specChallenge, r, [])
  | .secOpen r data sigOk => some (specOpen sigOk, r, data)
  | .secBind r => some (specBind, r, [])
  | .secElevate r data sigOk => some (specElevate sigOk, r, data)
  | .secClose r => some (specClose, r, [])
  | .secTakeover r => some (specTakeover, r, [])
  | .secRelease r => some (specRelease_, r, [])
  | .fwActivate r sigOk => some (specFwActivate sigOk, r, [])
  | .diagRestartDataplane r => some (specRestartDataplane, r, [])
  | _ => none

/-- The body without its reports and without the management port's mailboxes. -/
def Body.quietBox (s : Body) : Body := { s.quiet with sec := { s.quiet.sec with mgmtBoxes := [] } }

/-- Mailbox operation `op` is the one that runs in mailbox `m`, its request allowed (13 Table 13-1) and not aborted. -/
structure MbReady (s : State) (m : MbRef) (op : Nat) : Prop where
  serves : s.serves = true
  running : (s.toBody.mbox m).state = .running
  opIs : (s.toBody.mbox m).reqOp.toNat = op
  up : s.planes.mgmtRestart = false
  kept : (s.toBody.mbox m).dropAnswer = false
  allowed : mbAllowed op (s.toBody.mbox m).reqRole (s.toBody.mbox m).reqContact = true

/-- The operation of mailbox `m` has ended with this status and answer: held for reading in a BAR0 mailbox, part 0 first; sent
at once, its first part at least, on the management port (13 R343; 16 R410). -/
def Body.answered (s : Body) (m : MbRef) (status : Nat) (ans : List Byte) : Prop :=
  match m with
  | .hif i =>
    let b := (s.ifc i).mailbox
    b.state = .answer ∧ b.status = BitVec.ofNat 8 status ∧ b.part = 0 ∧ b.ans = ans
      ∧ b.data.take (min ans.length partMax) = ans.take partMax
  | .mgmt a p => Out.mgmt a p (BitVec.ofNat 8 status) (ans.take partMax) ∈ s.out

/-- The variant has logical port `l`, links run (15 Table 15-6), and no originated frame waits for cells (03 R73). -/
structure LinkReady (s : State) (l : Nat) : Prop where
  fitted : physOf l < s.hw.ports
  lit : s.toBody.linksRun = true
  none_waits : s.fwc.origWait = []

/-- The data plane runs (01 Table 1-5), and no originated frame waits for cells (03 R73). -/
structure DataReady (s : State) : Prop where
  runs : s.toBody.dataRuns = true
  none_waits : s.fwc.origWait = []

/-- Class `c` of port `l` takes a frame as it comes: nothing queued, no profile's threshold or length reached (03 R77, R91), neither its
class nor stream group 0 metered (05 R137), the port not held. -/
structure Calm (s : Body) (l c : Nat) : Prop where
  empty : ∀ e ∈ s.tms.queue, e.lport ≠ l
  average : mgetD s.tms.avg (8 * l + c) 0 = 0
  low : ∀ k, k < 3 → 0 < (s.congProfile l c k).minTh ∧ 36 ≤ (s.congProfile l c k).qmax
  node : (nodeOf (s.classNode l c)).mode = 0
  profile : (nodeOf (s.streamProfile 0)).mode = 0
  out : (s.lp l).hold = none

/-- The unit a dispatch of Sett `n` takes: the first in the order of R276 among those free to run whose charge fits (10 R275). -/
def Body.choice (s : Body) (n : Nat) : Option (Ctx × Group × Stage × WorkUnit × Nat × Nat) :=
  best (fun a b => s.workBefore a.1 b.1) (((s.unitsOf n).filter fun u => s.unitFree u.1 u.2.2.1 u.2.2.2.1).filter fun u =>
    unitCharge u.2.2.2.2.1 u.2.2.2.2.2 (s.sett n).sclk ≤ (s.sett n).energy)

/-- A whole frame for context `k` waits in the buffer. -/
structure ForSett (s : Body) (fid : Nat) (k : CtxKey) (f : BufFrame) (r : Rest) : Prop where
  found : s.frame fid = some f
  here : f.here = some (.sett k)
  rest : f.rest = some r

/-- What a loss of power leaves (14 Table 14-4): keys, cells, profiles and the audit chain stay; contexts, windows, tables, sessions, hall
time and held events are gone. -/
def Body.lostPower (b t : Body) : Prop :=
  t.power.state = .unpowered ∧ t.power.fetOn = false ∧ t.coll = {} ∧ t.mss = {} ∧ t.tables = {} ∧ t.fwc = {} ∧ t.clock = {}
  ∧ t.sec.sessions = [] ∧ t.sec.challenges = [] ∧ t.counters = [] ∧ t.events = []
  ∧ t.sec.operKeys = b.sec.operKeys ∧ t.sec.instKeys = b.sec.instKeys ∧ t.sec.fw = b.sec.fw ∧ t.sec.audit.chain = b.sec.audit.chain
  ∧ t.portage.cells = b.portage.cells ∧ t.portage.wear = b.portage.wear ∧ t.profiles = b.profiles

end Sys2Proof.Machine
end

