-- ==== Sys2Proof/Certificates/Slice0/Obligations.lean ====
section
/-! DEFINITION. The statements for the provers, one `def Obligations.<Name> : Prop` each. -/
open Sys2Proof Sys2Proof.Machine

/-! ### The block as a whole -/

/-- A step takes the command at the front of the queue and is `exec` of it on the rest (the model's queue, entry 8). -/
def Obligations.StepRunsFront : Prop :=
  ∀ (c : Instr) (rest : List Instr) (s : State),
    Machine.step { s with pending := c :: rest } = Machine.exec c { s with pending := rest }

/-- On an empty queue hall time counts one nanosecond while the IOD is powered, steered by at most 2^-16 ns; once a microsecond, while
the data plane runs, the ports that press back and the full logs are counted and pods with a path again shown; nothing else changes
(the model's own tick, entry 7; 13 R361, 14 R385). -/
def Obligations.IdleCountsHallTime : Prop :=
  ∀ s : State, s.pending = [] →
    ∃ k : Clock, (let b : Body := { s.toBody with clock := k }
        Machine.step s = .next { s with toBody :=
          if k.ns.toNat / 1000 = s.clock.ns.toNat / 1000 ∨ s.toBody.dataRuns = false then b else b.pressTick.logTick.pathsBack })
      ∧ (s.power.state = .unpowered ∨ s.power.state = .precharge → k = s.clock)
      ∧ (s.power.state ≠ .unpowered → s.power.state ≠ .precharge →
          k.state = s.clock.state ∧ k.dist = s.clock.dist ∧ k.parent = s.clock.parent
          ∧ (s.clock.ns.toNat + 2 < 2 ^ 64 →
              let was := s.clock.ns.toNat * 65536 + s.clock.frac.toNat
              let is := k.ns.toNat * 65536 + k.frac.toNat
              was + 65535 ≤ is ∧ is ≤ was + 65537 ∧ (s.clock.parent = none → is = was + 65536)))

/-- No command is refused; one stops only on hardware that the variant of its IOD fuses does not have, so none does on a
GRN-SH512-M20, which has every part (00 R4, R5; 17 R417); and none reads or writes the queue of waiting commands (entry 8). -/
def Obligations.EveryCommandGoesOn : Prop :=
  ∀ (c : Instr) (s : State),
    (∀ r, Machine.exec c s ≠ .refused r) ∧ (∀ f, Machine.exec c s = .fault f → s.lacks f) ∧ (s.hw = .m20 → goesOn (Machine.exec c s))
    ∧ (∀ t, Machine.exec c s = .next t → t.pending = s.pending)

/-- Over every step a written fuse bit stays written, and nothing outside REPAIR changes (15 "Fuses", R388). -/
def Obligations.FusesOnlyGrow : Prop :=
  ∀ (f0 : List (BitVec 8192)) (s t : State), fusesGrow f0 s.fuses → sameButRepair f0 s.fuses →
    Machine.step s = .next t → fusesGrow f0 t.fuses ∧ sameButRepair f0 t.fuses

/-- At reset the fuse invariant holds, the fuses being those of a sealed GRN-SH512-M20 (the model's choice of variant, entry 1); the
module is in P0 with every field at its reset value (00 R11; 16 Tables 16-2 to 16-5), no memory written, no command waiting. -/
def Obligations.ResetState : Prop :=
  let s := State.reset
  fusesGrow s.fuses s.fuses ∧ sameButRepair s.fuses s.fuses ∧ s.fuses.length = 6 ∧ s.hw = .m20 ∧ (∀ b ∈ s.fuses, bit b 8159 = true)
    ∧ s.power.state = .bringup ∧ s.power.phase = 0
    ∧ (let p := s.lantern
       p.gen = 0 ∧ p.stopPhase = 0 ∧ p.stopCause = 0 ∧ p.featureLevel = 0xF ∧ p.die = 0xFF ∧ p.stack = 0xFF ∧ p.subsys = 0 ∧ p.partno = 0
       ∧ p.stepping = 0xFFFFFF ∧ p.serial = 0 ∧ p.oeMissing = 0 ∧ p.stacksLost = 0 ∧ p.profileStatus = 0 ∧ p.slotFallback = 0
       ∧ p.portageInconsistent = 0 ∧ p.infra = 0)
    ∧ (∀ i, let f := s.toBody.ifc i
       f.pollT = 1000 ∧ f.priTimeout = 100 ∧ f.errMask = 0 ∧ f.crError = 0 ∧ f.cqError = 0 ∧ f.rejectCode = 0 ∧ f.rejectOffset = 0 ∧ f.dbBase = 0
       ∧ (∀ g, (f.ring g).base = 0 ∧ (f.ring g).enable = false ∧ (f.ring g).state = .disabled ∧ (f.ring g).session = 0)
       ∧ (∀ q, (f.cq q).base = 0 ∧ (f.cq q).enable = false) ∧ f.evt.enable = false ∧ f.tel.enable = false)
    ∧ s.clock.ns = 0 ∧ s.clock.state = .free ∧ s.coll.ctxs = [] ∧ s.mss.mem = [] ∧ s.sec.sessions = [] ∧ s.pending = []

/-- HCRC is the CRC-16 of 02 R39: from 0xFFFF, by 0x1021, not reflected, no final XOR, over bytes 0 to 13 of the header from byte 0 on. -/
def Obligations.HcrcIsThatOfTheManual : Prop :=
  let shift := fun (c : Nat) => if c < 0x8000 then 2 * c else (2 * c) ^^^ 0x11021
  crc16 [] = 0xFFFF
    ∧ (∀ (l : List Byte) (b : Byte), crc16 l < 0x10000
        ∧ crc16 (l ++ [b]) = shift (shift (shift (shift (shift (shift (shift (shift (crc16 l ^^^ (b.toNat * 256))))))))))
    ∧ crc16 (ascii "123456789") = 0x29B1
    ∧ (∀ h : Hdr, (hcrcOf h).toNat = crc16 (hdrBytes h) ∧ (hdrBytes h).length = 14
        ∧ (let n := fun (x : Bool) => if x then 1 else 0
           beNat (hdrBytes h) = h.dst.toNat * 2 ^ 80 + h.src.toNat * 2 ^ 48
            + (h.ver.toNat * 4096 + h.opc.toNat * 256 + h.vl.toNat * 32 + n h.spec * 16 + n h.ce * 8 + h.colour.toNat * 2 + n h.ext) * 2 ^ 32
            + (n h.ackreq * 32768 + n h.retx * 16384 + n h.first * 8192 + n h.last * 4096 + h.len.toNat) * 2 ^ 16 + h.tag.toNat))

/-- Roles rank operator below installer below maker, for TAKEOVER alone; every command and operation is open to just the roles of its
row of Table 13-1, whatever their rank (13 R336). -/
def Obligations.RolesRankForTakeoverAlone : Prop :=
  (roleRank .operator < roleRank .installer ∧ roleRank .installer < roleRank .maker)
  ∧ (∀ (s : Body) (r : CmdRef) (d : Desc), roleRank d.role < roleRank (s.roleOf (s.ringOf (tkOld r d)).session) → specTakeover.pre s r d = 3)
  ∧ (∀ (d : Desc) (r : Role),
      let only := fun (l : List Role) => d.allowed r = true ↔ r ∈ l
      let all := [Role.operator, .installer, .maker]
      (d.cls = 0 → only [.installer]) ∧ (d.cls = 1 ∨ d.cls = 2 ∨ d.cls = 3 → only [.operator])
      ∧ (d.cls = 4 → d.op = 4 → only [.installer, .maker]) ∧ (d.cls = 4 → d.op ≠ 4 → only [.installer])
      ∧ (d.cls = 5 → only [.installer]) ∧ (d.cls = 6 → only all)
      ∧ (d.cls = 7 → d.op = 1 ∨ d.op = 2 → d.allowed r = true) ∧ (d.cls = 7 → d.op ≠ 1 → d.op ≠ 2 → only all)
      ∧ (d.cls = 8 → only [.installer, .maker])
      ∧ (d.cls = 9 → d.op = 1 → d.f 2 7 0 ∈ [2, 3, 7, 8] → only all) ∧ (d.cls = 9 → d.op = 1 → d.f 2 7 0 ∉ [2, 3, 7, 8] → only [.installer, .maker])
      ∧ (d.cls = 9 → d.op = 2 → only [.installer]))
  ∧ (∀ (r : Role) (contact : Bool),
      (∀ op ∈ [1, 2, 0x10, 0x11], mbAllowed op r contact = true) ∧ (∀ op ∈ [3, 4, 0x12, 0x13], mbAllowed op r contact = true ↔ r ≠ .none)
      ∧ (∀ op ∈ [0x21, 0x22, 0x23, 0x24, 0x25, 0x26], mbAllowed op r contact = true ↔ r = .installer)
      ∧ mbAllowed 0x20 r contact = contact ∧ ∀ op ∈ [0x30, 0x31, 0x32], mbAllowed op r contact = true ↔ r = .maker ∧ contact = true)

/-! ### Host commands (11) -/

/-- A host command of one access that may start (11 R290) and meets no earlier status of Table 11-8 is carried out at once:
its own effect, then its audit record and its one completion (11 R295), which are reports. -/
def Obligations.ReadyHostCommandsRun : Prop :=
  ∀ (c : Instr) (sp : CmdSpec) (r : CmdRef) (data : List Byte) (s : State) (d : Desc),
    hostSpec c = some (sp, r, data) → Ready sp s.toBody r d data → s.tables.waiting = [] →
      let b := s.toBody.atRun sp r d data
      let res := sp.run b r (s.toBody.runDesc sp r d data) (s.toBody.runDesc sp r d data).buf
      (res.s.tables.waiting = [] → becomes c s (concludeRes r res)) ∧ (concludeRes r res).quiet = res.s.quiet

/-- PORT PREPARE_REMOVE is two rows of the table, by the SCOPE its descriptor has: a cartridge (SCOPE 1) drains its ports, and
the module (SCOPE 0) enters REMOVING, the command completing later (06 R156; 14 R377). -/
def Obligations.PrepareRemoveRuns : Prop :=
  ∀ (r : CmdRef) (s : State) (d : Desc), Ready specPrepare s.toBody r d [] →
    let b := s.toBody.atRun specPrepare r d []
    let e := s.toBody.runDesc specPrepare r d []
    (removeScope d = 1 → becomes (.portPrepareRemoveCartridge r) s (concludeRes r (cartRun b r e [])))
    ∧ (removeScope d = 0 → becomes (.portPrepareRemoveModule r) s (b.enterRemoving r)
        ∧ (b.enterRemoving r).power.state = .removing ∧ (b.enterRemoving r).power.removeCmd = some r)

/-- A streamed command that starts moves its first data (11 R293): inward, what has come is fed to it and it completes when it
is done; outward, the units named are written at its destination, and it completes with the last. -/
def Obligations.StreamedHostCommandsRun : Prop :=
  ∀ (c : Instr) (sp : CmdSpec) (r : CmdRef) (data : List Byte) (u : Nat) (s : State) (d : Desc),
    streamSpec c = some (sp, r, data, u) → Streams sp s.toBody r d → (sp.moves s.toBody r d data u).tables.waiting = [] →
      becomes c s (sp.moves s.toBody r d data u)

/-- Data for the host leaves as one write at the destination the descriptor names, each byte as the command defines it, and a
save or read changes nothing but reports and the records that TELE HWM clears with its read (11 Table 11-5; 05 R140). -/
def Obligations.ReadsWriteHostMemory : Prop :=
  ∀ (r : CmdRef) (u : Nat) (s : State) (d : Desc),
    let b := s.toBody
    let all := fun n => 0 < n ∧ unitsEnd (d.word 3) 0 u n = n
    (∀ w, Streams specFmemSave b r d → b.win (fmWid d) = some w → all (fmLen d) →
      ∃ t, exec (.fmemSave r u) s = .next t ∧ t.toBody.quiet = b.quiet
        ∧ Out.host r.iface (d.word 3) (b.winRead w (fmOff d) (fmLen d)) ∈ t.out)
    ∧ (Streams specTeleCounters b r d → all (8 * teleCount d) →
      ∃ t, exec (.teleCounters r u) s = .next t ∧ t.toBody.quiet = b.quiet
        ∧ Out.host r.iface (d.word 3) (b.counterBytes (teleFirst d) (teleCount d)) ∈ t.out)
    ∧ (Streams specTeleHwm b r d → all (32 * hwmCount d) →
      ∃ t, exec (.teleHwm r u) s = .next t ∧ { t.toBody with tms := b.tms }.quiet = b.quiet
        ∧ Out.host r.iface (d.word 3) ((List.range (hwmCount d)).flatMap fun j => leBytes 32 (b.hwm d (hwmFirst d + j)).word) ∈ t.out
        ∧ (∀ j, hwmClear d = true → j < hwmCount d → t.toBody.hwm d (hwmFirst d + j) = {})
        ∧ (hwmClear d = false → t.tms = b.tms))
    ∧ (Streams specDiagRead b r d → all (diagBytes (diagObj d) * diagCount d) →
      ∃ t, exec (.diagRead r u) s = .next t ∧ t.toBody.quiet = b.quiet
        ∧ Out.host r.iface (d.word 3)
            ((List.range (diagCount d)).flatMap fun j => leBytes (diagBytes (diagObj d)) (b.diagWord d (diagFirst d + j))) ∈ t.out)

/-- A host command refused by its descriptor (BAD_DESC), its role (ROLE_DENIED) or a later status completes with that status,
DATA0 = 0, and DATA1 = 0 but with STATE_LOST, and has no effect (11 Table 11-8, R295; 13 R335). -/
def Obligations.RefusedHostCommandsDoNothing : Prop :=
  ∀ (c : Instr) (sp : CmdSpec) (r : CmdRef) (data : List Byte) (s : State) (d : Desc),
    hostSpec c = some (sp, r, data) → s.tables.waiting = [] →
    s.toBody.desc r = some d → d.cls = sp.cls → d.op = sp.op → s.toBody.startable r = true →
    d.headerOk ((s.toBody.ifc r.iface).cq d.cqn).format = true →
      let b := s.toBody
      let started := b.putDesc r (b.begun r d)
      (sp.bad0 b r (b.begun r d) = true → becomes c s (started.completeRef r 4 0 0) ∧ (started.completeRef r 4 0 0).quiet = b.quiet)
      ∧ (sp.bad0 b r (b.begun r d) = false → d.allowed (b.roleOf (b.ringOf r).session) = false →
          becomes c s (started.completeRef r 3 0 0) ∧ (started.completeRef r 3 0 0).quiet = b.quiet)
      ∧ (∀ st, Refused sp b r d data st →
          let e := b.runDesc sp r d data
          let after := (b.atRun sp r d data).completeRef r st 0 (if st = 10 then e.step0.toNat else 0)
          becomes c s after ∧ after.quiet = b.quiet)

/-- TABLE FLIP changes the active bank of every table it names and of no other, and the contents of no bank. -/
def Obligations.TableFlipChangesNamedBanks : Prop :=
  ∀ (r : CmdRef) (s : State) (d : Desc), Ready specTableFlip s.toBody r d [] →
    ∃ t, exec (.tableFlip r) s = .next t ∧
      (let named := fun n => (flipIds d).contains n
       let x := s.tables
       t.tables = { x with
         pod := x.pod.flipIf (named 1), rack := x.rack.flipIf (named 2), loc := x.loc.flipIf (named 3), gw := x.gw.flipIf (named 5)
         portNode := x.portNode.flipIf (named 0x10), classNode := x.classNode.flipIf (named 0x11)
         pcpMap := x.pcpMap.flipIf (named 0x11), streamMap := x.streamMap.flipIf (named 0x12)
         profile := x.profile.flipIf (named 0x13), cong := x.cong.flipIf (named 0x14) })

/-- TABLE WRITE leaves every active bank as it was; a rack, stream-map or profile entry reads back from the shadow bank, and no
other entry of it changes (04 R96, R123). -/
def Obligations.TableWriteStaysInTheShadow : Prop :=
  ∀ (r : CmdRef) (data : List Byte) (s : State) (d : Desc), Ready specTableWrite s.toBody r d data → s.tables.waiting = [] →
    let tbl := d.f 2 7 0
    let idx := d.f 2 63 32
    let e := leNat (data.take (tableBytes tbl idx))
    ∃ t, exec (.tableWrite r data) s = .next t
      ∧ t.tables.pod.act = s.tables.pod.act ∧ t.tables.rack.act = s.tables.rack.act ∧ t.tables.loc.act = s.tables.loc.act
      ∧ t.tables.gw.act = s.tables.gw.act ∧ t.tables.portNode.act = s.tables.portNode.act
      ∧ t.tables.classNode.act = s.tables.classNode.act ∧ t.tables.pcpMap.act = s.tables.pcpMap.act
      ∧ t.tables.streamMap.act = s.tables.streamMap.act ∧ t.tables.profile.act = s.tables.profile.act
      ∧ t.tables.cong.act = s.tables.cong.act ∧ t.tables.group = s.tables.group ∧ t.tables.settSel = s.tables.settSel
      ∧ (tbl = 2 → ∀ j, mget t.tables.rack.shadow j = if j = idx then some (BitVec.ofNat 576 e) else mget s.tables.rack.shadow j)
      ∧ (tbl = 0x12 → ∀ j, mget t.tables.streamMap.shadow j =
          if j = idx then some (BitVec.ofNat 32 e) else mget s.tables.streamMap.shadow j)
      ∧ (tbl = 0x13 → ∀ j, mget t.tables.profile.shadow j =
          if j = idx then some (BitVec.ofNat 256 e) else mget s.tables.profile.shadow j)

/-- GROUP UNFENCE with a greater epoch clears FENCED and sets FEPOCH of each named rank that was fenced, sets the group's EPOCH
and LIVE counts, and touches no other group, no context and no stage (08 Table 8-5, R201). -/
def Obligations.GroupUnfenceClearsFences : Prop :=
  ∀ (r : CmdRef) (data : List Byte) (s : State) (d : Desc) (i : Nat) (g : Group),
    Ready (specFence 4 false) s.toBody r d data → s.toBody.groupIndex (grpAddr d) = some i → mget s.coll.groups i = some g →
    g.addr = grpAddr d →
    ∃ t g', exec (.groupUnfence r data) s = .next t
      ∧ t.toBody.quiet = { s.toBody with coll := { s.coll with groups := mset s.coll.groups i g' } }.quiet
      ∧ g.epoch.toNat < (grpEpoch d).toNat ∧ g'.epoch = grpEpoch d ∧ g'.addr = g.addr ∧ g'.policies = g.policies
      ∧ g'.members.length = g.members.length
      ∧ (∀ k ∈ rankRecs d (data.take (4 * memCount d)), (g'.member k).fenced = false
          ∧ (g'.member k).fepoch = if (g.member k).fenced then grpEpoch d else (g.member k).fepoch)
      ∧ (∀ e ∈ g'.repl, e.kind = 0 → e.live = g'.liveIn e.target)
      ∧ (∀ k, k ∉ rankRecs d (data.take (4 * memCount d)) → g'.members[k]? = g.members[k]?)

/-- CTX POLICY of a slot writes that slot of the named group, or clears it, and nothing else (11 Table 11-5; 08 R203). -/
def Obligations.CtxPolicyWritesItsSlot : Prop :=
  ∀ (r : CmdRef) (data : List Byte) (s : State) (d : Desc) (i : Nat) (g : Group),
    Ready specPolicySlot s.toBody r d data → s.toBody.groupIndex (grpAddr d) = some i → mget s.coll.groups i = some g →
    g.addr = grpAddr d →
    let new := polOf (s.toBody.startDesc specPolicySlot r d) (s.toBody.runDesc specPolicySlot r d data).buf
    polClear d = true ∨ (s.variant.hasFmem = true ∧ s.toBody.room 0 0 new.bytes false = .fits)
      ∨ (s.variant.hasFmem = false
        ∧ s.coll.groups.foldl (fun a x => x.2.policies.foldl (fun a q => a + q.2.bytes) a) 0 + new.bytes ≤ 2097152) →
    ∃ t, exec (.ctxPolicySlot r data) s = .next t
      ∧ t.toBody.quiet = { s.toBody with coll := { s.coll with groups := mset s.coll.groups i { g with
          policies := if polClear d then mdel g.policies (polSlot d)
            else mset g.policies (polSlot d) new } } }.quiet

/-- POWER SET_CAP sets the cap to WATTS; SEC CLOSE ends the named session and no other; FMEM DESTROY frees the window and no
other; SEC CHALLENGE replaces the ring's outstanding challenge by 64 new bytes, which go to the host (11 Table 11-5; 13 R340). -/
def Obligations.SmallHostCommands : Prop :=
  ∀ (r : CmdRef) (s : State) (d : Desc),
    let b := s.toBody
    (Ready specSetCap b r d [] → runsTo (.powerSetCap r) s { b with budget := { b.budget with cap := capWatts d } })
    ∧ (Ready specClose b r d [] → runsTo (.secClose r) s
        { b with sec := { b.sec with sessions := b.sec.sessions.filter fun x => x.id != secSession d } })
    ∧ (Ready specFmemDestroy b r d [] → runsTo (.fmemDestroy r) s
        { b with mss := { b.mss with windows := mdel b.mss.windows (fmWid d) } })
    ∧ (Ready specChallenge b r d [] → ∃ (bytes : List Byte) (t : State), exec (.secChallenge r) s = .next t ∧ bytes.length = 64
        ∧ Out.host r.iface (d.word 3) bytes ∈ t.out
        ∧ t.toBody.quiet = ({ b with sec := { b.sec with challenges :=
            (b.sec.challenges.filter fun (x : Challenge) => !x.at (.hif r.iface) (some r.ring))
              ++ [(⟨.hif r.iface, some r.ring, bytes⟩ : Challenge)] } } : Body).quiet)

/-- FMEM CREATE that finds room places the window in a free run of 2 MiB units, ACTIVE, its bytes 0, every byte outside that
run as it was, and every other window as it was (09 R228, Table 9-2). -/
def Obligations.FmemCreateFillsWithZeros : Prop :=
  ∀ (r : CmdRef) (s : State) (d : Desc) (base : Nat), Ready specFmemCreate s.toBody r d [] →
    s.toBody.findRun (ceilDiv (fmSize d) unitBytes) = some base →
    ∃ t w, exec (.fmemCreate r) s = .next t ∧ t.mss.windows = mset s.mss.windows (fmWid d) w
      ∧ s.toBody.win (fmWid d) = none ∧ w = { fmWindow d with base, units := ceilDiv (fmSize d) unitBytes }
      ∧ w.state = .active ∧ w.lastStep = 0
      ∧ (∀ a, Memory.get t.mss.mem a =
          if base * unitBytes ≤ a ∧ a < base * unitBytes + ceilDiv (fmSize d) unitBytes * unitBytes then 0 else Memory.get s.mss.mem a)

/-! ### Mailboxes (13, 16) -/

/-- A write of MB_DOOR with one bit: GO takes the part in MB_REQ, NEXT turns to the answer's next part or ends it, ABORT leaves the
mailbox IDLE or its running operation without an answer (16 R410, R411); a part on the management port is taken like one at GO
(13 R343). -/
def Obligations.MailboxDoorbells : Prop :=
  ∀ (s : State), s.serves = true →
    (∀ i, let b := (s.toBody.ifc i).mailbox
      (∀ v, fld v 2 0 ||| 1 = 1 → b.goRefused b.first = none → becomes (.mailboxGo i v) s
        (s.toBody.mbPart (.hif i) b { session := b.session, op := b.op, first := b.first, last := b.last, data := b.data.take b.partLen.toNat }))
      ∧ (∀ v, fld v 2 0 ||| 2 = 2 → b.state = .answer →
        ∃ t, exec (.mailboxNext i v) s = .next t ∧ t.toBody.quiet = s.toBody.quiet
          ∧ (let x := (t.toBody.ifc i).mailbox
             if partMax * (b.part + 1) < b.ans.length
             then x.state = .answer ∧ x.part = b.part + 1 ∧ x.ans = b.ans ∧ x.refused = 0
               ∧ x.data.take (min partMax (b.ans.length - partMax * (b.part + 1))) = (b.ans.drop (partMax * (b.part + 1))).take partMax
             else x.state = .idle ∧ x.ans = [] ∧ x.refused = 0))
      ∧ (∀ v, fld v 2 0 ||| 4 = 4 →
        ∃ t, exec (.mailboxAbort i v) s = .next t ∧ t.toBody.quiet = s.toBody.quiet
          ∧ (let x := (t.toBody.ifc i).mailbox
             if b.state = .running then x.state = .running ∧ x.dropAnswer = true else x.state = .idle)))
    ∧ (∀ addr port (part : MbPart), part.data.length ≤ partMax →
        (s.toBody.mbox (.mgmt addr port)).goRefused part.first = none →
        becomes (.mgmtPortDatagram addr port part) s (s.toBody.mbPart (.mgmt addr port) (s.toBody.mbox (.mgmt addr port)) part))

/-- A part that comes: the first starts a request with its session and OP, later ones add their bytes; after the last, the
operation runs, or is answered BAD_DESC when its OP is none of Table 13-2 or the request is over 1 MiB (16 R410). -/
def Obligations.MailboxPartsGather : Prop :=
  ∀ (s : Body) (i : Fin 2) (b : Mailbox) (p : MbPart), b.tooLong = false →
    let whole := if p.first then p.data else b.req ++ p.data
    let x := ((s.mbPart (.hif i) b p).ifc i).mailbox
    whole.length ≤ 1048576 →
      x.reqSession = (if p.first then p.session else b.reqSession) ∧ x.reqOp = (if p.first then p.op else b.reqOp)
      ∧ (p.last = false → x.state = .receiving ∧ x.req = whole)
      ∧ (p.last = true → mbOps.contains x.reqOp.toNat = true → x.state = .running ∧ x.req = whole)
      ∧ (p.last = true → mbOps.contains x.reqOp.toNat = false → x.state = .answer ∧ x.status = 4 ∧ x.ans = [])

/-- Session operations of a mailbox (13 Table 13-2, R340-R342): CHALLENGE answers 64 new bytes, OPEN the ID of a new session, not 0
and held by no open session, ELEVATE raises a session's role, CLOSE ends it. -/
def Obligations.MailboxSessions : Prop :=
  ∀ (s : State) (m : MbRef),
    let b := s.toBody.mbox m
    let x := s.sec
    let others := x.challenges.filter fun (c : Challenge) => !c.at m none
    (MbReady s m 1 → b.req = [] → ∃ (bytes : List Byte) (t : State), exec (.mailboxChallenge m) s = .next t ∧ bytes.length = 64
      ∧ t.toBody.answered m 0 bytes
      ∧ t.toBody.quietBox = ({ s.toBody with sec := { x with challenges := others ++ [(⟨m, none, bytes⟩ : Challenge)] } } : Body).quietBox)
    ∧ (∀ sigOk, MbReady s m 2 → b.req.length = proofBytes → s.toBody.proofOk m none b.req sigOk = true → s.toBody.lockedOut m = false →
      x.sessions.length < 256 →
      ∃ (id : W32) (t : State), exec (.mailboxOpen m sigOk) s = .next t ∧ t.toBody.answered m 0 (leBytes 4 id.toNat)
        ∧ id ≠ 0 ∧ (∀ y ∈ x.sessions, y.id ≠ id)
        ∧ (let new : Session := ⟨id, roleOfCode (proofRole b.req), BitVec.ofNat 16 (proofKey b.req), roleOfCode (proofRole b.req), some m⟩
           t.toBody.quietBox = ({ s.toBody with sec := { x with challenges := others, sessions := x.sessions ++ [new] } } : Body).quietBox))
    ∧ (∀ sigOk, MbReady s m 3 → b.req.length = 4 + proofBytes → mbOwn b = true →
      s.toBody.proofOk m none (b.req.drop 4) sigOk = true → s.toBody.lockedOut m = false →
      (s.toBody.session b.reqSession).any (fun y => roleRank y.role < roleRank (roleOfCode (proofRole (b.req.drop 4)))) = true →
      ∃ t, exec (.mailboxElevate m sigOk) s = .next t ∧ t.toBody.answered m 0 []
        ∧ (let raise := fun (y : Session) =>
             if y.id = b.reqSession then { y with role := roleOfCode (proofRole (b.req.drop 4)) } else y
           t.toBody.quietBox = ({ s.toBody with sec := { x with challenges := others, sessions := x.sessions.map raise } } : Body).quietBox))
    ∧ (MbReady s m 4 → b.req.length = 4 → mbOwn b = true →
      ∃ t, exec (.mailboxClose m) s = .next t ∧ t.toBody.answered m 0 []
        ∧ (let left := x.sessions.filter fun (y : Session) => y.id != b.reqSession
           t.toBody.quietBox = ({ s.toBody with sec := { x with sessions := left } } : Body).quietBox))

/-- The operations that only read (13 Table 13-2, R355; 16 R413): each answers what the manual says and changes nothing but
reports: QUOTE with its signature, CERT with its signature, catalogue entries, audit records and blocks, the profile, a test's result. -/
def Obligations.MailboxReads : Prop :=
  ∀ (s : State) (m : MbRef),
    let b := s.toBody.mbox m
    let answers := fun (c : Instr) (ans : List Byte) =>
      ∃ t, exec c s = .next t ∧ t.toBody.answered m 0 ans ∧ t.toBody.quietBox = s.toBody.quietBox
    (MbReady s m 0x10 → b.req.length = 32 →
      answers (.attest m) (s.toBody.quote b.req ++ Config.signature 5 (sha384 (s.toBody.quote b.req))))
    ∧ (MbReady s m 0x11 → b.req = [] →
      let c := ascii "HLMCERT1" ++ s.toBody.serialBytes ++ Config.deviceKey
      answers (.cert m) (c ++ Config.signature 6 (sha384 c)))
    ∧ (MbReady s m 0x12 → b.req.length = 8 → answers (.catalog m)
        (((List.range (min 4096 (leAt b.req 4 4))).flatMap fun k => Config.catalogEntry (leAt b.req 0 4 + k)).take 1048576))
    ∧ (MbReady s m 0x13 → b.req.length = 12 → leAt b.req 8 4 ≤ 8192 →
      let inRange := fun q => leAt b.req 0 8 ≤ q ∧ q < leAt b.req 0 8 + leAt b.req 8 4
      answers (.auditRead m) ((((s.sec.audit.ring.filter fun r => inRange (fld r.body 63 0)).flatMap fun r =>
          auditBytes r.body ++ digestBytes r.chain)
        ++ (s.sec.audit.blocks.filter fun x => inRange x.1.toNat).flatMap fun x => x.2).take 1048576))
    ∧ (MbReady s m 0x24 → b.req = [] → answers (.profileRead m) (s.profiles.inForceRaw ++ (match s.profiles.staged with
        | some x => leBytes 8 s.profiles.refused.toNat ++ x.2 | none => [])))
    ∧ (MbReady s m 0x31 → b.req.length = 2 → answers (.mfgTest m) [Config.mfgResult (leAt b.req 0 2)])

/-- The operations that write (13 Table 13-2, R338, R339, R345, R350, R353; 16 R412; 12 Table 12-3): CLAIM enrols the first
installer key and starts a new audit chain, ENROLL and REVOKE write the key store, REVOKE ends the key's sessions, PROFILE_WRITE
stages, FW_APPROVE approves, SVN_COMMIT raises a floor and never lowers one, CLEAR_QUARANTINE clears. -/
def Obligations.MailboxWrites : Prop :=
  ∀ (s : State) (m : MbRef),
    let b := s.toBody.mbox m
    let x := s.sec
    (MbReady s m 0x20 → b.req.length = 2 + keyBytes → x.instKeys = [] →
      ∃ t, exec (.claim m) s = .next t ∧ t.toBody.answered m 0 []
        ∧ t.toBody.quietBox = ({ s.toBody with sec := { x with
            instKeys := [⟨BitVec.ofNat 16 (leAt b.req 0 2), b.req.drop 2⟩] } } : Body).quietBox
        ∧ ∃ rec_, t.sec.audit.ring.getLast? = some rec_ ∧ (s.mram.gapOwed = false → rec_.chain =
            sha384 (digestBytes (sha384 (ascii "HLMAUDG1" ++ s.toBody.serialBytes)) ++ auditBytes rec_.body)))
    ∧ (MbReady s m 0x21 → keyHeadBad b.req = false → b.req.length = 4 + (if keyKind b.req = 4 then 48 else keyBytes) →
      let key : KeyRec := ⟨BitVec.ofNat 16 (keyIdOf b.req), b.req.drop 4⟩
      let room := keyRoom (if keyKind b.req = 1 then x.operKeys else x.instKeys) key.id
      let new := if keyKind b.req = 1 then { x with operKeys := putKey x.operKeys key }
        else if keyKind b.req = 2 then { x with instKeys := putKey x.instKeys key }
        else if keyIdOf b.req = 0 then { x with plane0 := some (b.req.drop 4) } else { x with plane1 := some (b.req.drop 4) }
      keyKind b.req = 4 ∨ room = true →
      ∃ t, exec (.enroll m) s = .next t ∧ t.toBody.answered m 0 []
        ∧ t.toBody.quietBox = ({ s.toBody with sec := new } : Body).quietBox)
    ∧ (MbReady s m 0x22 → keyHeadBad b.req = false → b.req.length = 4 →
      let id := BitVec.ofNat 16 (keyIdOf b.req)
      let without := fun (l : List KeyRec) => l.filter fun k => k.id != id
      keyKind b.req = 4 ∨ (keyKind b.req = 1 ∧ (x.operKeys.any fun k => k.id == id) = true)
        ∨ (keyKind b.req = 2 ∧ (x.instKeys.any fun k => k.id == id) = true ∧ x.instKeys.length ≠ 1) →
      ∃ t, exec (.revoke m) s = .next t ∧ t.toBody.answered m 0 []
        ∧ t.sec.operKeys = (if keyKind b.req = 1 then without x.operKeys else x.operKeys)
        ∧ t.sec.instKeys = (if keyKind b.req = 2 then without x.instKeys else x.instKeys)
        ∧ t.sec.plane0 = (if keyKind b.req = 4 ∧ keyIdOf b.req = 0 then none else x.plane0)
        ∧ t.sec.plane1 = (if keyKind b.req = 4 ∧ keyIdOf b.req ≠ 0 then none else x.plane1)
        ∧ (∀ y ∈ t.sec.sessions, y ∈ x.sessions)
        ∧ (∀ y ∈ t.sec.sessions, y.key = id → (keyKind b.req = 1 → y.opened ≠ .operator) ∧ (keyKind b.req = 2 → y.opened ≠ .installer)))
    ∧ (∀ p, MbReady s m 0x23 → parseProfile s.lantern.partno.toNat b.req = some p →
      ∃ t, exec (.profileWrite m) s = .next t ∧ t.toBody.answered m 0 []
        ∧ t.toBody.quietBox = ({ s.toBody with profiles := { s.profiles with staged := some (p, b.req), refused := false } } : Body).quietBox)
    ∧ (∀ d, MbReady s m 0x25 → b.req.length = 58 + 3373 → b.req.take 8 = ascii "HLMFWAP1" →
      (x.instKeys.any fun k => k.id.toNat == leAt b.req 56 2) = true → d = BitVec.ofNat 384 (beNat ((b.req.drop 8).take 48)) →
      ∃ t, exec (.fwApprove m true) s = .next t ∧ t.toBody.answered m 0 []
        ∧ ∀ k ∈ s.toBody.kindsOf d, k < x.fw.length → d ∈ (t.toBody.image k).approvals)
    ∧ (MbReady s m 0x26 → b.req.length = 1 → leAt b.req 0 1 ≤ 3 →
      let k := leAt b.req 0 1
      let floor := if (s.toBody.image k).floor.toNat < (s.toBody.activeSlot k).svn.toNat then (s.toBody.activeSlot k).svn else (s.toBody.image k).floor
      ∃ t, exec (.svnCommit m) s = .next t ∧ t.toBody.answered m 0 (leBytes 4 floor.toNat)
        ∧ t.toBody.quietBox = (s.toBody.setImage k { s.toBody.image k with floor }).quietBox)
    ∧ (MbReady s m 0x32 → b.req.length = 1 → leAt b.req 0 1 ∈ s.mram.quarantine → leAt b.req 0 1 < 20 →
      ∃ t, exec (.clearQuarantine m) s = .next t ∧ t.toBody.answered m 0 []
        ∧ t.toBody.quietBox = ({ s.toBody with mram := { s.mram with
            quarantine := s.mram.quarantine.filter (· != leAt b.req 0 1) } } : Body).quietBox)

/-- FUSE writes only REPAIR entries whose bits are all 0 in the target block, and measurement 6 is taken anew; an image that
differs elsewhere, or in an entry already written, is answered BAD_DESC and writes nothing (15 R388, R387). -/
def Obligations.FuseWritesRepairEntries : Prop :=
  ∀ (s : State) (m : MbRef), MbReady s m 0x30 →
    let b := s.toBody.mbox m
    let n := fuseTarget b.req
    b.req.length = 1025 → n < 6 → s.fuses.length = 6 →
    ∃ t, exec (.fuse m) s = .next t
      ∧ (repairFits (nth s.fuses n 0) (fuseImage b.req) = true →
          t.toBody.answered m 0 [] ∧ t.fuses = setNth s.fuses n (nth s.fuses n 0 ||| fuseImage b.req)
          ∧ t.toBody.quietBox = ({ s.toBody with sec := { s.sec with fuseDigest := sha384 (fuseRecord t.fuses) } } : Body).quietBox)
      ∧ (repairFits (nth s.fuses n 0) (fuseImage b.req) = false →
          t.toBody.answered m 4 [] ∧ t.fuses = s.fuses ∧ t.toBody.quietBox = s.toBody.quietBox)

/-! ### Registers, rings and the DMA engine (11, 16) -/

/-- A write of ENABLE = 1 to a DISABLED ring, with its doorbell area set up and LOG2 in range, enables it: a command ring empty
from index 0, a completion, event or telemetry ring from index 0, its held completions then written (16 Tables 16-4, 16-5, 16-8). -/
def Obligations.RingsEnable : Prop :=
  ∀ (s : State) (i : Fin 2) (v : W64), s.serves = true → (s.toBody.ifc i).linkUp = true → (s.toBody.ifc i).dbBase ≠ 0 →
    let w := withBit63 v true
    let f := s.toBody.ifc i
    let log2 := BitVec.ofNat 5 (fld w 4 0)
    (∀ g : Fin 64, g.val < s.toBody.nRings → within 6 16 log2.toNat = true → (f.ring g.val).enable = false →
      (f.ring g.val).state = .disabled →
      becomes (.commandRingEnable i g v) s (s.toBody.setIfc i (f.setRing g.val { f.ring g.val with
        prio := BitVec.ofNat 2 (fld w 9 8), log2, enable := true, state := .enabled, cause := 0, fetch := 0, descs := [] })))
    ∧ (∀ c : CqSel, (∀ q, c = .cq q → q.val < s.toBody.nRings) →
      within (if (∃ q, c = .cq q) then 6 else 10) 16 log2.toNat = true →
      (f.sel c).enable = false → (f.sel c).state = .disabled →
      let format := (∃ q, c = .cq q) ∧ bit w 8 = true
      let on := s.toBody.setIfc i (f.setSel c { f.sel c with
        log2, format := decide format, enable := true, state := .enabled, cause := 0, pi := 0, ci := 0 })
      becomes (.completionRingEnable i c v) s (match c with
        | .cq q => on.drainHeld i q.val (f.sel c).held.length
        | _ => on))

/-- A write of ENABLE = 0 to an enabled ring: a command ring with nothing uncompleted ends DISABLED, one with descriptors DRAINS;
a completion ring that no uncompleted descriptor names, and the event and telemetry rings, end DISABLED (16 Table 16-8). -/
def Obligations.RingsDisable : Prop :=
  ∀ (s : State) (i : Fin 2) (v : W64), s.serves = true → (s.toBody.ifc i).linkUp = true →
    let w := withBit63 v false
    let f := s.toBody.ifc i
    let log2 := BitVec.ofNat 5 (fld w 4 0)
    (∀ g : Fin 64, g.val < s.toBody.nRings → within 6 16 log2.toNat = true → log2 = (f.ring g.val).log2 → (f.ring g.val).enable = true →
      (f.ring g.val).state = .enabled →
      let x := { f.ring g.val with prio := BitVec.ofNat 2 (fld w 9 8), log2, enable := false }
      becomes (.commandRingDisable i g v) s (s.toBody.setIfc i (f.setRing g.val
        (if (f.ring g.val).descs = [] then { x with state := .disabled, cause := 0 } else { x with state := .draining }))))
    ∧ (∀ q : Fin 64, q.val < s.toBody.nRings → within 6 16 log2.toNat = true → log2 = (f.cq q.val).log2 → (f.cq q.val).format = bit w 8 →
      (f.cq q.val).enable = true → s.toBody.namedCq i q.val = false →
      becomes (.completionRingDisable i q v) s (s.toBody.setIfc i (f.setCq q.val
        { f.cq q.val with log2, format := bit w 8, enable := false, state := .disabled, cause := 0 })))
    ∧ (∀ tel : Bool, let c := if tel then CqSel.tel else CqSel.evt
      within 10 16 log2.toNat = true → log2 = (f.sel c).log2 → (f.sel c).format = false → (f.sel c).enable = true →
      becomes (.eventRingDisable i tel v) s (s.toBody.setIfc i (f.setSel c
        { f.sel c with log2, format := false, enable := false, state := .disabled, cause := 0 })))

/-- Register writes (16 Tables 16-3 to 16-6, R399, R400): POLL_T, PRI_TIMEOUT, DB_BASE and ERR_MASK take their values; a value out
of range is refused with REG_REJECT, its offset and code kept while the flag was clear; a misaligned or reserved offset, and any
write before P5, changes nothing. -/
def Obligations.RegisterWrites : Prop :=
  ∀ (s : State) (i : Fin 2) (v : W64),
    let f := s.toBody.ifc i
    let on := s.serves = true ∧ f.linkUp = true
    (on → within 250 100000 (fld v 16 0) = true → becomes (.registerWrite i 0x1008 v false) s
      (s.toBody.setIfc i { f with pollT := BitVec.ofNat 17 (fld v 16 0) }))
    ∧ (on → within 1 10000 (fld v 13 0) = true → becomes (.registerWrite i 0x1010 v false) s
      (s.toBody.setIfc i { f with priTimeout := BitVec.ofNat 14 (fld v 13 0) }))
    ∧ (on → within 250 100000 (fld v 16 0) = false → f.regReject = false → f.errMask.getLsbD 5 = true →
      becomes (.registerWrite i 0x1008 v false) s
        (s.toBody.setIfc i { f with rejectCode := 4, rejectOffset := 0x1008, regReject := true }))
    ∧ (on → becomes (.registerWrite i 0x1030 v false) s (s.toBody.setIfc i { f with errMask := BitVec.ofNat 6 (fld v 5 0) }))
    ∧ (on → fld v 10 0 = 0 → f.anyEnabled = false → becomes (.registerWrite i 0x13000 v false) s
      (s.toBody.setIfc i { f with dbBase := BitVec.ofNat 53 (fld v 63 11) }))
    ∧ (∀ off four, s.serves = false → becomes (.registerWrite i off v four) s s.toBody)
    ∧ (∀ off : BitVec 26, on → off.toNat % 8 ≠ 0 → becomes (.registerWrite i off v false) s s.toBody)
    ∧ (∀ off : BitVec 26, on → off.toNat % 8 = 0 → off.toNat < 0x1000 → becomes (.registerWrite i off v false) s s.toBody)

/-- A nudge makes the module read CMD_PI of the ring it names and fetch what is there; a poll takes the consumer indices and
signals vectors 64 and 65 where entries have been written since the last (11 R287-R289; 16 R408). -/
def Obligations.DoorbellsAreRead : Prop :=
  ∀ (s : State) (i : Fin 2), s.toBody.readsDoorbells i = true →
    let f := s.toBody.ifc i
    (∀ (g : Fin 64) (w : BitVec 512), g.val < s.toBody.nRings → (f.ring g.val).state = .enabled →
      (f.ring g.val).descs.length < 2 ^ (f.ring g.val).log2.toNat →
      ((f.ring g.val).fetch + 1 - (f.ring g.val).oldest).toNat ≤ 2 ^ (f.ring g.val).log2.toNat →
      let d : Desc := { idx := (f.ring g.val).fetch, w }
      d.cqn < s.toBody.nRings → (f.cq d.cqn).state = .enabled →
      becomes (.nudge i (BitVec.ofNat 12 (8 * g.val)) { pi := [(g, (f.ring g.val).fetch + 1)], descs := [(g, [w])] }) s
        ((s.toBody.setIfc i (f.setRing g.val { f.ring g.val with
          fetch := (f.ring g.val).fetch + 1, descs := (f.ring g.val).descs ++ [d] })).settle ⟨i, g, 0⟩))
    ∧ (∀ e k : W32, becomes (.doorbellPoll i { evtCi := some e, telCi := some k }) s
        ((s.toBody.setIfc i { f with evt := { f.evt with ci := e }, tel := { f.tel with ci := k } }).signalOwed i))

/-- The DMA engine (11 R296-R299, Table 11-9): at a unit's end a descriptor of higher priority preempts; the free engine takes up
the descriptor whose turn it is, asking for its page unless the cache holds it; a granted page enters the cache of 8,192; a missing
one parks the descriptor and asks for the page; the answers make it READY, FAULTED or TIMEOUT; an invalidation drops the pages and
is completed at once unless the unit in transfer uses one. -/
def Obligations.EngineMoves : Prop :=
  ∀ (s : State) (r : CmdRef) (d : Desc),
    let b := s.toBody
    let i := r.iface
    b.ringsRun = true → (b.ifc i).linkUp = true → b.desc r = some d →
    (∀ p, (b.ifc i).running = some r → b.readyPrio i = some p → (b.ringOf r).prio.toNat < p →
      becomes (.descriptorPreempt i) s ((b.putDesc r { d with st := .preempted }).setEngine i none))
    ∧ ((b.ifc i).running = none → b.engineNext i = some r → (∀ p, b.readyPrio i = some p → p ≤ (b.ringOf r).prio.toNat) →
      let on := (b.putDesc r { d with st := .running }).setEngine i (some r)
      let page := on.nextIova d / 4096
      becomes (.descriptorResume r) s (if page ∈ (on.ifc i).tcache then on else on.putOut (.atsRequest i page)))
    ∧ (∀ page, becomes (.atsTranslationComplete i page true) s (b.modIfc i fun f => f.cachePage page))
    ∧ (∀ f page, (Iface.cachePage f page).tcache.length ≤ 8192 ∧ page ∈ (Iface.cachePage f page).tcache)
    ∧ ((b.ifc i).running = some r → (b.ifc i).priEnabled = true → d.retried = false → s.tables.waiting = [] →
      let page := b.nextIova d / 4096
      becomes (.atsTranslationComplete i page false) s
        ((((b.putDesc r { d with st := .parked, page, reqSent := false }).setEngine i none).modIfc i fun f =>
          { f with pageReqs := f.pageReqs ++ [r] }).sendPageReqs i))
    ∧ (d.st = .parked → d.reqSent = true → s.tables.waiting = [] →
      becomes (.pageRequestResponse r .success) s
        (((b.putDesc r { d with st := .ready, retried := true, reqSent := false }).modIfc i fun f =>
          { f with pageReqs := f.pageReqs.filter (· != r) }).sendPageReqs i))
    ∧ (d.st = .parked → d.reqSent = true →
      becomes (.pageRequestResponse r .failure) s ((b.breakOff r stFaulted).sendPageReqs i).wakeAll
      ∧ becomes (.priTimeout r) s ((b.breakOff r stTimeout).sendPageReqs i).wakeAll)
    ∧ (∀ pages, let x := b.modIfc i fun f => { f with tcache := f.tcache.filter fun p => !pages.contains p }
        let page := b.nextIova d / 4096
        ((b.ifc i).running = none ∨ ((b.ifc i).running = some r ∧ (page ∉ pages ∨ page ∉ (b.ifc i).tcache)) →
          becomes (.invalidation i pages) s (x.putOut (.invDone i)))
        ∧ ((b.ifc i).running = some r → page ∈ pages → page ∈ (b.ifc i).tcache →
          becomes (.invalidation i pages) s (x.modIfc i fun f => { f with invHeld := f.invHeld + 1 })))
    ∧ (∀ data sp, (b.ifc i).running = some r → specOf d = some sp →
      let b1 := b.modIfc i fun f => f.cachePage (b.nextIova d / 4096)
      let d1 := { d with retried := false }
      becomes (.dmaUnitComplete i data) s ((((((b1.putDesc r d1).advance sp r d1 (data.take (b.unitBytes d)) 1 false).settle r).wakeAll).preempt i).invEnd i))

/-- Link and reset of an interface (14 R374; 16 R401, R407): loss of the link stops every enabled command ring with CAUSE 5 and
empties the translation cache; a reset of an interface with nothing in flight puts its registers back to their reset values; the
link that comes up carries completions again. -/
def Obligations.InterfaceLinks : Prop :=
  ∀ (s : State) (i : Fin 2),
    let f := s.toBody.ifc i
    (f.linkUp = true → s.serves = true → ∃ t, exec (.hifLinkLost i) s = .next t ∧ t.toBody.quiet = s.toBody.quiet
      ∧ (t.toBody.ifc i).linkUp = false ∧ (t.toBody.ifc i).tcache = []
      ∧ ∀ g, g < 64 → (f.ring g).state = .enabled →
          ((t.toBody.ifc i).ring g).state = .stopped ∧ ((t.toBody.ifc i).ring g).cause = 5 ∧ ((t.toBody.ifc i).ring g).descs = (f.ring g).descs)
    ∧ (s.power.state.iodUp = true → (∀ x ∈ f.rings, x.2.descs = []) → s.tables.waiting = [] →
      ∃ t, exec (.interfaceReset i) s = .next t ∧ t.toBody.quiet = s.toBody.quiet
        ∧ (let x := t.toBody.ifc i
           x.dbBase = 0 ∧ x.pollT = 1000 ∧ x.priTimeout = 100 ∧ x.cqs = [] ∧ x.msix = [] ∧ x.mailbox = {} ∧ x.linkUp = false
           ∧ x.errMask = 0 ∧ x.evt.enable = false ∧ x.tel.enable = false
           ∧ ∀ y ∈ x.rings, y.2.enable = false ∧ y.2.base = 0 ∧ y.2.session = 0 ∧ y.2.state = .disabled))
    ∧ (s.power.linksUp = true → becomes (.hifLinkUp i) s ((s.toBody.modIfc i fun f => { f with linkUp := true }).drainIfc i))


/-! ### Links (02, 06) -/

/-- Negotiation on an ALP link (02 R64, R65): at PCS lock VERSION leaves with the module's minors; a VERSION in range is answered by
the module with the lower identifier, with the lower of the two highest minors; one out of range, and the module's own identifier, are
reported and stop nothing else; a group address as SRC is counted (02 R29); the minor chosen is in force when the link comes UP with all
counts zero, or stays UP. A gateway port is UP at PCS lock (06 R150)
(another major is out of range by the model's choice, entry 104). -/
def Obligations.LinksNegotiate : Prop :=
  ∀ (s : State) (l : Fin 2048), LinkReady s l →
    let b := s.toBody
    let x := b.lp l
    (b.isGateway (physOf l) = true → x.state = .training → x.lock = false →
      becomes (.pcsLock l) s (b.setLp l { x with lock := true, light := true, state := .up }))
    ∧ (b.isGateway (physOf l) = false →
    (x.state = .training → x.lock = false →
      ∃ t, exec (.pcsLock l) s = .next t ∧ t.toBody.quiet = { b with lports := t.lports }.quiet ∧ (∀ m, m ≠ l.val → t.toBody.lp m = b.lp m)
        ∧ (let y := t.toBody.lp l
           y.state = .version ∧ y.lock = true ∧ y.gseq = 0 ∧ y.rxNext = 0 ∧ y.ackSeq = 0xFFF ∧ y.replay = [] ∧ y.chosen = none
           ∧ y.tx = [{ copy := none, bytes := 40 }])
        ∧ Out.lctrl l b.own [BitVec.ofNat 64 (put 1 56 + put 3 52 + put b.hiMinor 48 + put b.loMinor 44 + put 64 32), 0] ∈ t.out)
    ∧ (∀ src w0, x.state = .version → bit src 31 = false → src ≠ b.own → fld w0 55 52 = 3 →
      let hi := min (fld w0 51 48) b.hiMinor
      (fld w0 47 44 ≤ hi → b.loMinor ≤ hi →
        (b.own.toNat < src.toNat → becomes (.version l src w0) s ((b.setLp l { x with
            peerId := src, report := .none, chosen := some hi, applyGseq := BitVec.ofNat 12 (fld w0 43 32) }).lctrl l
          [put 2 56 + put hi 48 + put (fld w0 43 32) 32, 0]))
        ∧ (src.toNat < b.own.toNat → becomes (.version l src w0) s (b.setLp l { x with peerId := src, report := .none })))
      ∧ (hi < fld w0 47 44 ∨ hi < b.loMinor →
        becomes (.version l src w0) s (b.setLp l { x with peerId := src, state := .versionMismatch, report := .versionMismatch })))
    ∧ (∀ src w0, x.state = .version ∨ x.state = .versionMismatch ∨ x.state = .up →
      (bit src 31 = true → src ≠ 0xFFFFFFFF → becomes (.version l src w0) s (b.bump .hdrBadSrc l)
        ∧ becomes (.versionAck l src w0) s (b.bump .hdrBadSrc l))
      ∧ (src = 0xFFFFFFFF → becomes (.version l src w0) s b ∧ becomes (.versionAck l src w0) s b))
    ∧ (∀ w0, x.state = .version → bit b.own 31 = false →
      becomes (.version l b.own w0) s (b.setLp l { x with peerId := b.own, report := .linkIdClash }))
    ∧ (∀ src w0, x.state = .version → bit src 31 = false → b.loMinor ≤ fld w0 51 48 → fld w0 51 48 ≤ b.hiMinor →
      becomes (.versionAck l src w0) s (b.setLp l { x with chosen := some (fld w0 51 48), applyGseq := BitVec.ofNat 12 (fld w0 43 32) }))
    ∧ (∀ m, x.chosen = some m → x.state = .version →
      ∃ t, exec (.linkUp l) s = .next t
        ∧ (let y := t.toBody.lp l
           let zero := [0, 0, 0, 0, 0, 0, 0, 0]
           y.state = .up ∧ y.minor = m ∧ y.chosen = none ∧ y.received = zero ∧ y.sent = zero ∧ y.limitIn = zero))
    ∧ (∀ m, x.chosen = some m → x.state = .up → becomes (.linkUp l) s (b.setLp l { x with minor := m, chosen := none })))

/-- Groups and control words (02 R35, R57-R62): a group takes launched bytes, idle words between frames and none inside one, and enters
the replay buffer, or is idle while that is full; its 16 slices carry a control word with GSEQ, ACKSEQ and a CC8 that a receiver
accepts; a good one releases what its ACKSEQ covers, takes its credit, and advances the receiver, an idle one not; one with a bad CC8
is not used; a request is served from the replay buffer, the lanes going on in their rotation; a group that cannot be used is
discarded and asked for again
(the model's reading, entries 105 and 106). -/
def Obligations.LinksKeepGroups : Prop :=
  (∀ (x : LPort) (g : BitVec 12), (∀ n ∈ x.limitOut, n < 2 ^ 24) →
    let cw := controlWord x g
    fld cw 143 132 = g.toNat ∧ fld cw 131 120 = x.ackSeq.toNat ∧ (bit cw 119 = x.retry.isSome)
      ∧ crc8 (beBytes 17 (fld cw 143 8)) = fld cw 7 0)
  ∧ (∀ cw : BitVec 144, (controlSlices cw).length = 16 ∧ ∀ j, j < 16 →
      (nth (controlSlices cw) j 0).toNat = (if j = 0 then 512 else 0) + fld cw (143 - 9 * j) (135 - 9 * j))
  ∧ ∀ (s : State) (l : Fin 2048), LinkReady s l → s.toBody.isGateway (physOf l) = false →
    let b := s.toBody
    let x := b.lp l
    x.state = .up → x.lock = true →
    (let g := b.grantPort l
     let y := g.lp l
     let f := fillGroup y.launch 5120 y.tx
     let z := { y with rot := (y.rot + 1) % 8, replaying := false }
     (y.replay.length < b.replayGroups l → f.left = 0 ∨ f.tx = [] → becomes (.groupTransmit l) s
       ((g.setLp l { z with gseq := y.gseq + 1, tx := f.tx, replay := y.replay ++
           [{ gseq := y.gseq, heads := f.heads, tails := f.tails, lctrl := f.lctrl / 8, idle := f.left / 8 }] }).putOut
         (.group l (controlSlices (controlWord y y.gseq)) (f.heads.map (·.fid)) f.tails (f.lctrl / 8) (f.left / 8) false)).applyLower)
     ∧ (y.replay.length < b.replayGroups l → f.left ≠ 0 → f.tx ≠ [] → becomes (.groupTransmit l) s g)
     ∧ (b.replayGroups l ≤ y.replay.length → becomes (.groupTransmit l) s
       ((g.setLp l z).putOut (.group l (controlSlices (controlWord y (y.gseq - 1))) [] [] 0 640 true))))
    ∧ (∀ cw idle, crc8 (beBytes 17 (fld cw 143 8)) ≠ fld cw 7 0 → becomes (.controlWord l ⟨cw, idle⟩) s b)
    ∧ (∀ cw idle, crc8 (beBytes 17 (fld cw 143 8)) = fld cw 7 0 → x.drain = none → bit cw 119 = false →
      let gseq := BitVec.ofNat 12 (fld cw 143 132)
      let ack := BitVec.ofNat 12 (fld cw 131 120)
      ∃ t, exec (.controlWord l ⟨cw, idle⟩) s = .next t
        ∧ (let y := t.toBody.lp l
           y.replay = x.replay.filter (fun r => !decide ((ack - r.gseq).toNat < 2048))
           ∧ (fld cw 106 104 < x.limitIn.length → nth y.limitIn (fld cw 106 104) 0 =
              if x.minor ≠ 0 ∧ fld cw 79 77 = fld cw 106 104 then fld cw 76 53 else fld cw 103 80)
           ∧ (idle = false → gseq = x.rxNext → x.badGroup = false → y.rxNext = x.rxNext + 1 ∧ y.ackSeq = gseq)
           ∧ (idle = true ∨ gseq ≠ x.rxNext ∨ x.badGroup = true → y.rxNext = x.rxNext ∧ y.ackSeq = x.ackSeq)
           ∧ y.state = .up ∧ y.tx = x.tx ∧ y.gseq = x.gseq ∧ y.replaying = false))
    ∧ (∀ cw idle, crc8 (beBytes 17 (fld cw 143 8)) = fld cw 7 0 → x.drain = none → bit cw 119 = true →
      let g := BitVec.ofNat 12 (fld cw 118 107)
      let ack := BitVec.ofNat 12 (fld cw 131 120)
      let kept := x.replay.filter fun r => !decide ((ack - r.gseq).toNat < 2048)
      x.reqSeq ≠ g → kept.any (fun r => r.gseq == g) = true →
      let again := kept.dropWhile fun r => r.gseq != g
      ∃ t, exec (.controlWord l ⟨cw, idle⟩) s = .next t
        ∧ (let y := t.toBody.lp l
           y.replay = kept ∧ y.reqSeq = g ∧ y.replaying = true ∧ y.rot = (x.rot + again.length) % 8
           ∧ ∀ r ∈ again, ∃ k, Out.group l (controlSlices (controlWord { y with rot := k } r.gseq)) (r.heads.map (·.fid)) r.tails 0
              (r.idle + r.lctrl) false ∈ t.out))
    ∧ (∀ g, g ≠ x.rxNext → becomes (.codewordDecodeFailure l g) s b)
    ∧ becomes (.codewordDecodeFailure l x.rxNext) s
        ((b.setLp l { x with retry := some (x.retry.getD x.rxNext), badGroup := false }).discardGroup l)

/-- Losing a link (02 R62; 04 R107): without PCS lock for 1 µs, or without a valid control word for 2 µs, a link in UP is FAILED, its
replay buffer empty and its hall-time candidate gone, a negotiating one trains again; light on a FAILED or DISABLED port that may
train has it train. -/
def Obligations.LinksFail : Prop :=
  ∀ (s : State) (l : Fin 2048), LinkReady s l → s.toBody.isGateway (physOf l) = false →
    let b := s.toBody
    let x := b.lp l
    let failed := fun (c : Instr) => ∃ t, exec c s = .next t
      ∧ (let y := t.toBody.lp l; y.state = .failed ∧ y.lock = false ∧ y.replay = [] ∧ y.tx = [] ∧ y.launch = none ∧ y.rxFid = none)
      ∧ t.clock.cands = mdel b.clock.cands l
    (x.state = .up → x.hold = none → x.drain = none →
      (x.peerDraining = false ∨ x.replay ≠ [] → failed (.pcsLockLostTimeout l)) ∧ failed (.controlWordTimeout l))
    ∧ (x.state = .version ∨ x.state = .versionMismatch →
      becomes (.pcsLockLostTimeout l) s (b.setLp l { x with light := false, state := .training, lock := false })
      ∧ becomes (.controlWordTimeout l) s (b.setLp l { x with state := .training, lock := false }))
    ∧ (x.state = .failed ∨ x.state = .disabled → b.mayTrain l = true →
      becomes (.lightArrival l) s (b.setLp l { x with light := true, lock := false, state := .training }))

/-- Time requests (02 R66): a link message leaves in LCTRL from the module's own address; a request leaves with the next identifier and the sender's time; one that comes is answered with its times and the
answerer's; an answer of the outstanding exchange ends it, and is used unless it came 10 µs late or for another. -/
def Obligations.TimeRequestsAreAnswered : Prop :=
  ∀ (s : State) (l : Fin 2048), LinkReady s l → s.toBody.isGateway (physOf l) = false →
    let b := s.toBody
    let x := b.lp l
    let frac := fun (f : W16) => if x.minor = 2 then f.toNat else 0
    (∀ k ws, ∃ t, b.lctrl k ws = t ∧ Out.lctrl k b.own (ws.map (BitVec.ofNat 64)) ∈ t.out
      ∧ (t.lp k).tx = (b.lp k).tx ++ [{ copy := none, bytes := 24 + 8 * ws.length }]) ∧
    (x.state = .up →
    becomes (.timeReqSend l) s
      ((b.setLp l { x with timeId := x.timeId + 1, timeOut := some (x.timeId + 1, b.clock.ns, b.clock.frac) }).lctrl l
        [put 3 56 + put (x.timeId + 1).toNat 48, b.clock.ns.toNat, put (frac b.clock.frac) 48])
    ∧ (∀ w0 t1 f1 t2 f2, becomes (.timeReq l w0 t1 f1 t2 f2) s (b.lctrl l
        [put 4 56 + put (fld w0 55 48) 48, t1.toNat, t2.toNat, b.clock.ns.toNat,
          put (frac f1) 48 + put (frac f2) 32 + put (frac b.clock.frac) 16 + put b.clock.dist.toNat 8
            + put (match b.clock.state with | .free => 0 | .locked => 1 | .holdover => 2) 4]))
    ∧ (∀ id t1 f1 w t4 f4, x.timeOut = some (id, t1, f1) → b.timed = true →
      (fld (nth w 0 0) 55 48 ≠ id.toNat → becomes (.timeResp l w t4 f4) s b)
      ∧ (fld (nth w 0 0) 55 48 = id.toNat →
        (t1.toNat * 65536 + frac f1 + 10000 * 65536 < t4.toNat * 65536 + frac f4 → becomes (.timeResp l w t4 f4) s (b.setLp l { x with timeOut := none }))
        ∧ (t4.toNat * 65536 + frac f4 ≤ t1.toNat * 65536 + frac f1 + 10000 * 65536 → b.clock.parent ≠ some l.val →
          ∃ t, exec (.timeResp l w t4 f4) s = .next t ∧ t.toBody.lp l = { x with timeOut := none }
            ∧ (let d := fld (nth w 4 0) 15 8 + 1
               t.clock.cands = if isGroupAddr x.peerId = false ∧ adPod x.peerId = 511 ∧ fld (nth w 4 0) 7 4 = 1
                 ∧ d ≤ b.profiles.inForce.maxDist then mset b.clock.cands l d else mdel b.clock.cands l)
            ∧ t.clock.ns = b.clock.ns ∧ t.clock.dist = b.clock.dist))))

/-! ### Frames and routes (02-05) -/

/-- The spray choice (04 R102, R103, R104, R106): the live members of weight 1-15, or of weight 0 counted as 1 when there are none,
which SPRAY_STANDBY counts; none at all is a dead end; of two draws over the running sums the lower load wins, the first on a tie; then the live logical subport with the
lowest load, the lower index on a tie. -/
def Obligations.SprayPicks : Prop :=
  ∀ (s : Body) (die : Nat) (e : PathEntry) (m : BitVec 512),
    let live := (List.range 512).filter fun p => peHas e p && bit m p && s.live p
    let main := live.filter fun p => peWeight e p != 0
    let cs : List (Nat × Nat) := if main = [] then live.map fun p => (p, 1) else main.map fun p => (p, peWeight e p)
    let total := (cs.map Prod.snd).sum
    let i := nth s.fwc.drawIdx die 0
    let u := fun (k : Nat) => (Config.draw16 die (i + k)).toNat * total / 65536
    (live = [] → s.spray die e m = (none, (s.bump .sprayStandby die).bump .routeDeadEnd die))
    ∧ (live ≠ [] → die < s.fwc.drawIdx.length →
      ∃ p1 p2 l, (∃ a w b, cs = a ++ (p1, w) :: b ∧ (a.map Prod.snd).sum ≤ u 0 ∧ u 0 < (a.map Prod.snd).sum + w)
        ∧ (∃ a w b, cs = a ++ (p2, w) :: b ∧ (a.map Prod.snd).sum ≤ u 1 ∧ u 1 < (a.map Prod.snd).sum + w)
        ∧ (s.spray die e m).1 = some l
        ∧ (s.spray die e m).2.counters = (if main = [] then s.bump .sprayStandby die else s).counters ∧ physOf l = (if s.loadSeen die p2 < s.loadSeen die p1 then p2 else p1)
        ∧ s.lpLive l = true
        ∧ (∀ k ∈ s.lportsOf (physOf l), s.lpLive k = true → s.lpLoad l < s.lpLoad k ∨ (s.lpLoad l = s.lpLoad k ∧ l ≤ k)))

/-- A header on an ALP link that is UP (02 R29-R39, R60; 03 R75; 04 R98): words of idle, and a header of a group that is not the next one
expected, are none; a bad HCRC discards the group and asks for it again; one that a discarded group had brought before and that
has left is not taken twice; a header that fails a check is counted under that check's name and nothing is kept; one for a local function of the module waits in the buffer for it, its cells
counted as received on its lane
(the model's reading of what a discarded group leaves, entry 99). -/
def Obligations.HeadersArrive : Prop :=
  ∀ (s : State) (l : Fin 2048) (g : BitVec 12) (h : Hdr) (x : BitVec 128), DataReady s → physOf l < s.hw.ports →
    let b := s.toBody
    let p := b.lp l
    b.lportExists l = true → b.isGateway (physOf l) = false → p.state = .up → p.rxFid = none →
    (h.src = 0xFFFFFFFF ∨ g ≠ p.rxNext ∨ p.badGroup = true → becomes (.frameArrival ⟨l, g⟩ h x) s b)
    ∧ (h.src ≠ 0xFFFFFFFF → g = p.rxNext → p.badGroup = false → h.hcrc ≠ hcrcOf h → becomes (.frameArrival ⟨l, g⟩ h x) s
        ((b.setLp l { p with retry := some (p.retry.getD g), badGroup := true }).discardGroup l))
    ∧ (∀ fid seen, h.src ≠ 0xFFFFFFFF → g = p.rxNext → p.badGroup = false → h.hcrc = hcrcOf h → p.rxSeen = some fid :: seen →
      becomes (.frameArrival ⟨l, g⟩ h x) s (b.setLp l { p with
        rxSeen := seen, rxHere := p.rxHere ++ [fid], rxFid := if (b.frame fid).any (fun f => f.rest.isNone) then some fid else none }))
    ∧ (h.src ≠ 0xFFFFFFFF → g = p.rxNext → p.badGroup = false → h.hcrc = hcrcOf h → p.rxSeen.head?.join = none →
      let drops := fun (c : Ctr) => ∃ t, exec (.frameArrival ⟨l, g⟩ h x) s = .next t ∧ t.fwc.frames = b.fwc.frames ∧ t.tms = b.tms
        ∧ t.toBody.count c l = (b.count c l + 1) % 2 ^ 64
      (bit h.src 31 = true → drops .hdrBadSrc)
      ∧ (bit h.src 31 = false → h.ver ≠ 3 → drops .hdrBadVer)
      ∧ (bit h.src 31 = false → h.ver = 3 → 13 ≤ h.opc.toNat → drops .opcReserved)
      ∧ (bit h.src 31 = false → h.ver = 3 → h.opc.toNat < 13 →
          shapeOk h = false ∨ (h.spec = true ∧ h.opc.toNat ≠ 5 ∧ h.opc.toNat ≠ 6) → drops .hdrBadShape)
      ∧ (∀ w, hdrBars h = none → h.opc.toNat ≠ 10 → b.destOf h (if h.ext then x else 0) = .loc w →
        let f : BufFrame := { fid := b.fwc.nextFid, origin := .alp l h.vl.toNat, die := dieOf l, hdr := h, ext := if h.ext then x else 0
                              cells := frameCells h, copies := 1, here := some w }
        ∃ t, exec (.frameArrival ⟨l, g⟩ h x) s = .next t ∧ f ∈ t.fwc.frames ∧ t.fwc.nextFid = b.fwc.nextFid + 1 ∧ t.tms = b.tms
          ∧ (t.toBody.lp l).rxFid = some f.fid ∧ (t.toBody.lp l).rxHere = p.rxHere ++ [f.fid]
          ∧ (t.toBody.lp l).received = p.received.set h.vl.toNat ((nth p.received h.vl.toNat 0 + f.cells) % 2 ^ 24)))

/-- The tail of an arriving frame (02 R48): a good one is kept with its payload cut or filled to LEN; a bad CRC makes it POISON, counted,
a reserved STATUS makes it POISON, and CHKFAIL stays what it is; one of a group that is not the next expected is none. -/
def Obligations.TailsSettleFrames : Prop :=
  ∀ (s : State) (l : Fin 2048) (g : BitVec 12) (r : Rest) (fid : Nat) (f : BufFrame), DataReady s → physOf l < s.hw.ports →
    let b := s.toBody
    let r1 := fitRest f.hdr r
    (b.lp l).rxFid = some fid → b.frame fid = some f → f.hdr.opc.toNat ≠ 10 → f.hdr.opc.toNat ≠ 7 → f.copies ≠ 0 → f.under = 0 →
    (∀ x ∈ b.lports, x.2.launch ≠ some fid) → (∀ e ∈ b.tms.queue, e.copy.fid = fid → (b.lp e.lport).hold = none) →
    (g ≠ (b.lp l).rxNext ∨ (b.lp l).badGroup = true → becomes (.frameTailArrival ⟨l, g⟩ r) s b)
    ∧ (g = (b.lp l).rxNext → (b.lp l).badGroup = false →
    ∃ t, exec (.frameTailArrival ⟨l, g⟩ r) s = .next t ∧ (t.toBody.lp l).rxFid = none ∧ t.tms = b.tms
      ∧ r1.payload.length = f.hdr.len.toNat
      ∧ (Rest.crcGood r1 f.hdr f.ext = true → r1.status.toNat ≤ 3 → t.toBody.frame fid = some { f with rest := some r1 } ∧ t.counters = b.counters)
      ∧ (Rest.crcGood r1 f.hdr f.ext = true → 3 < r1.status.toNat → t.toBody.frame fid = some { f with rest := some { r1 with status := 1 } })
      ∧ (Rest.crcGood r1 f.hdr f.ext = false →
          t.toBody.frame fid = some { f with rest := some { r1 with status := if r1.status = 2 then 2 else 1 } }
          ∧ t.toBody.count .framePoisoned f.die = (b.count .framePoisoned f.die + 1) % 2 ^ 64))

/-- A launch on an ALP port (03 R81, R82; 02 R55): the frame chosen leaves its queue, its cells counted as sent on its lane, and leaves
whole, or is on its way out while its tail has not come; one whose data stop coming ends with zeros after what had come, and POISON
(the CRC of a cut frame is free, entry 98). -/
def Obligations.FramesLaunch : Prop :=
  ∀ (s : State) (l : Fin 2048), DataReady s → physOf l < s.hw.ports → s.toBody.isGateway (physOf l) = false →
    let b := s.toBody
    let x := b.lp l
    (∀ e dc ds f, (b.countWaits l).pickFrame l = some (e, dc, ds) → b.frame e.copy.fid = some f → f.eth = none →
      x.minor = 2 ∨ f.hdr.opc.toNat ≠ 7 →
      let y : LPort := { x with sent := x.sent.set f.hdr.vl.toNat ((nth x.sent f.hdr.vl.toNat 0 + frameCells f.hdr) % 2 ^ 24)
                                tx := x.tx ++ [{ copy := some e.copy, bytes := frameBytes f.hdr }] }
      ∃ t, exec (.frameLaunch l) s = .next t ∧ (∀ q ∈ t.tms.queue, q.seq ≠ e.seq)
        ∧ (t.toBody.lp l).sent = y.sent ∧ (t.toBody.lp l).tx = y.tx
        ∧ (∀ r, f.rest = some r → (t.toBody.lp l).launch = none ∧ Out.frame l (copyHdr f.hdr e.copy) f.ext (some (b.tailOn l f r)) ∈ t.out)
        ∧ (f.rest = none → (t.toBody.lp l).launch = some e.copy.fid ∧ t.out = b.out))
    ∧ (∀ fid c f sent, x.launch = some fid → x.launchCopy = some c → x.launchHop = none → b.frame fid = some f → f.rest = none → f.eth = none →
      ∃ t, exec (.cutUnderrun ⟨l, sent⟩) s = .next t ∧ (t.toBody.lp l).launch = none
        ∧ t.toBody.count .cutUnderrun l = (b.count .cutUnderrun l + 1) % 2 ^ 64
        ∧ t.toBody.frame fid = some { f with under := f.under + 1 }
        ∧ ∃ crc, Out.frame l (copyHdr f.hdr c) f.ext
            (some { payload := (sent ++ List.replicate f.hdr.len.toNat 0).take f.hdr.len.toNat, crc, status := 1 }) ∈ t.out)

/-- Limiter credit and published loads (05 R134, R136; 04 R105): an addition gives each level of a limiter 16 CCLK of its rate, up to its
size, to the limiters of that die alone; a publication tells every die the loads of that die's physical ports. -/
def Obligations.LimitersAndLoads : Prop :=
  (∀ (cclk : Nat) (n : Node) (x : Limiter), n.mode = 1 ∨ n.mode = 2 →
    let y := addCredit cclk n x
    y.c = min (x.c + ((n.rate1 * 512 + x.cRem) / max 1 cclk : Nat)) (n.size1 * 256 : Nat) ∧ y.c ≤ (n.size1 * 256 : Nat)
      ∧ (n.mode = 1 → y.p = min (x.p + ((n.rate2 * 512 + x.pRem) / max 1 cclk : Nat)) (n.size2 * 256 : Nat)) ∧ (n.mode = 2 → y.p = x.p))
  ∧ ∀ (s : State) (die : Fin 4), DataReady s →
    let b := s.toBody
    let k := b.profiles.inForce.cclk
    (((b.tables.portNode.act.map Prod.fst).Nodup → (b.tables.classNode.act.map Prod.fst).Nodup →
      ∃ t, exec (.limiterCreditUpdate die) s = .next t ∧ t.tms.queue = b.tms.queue ∧ t.fwc = b.fwc
        ∧ (∀ p, mgetD t.tms.portLim p {} = match mget b.tables.portNode.act p with
            | some w => if (nodeOf w).mode ≠ 0 ∧ dieOf p = die.val then addCredit k (nodeOf w) (mgetD b.tms.portLim p {}) else mgetD b.tms.portLim p {}
            | none => mgetD b.tms.portLim p {})
        ∧ (∀ p, mgetD t.tms.classLim p {} = match mget b.tables.classNode.act p with
            | some w => if (nodeOf w).mode ≠ 0 ∧ dieOf (p / 8) = die.val then addCredit k (nodeOf w) (mgetD b.tms.classLim p {}) else mgetD b.tms.classLim p {}
            | none => mgetD b.tms.classLim p {})))
    ∧ ∃ m, becomes (.loadPublish die) s { b with fwc := { b.fwc with load := m } }
        ∧ ∀ p, mgetD m p 0 = if p / 128 = die.val ∧ p < b.variant.ports then b.ownLoad p else mgetD b.fwc.load p 0

/-- ALP over UDP (02 R68, R70; 04 R116): a datagram for the group's port that breaks a condition of R68 is counted under its name and goes
no further; one over ALP_MTU is answered TOO_BIG; one whose inner SRC does not lie behind the group is counted; one for a local function of the module waits in the buffer
(the orders of the checks are the model's choice, entries 102 and 103). -/
def Obligations.DatagramsArrive : Prop :=
  ∀ (s : State) (l : Fin 2048) (u : Udp), DataReady s → physOf l < s.hw.ports → s.toBody.isGateway (physOf l) = true →
    let b := s.toBody
    let g := physOf l / 8
    (b.lp l).state = .up → u.dstPort.toNat = b.udpPort g →
    (∀ c, b.udpBars g u = some c → becomes (.alpOverUdpDatagram l u) s (b.bump c l))
    ∧ (b.udpBars g u = none → u.hdr.hcrc = hcrcOf u.hdr → hdrBars u.hdr = none → b.alpMtu g < u.bytes →
      becomes (.alpOverUdpDatagram l u) s (b.nack (dieOf l) u.hdr nkTooBig (b.alpMtu g)).retryAll)
    ∧ (b.udpBars g u = none → u.hdr.hcrc = hcrcOf u.hdr → hdrBars u.hdr = none → u.bytes ≤ b.alpMtu g →
      (b.srcMatches g u = false → becomes (.alpOverUdpDatagram l u) s (b.bump .gwSrcMismatch g))
      ∧ (∀ w, b.srcMatches g u = true → u.hdr.opc.toNat ≠ 7 → u.ecnCe = false → (fitRest u.hdr u.rest).status.toNat ≤ 3 →
        let x := if u.hdr.ext then u.ext else 0
        Rest.crcGood (fitRest u.hdr u.rest) u.hdr x = true → b.destOf u.hdr x = .loc w →
        b.poolOk l u.hdr.vl.toNat (frameCells u.hdr) = true →
        ∃ t, exec (.alpOverUdpDatagram l u) s = .next t ∧ t.fwc.nextFid = b.fwc.nextFid + 1 ∧ t.tms = b.tms
          ∧ ({ fid := b.fwc.nextFid, origin := .udp l, die := dieOf l, hdr := u.hdr, ext := x, rest := some (fitRest u.hdr u.rest)
               cells := frameCells u.hdr, copies := 1, here := some w } : BufFrame) ∈ t.fwc.frames))

/-- Native Ethernet frames (02 R53; 04 R117; 03 R77): a frame teaches its source; a destination not in the Gateway table, a broadcast and a
multicast are counted and go no further; a known one on a gateway port waits in its class queue there, and so does the Ethernet frame
of an ENCAP frame at its gateway port. -/
def Obligations.EthernetFramesForward : Prop :=
  ∀ (s : State) (l : Fin 2048), DataReady s →
    let b := s.toBody
    let g := physOf l / 8
    (∀ e, physOf l < s.hw.ports → b.isGateway (physOf l) = true → (b.lp l).state = .up → 64 ≤ e.bytes → e.bytes ≤ 9216 →
      let b1 := b.learn (dieOf l) (setFld (macvEntry g e.vid.toNat e.srcMac.toNat) 175 165 l)
      let look := b1.gwLookup (macvEntry g e.vid.toNat e.dstMac.toNat)
      (e.dstMac.getLsbD 40 = true ∨ look.1 = none → becomes (.ethernetFrameArrival l e) s (b1.bump .gwMiss g))
      ∧ (∀ x, e.dstMac.getLsbD 40 = false → look.1 = some x → b.isGateway (physOf (gwLport x)) = true →
        let out := gwLport x
        let cls := b.ethClass (physOf out / 8) e.pcp
        Calm b out cls → b.poolOk l (b.ethClass g e.pcp) 36 = true →
        ∃ t, exec (.ethernetFrameArrival l e) s = .next t ∧ (∃ f ∈ t.fwc.frames, f.fid = b.fwc.nextFid ∧ f.eth = some e)
          ∧ ∃ q ∈ t.tms.queue, q.lport = out ∧ q.cls = cls ∧ q.copy.fid = b.fwc.nextFid ∧ q.seq = b.tms.nextSeq))
    ∧ (∀ fid f r, b.frame fid = some f → f.here = some (.encap l) → f.rest = some r → Rest.crcGood r f.hdr f.ext = true → r.status = 0 →
      let e := ethOf ((payloadBytes (r.payload.drop 1)).take (fld (nth r.payload 0 0) 63 50))
      let cls := b.ethClass (physOf l / 8) e.pcp
      Calm b l cls →
      ∃ t, exec (.encap fid) s = .next t ∧ t.toBody.frame fid = some { f with eth := some e, here := none }
        ∧ ∃ q ∈ t.tms.queue, q.lport = l.val ∧ q.cls = cls ∧ q.copy.fid = fid ∧ q.seq = b.tms.nextSeq)

/-- The aging sweep visits an entry (04 R122, R124): a hit since the last visit clears HIT in both banks; without one a learned entry is
removed from both, counted, and a static one stays. -/
def Obligations.AgingVisitsBothBanks : Prop :=
  ∀ (s : State) (typ : Byte) (key : BitVec 320), s.toBody.dataRuns = true →
    let k : BitVec 512 := BitVec.ofNat 512 (put typ.toNat 504 + put 1 501 + put key.toNat 176)
    let b := s.toBody
    let gw := b.tables.gw
    let put_ := fun (x y : HashBank 512) => ({ b with tables := { b.tables with gw := { gw with a := x, b := y } } } : Body)
    ∀ wa ea wb eb, gw.a.find gwB (gwKey k) (gwSame k) = some (wa, ea) → gw.b.find gwB (gwKey k) (gwSame k) = some (wb, eb) →
      (gwHit ea = true ∨ gwHit eb = true →
        becomes (.agingVisit typ key) s (put_ (gw.a.put wa (gwSetHit ea false)) (gw.b.put wb (gwSetHit eb false))))
      ∧ (gwHit ea = false → gwHit eb = false → gwStatic ea = false → gwStatic eb = false →
        becomes (.agingVisit typ key) s ((put_ (gw.a.del wa) (gw.b.del wb)).bump .gwAged 0))
      ∧ (gwHit ea = false → gwHit eb = false → gwStatic ea = true → gwStatic eb = true → becomes (.agingVisit typ key) s b)

/-! ### Collectives (08, 07, 03, 10, 12) -/

/-- An RPUT (08 R203, R207, R216, 02 R50; 12 R308): one whose context waits for its reservation waits with it, and one whose Sett's log
is full waits; one that may not open a context, or that fails a check of an open one, is counted and dropped; one of a running context
that passes every check becomes one more frame of its input in its chunk's stage
(the model's reading, entries 62, 63 and 113). -/
def Obligations.ContributionsReachTheirStage : Prop :=
  ∀ (s : State) (fid : Nat) (k : CtxKey) (f : BufFrame) (r : Rest) (g : Group), DataReady s →
    let b := s.toBody
    let n := rxChunk f.ext
    let key : StageKey := ⟨k, n⟩
    ForSett b fid k f r → f.hdr.opc.toNat = 5 → n ≠ recordChunk → b.group k.g = some g → (∀ m ∈ g.members, m.suspect = false) →
    (∀ c, b.ctx k = some c → c.st = .admitting → fid ∉ c.waiting →
      becomes (.rputArrival fid) s (b.putCtx { c with waiting := c.waiting ++ [fid] }))
    ∧ (∀ ctr, b.ctx k = none → b.openFails g k (rxEpoch f.ext) = some ctr →
      ∃ t, exec (.rputArrival fid) s = .next t ∧ t.coll = b.coll ∧ t.toBody.count ctr 0 = (b.count ctr 0 + 1) % 2 ^ 64)
    ∧ (∀ c, b.ctx k = some c → c.st ≠ .admitting → b.settBlocked (b.settFor c) = true → becomes (.rputArrival fid) s b)
    ∧ (∀ c ctr, b.ctx k = some c → c.st ≠ .admitting → b.settBlocked (b.settFor c) = false → c.formBars g f.hdr f.ext = some ctr →
      ∃ t, exec (.rputArrival fid) s = .next t ∧ t.coll = b.coll
        ∧ t.toBody.count ctr (b.settFor c) = (b.count ctr (b.settFor c) + 1) % 2 ^ 64)
    ∧ (∀ c i, b.ctx k = some c → c.st = .running → b.settBlocked (b.settFor c) = false → c.formBars g f.hdr f.ext = none →
      b.rputBars c g f.ext = none → b.holdsResult c n = false → b.heldEarly c n = none → c.frameIdx g f.hdr f.ext = some i →
      (match i with | .rank q => q ∉ c.aliases | _ => True) → rxAlias f.ext = false →
      i ∈ (c.wanted g n).1 → 32 * f.hdr.tag.toNat < c.inElems i n → Rest.crcGood r f.hdr f.ext = true →
      (r.status = 0 ∨ r.status = 3) → (∀ u, b.stage key = some u → u.verdict = .pending ∧ ∀ x ∈ u.inputs, x.idx ≠ i) →
      ∃ t u x y, exec (.rputArrival fid) s = .next t ∧ t.toBody.stage key = some u ∧ x ∈ u.inputs ∧ x.idx = i ∧ x.src = f.hdr.src
        ∧ x.frames = [y] ∧ y.k = 32 * f.hdr.tag.toNat / max 1 (c.inFull i) ∧ y.payload = r.payload ∧ y.added = false
        ∧ (x.complete = true ↔ rxClast f.ext = true ∧ y.k = 0) ∧ (x.complete = true → (x.confirmed = true ↔ r.status = 0))
        ∧ (t.toBody.sett (b.settFor c)).recent = 4)

/-- Results, CONF and context records at a module (08 Table 8-7, R428; 02 R49, R50; 03 R86): the good CLAST frame of a chunk marks the
chunk passed and frees its stage once every frame before it has come; a CONF confirms the COMPLETE inputs that await it, or, with
another verdict, clears them; an ADMIT is kept until every other module of the set has sent one; an OPEN sets a waiting context
running, at the lower depth from its next chunk on; a downward frame is copied to the replication entries of R428 and to nothing
else
(the model's reading, entries 63 and 109). -/
def Obligations.ResultsAndRecordsTakeEffect : Prop :=
  ∀ (s : State) (fid : Nat) (k : CtxKey) (f : BufFrame) (r : Rest) (g : Group) (c : Ctx), DataReady s →
    let b := s.toBody
    let n := rxChunk f.ext
    ForSett b fid k f r → b.group k.g = some g → Rest.crcGood r f.hdr f.ext = true → r.status = 0 →
    (b.ctx k = some c → c.key = k → f.hdr.opc.toNat = 6 → n ≠ recordChunk → rxFmt f.ext ≤ 9 → rxRop f.ext ≤ 10 →
      c.st = .running → b.isRoot c = false → rxClast f.ext = true → n < c.nchunk → n ∉ c.passed →
      let d := (c.downOf n).getD { chunk := n }
      let j := 32 * f.hdr.tag.toNat / max 1 (fullElems c.ar.ofmt c.ar.scaledOut c.ar.pair (polFrameb c.pol))
      ((∀ i, i < j → i ∈ d.ks) → (∃ m, m < c.nchunk ∧ m ≠ n ∧ m ∉ c.passed ∧ b.noResult c g m = false) →
        ∃ t c', exec (.rresArrival fid) s = .next t ∧ t.toBody.ctx k = some c' ∧ c'.passed = c.passed ++ [n] ∧ c'.st = .running
          ∧ t.toBody.stage ⟨k, n⟩ = none)
      ∧ ((∃ i, i < j ∧ i ∉ d.ks) →
        ∃ t c', exec (.rresArrival fid) s = .next t ∧ t.toBody.ctx k = some c' ∧ c'.passed = c.passed ∧ t.coll.stages = b.coll.stages
          ∧ ∃ d', c'.downOf n = some d' ∧ d'.last = some j ∧ d'.late = false ∧ ∀ i, i ∈ d'.ks ↔ i = j ∨ i ∈ d.ks))
    ∧ (∀ u, b.ctx k = some c → f.hdr.opc.toNat = 7 → b.stage ⟨k, n⟩ = some u → u.verdict = .pending → u.confirmed = false →
      u.inputs.any (awaits f.hdr.src) = true →
      (fld (nth r.payload 0 0) 63 56 = 0 → ∃ t, exec (.confArrival fid) s = .next t ∧ t.toBody.stage ⟨k, n⟩ =
        some { u with inputs := u.inputs.map fun x => if awaits f.hdr.src x then { x with confGood := true }.refresh else x }
          ∧ ∀ x ∈ u.inputs, awaits f.hdr.src x = true → x.isComplete = true → (Input.refresh { x with confGood := true }).confirmed = true)
      ∧ (fld (nth r.payload 0 0) 63 56 ≠ 0 → (∀ x ∈ u.inputs, ∀ y ∈ x.frames, y.added = false) →
        ∃ t, exec (.confArrival fid) s = .next t ∧ t.toBody.stage ⟨k, n⟩ =
          some { u with inputs := u.inputs.filter fun x => !awaits f.hdr.src x }))
    ∧ (f.hdr.opc.toNat = 5 → n = recordChunk → rxFmt f.ext ≤ 9 → rxRop f.ext ≤ 10 →
      (recordOk r = false → ∃ t, exec (.admitRecord fid) s = .next t ∧ t.coll = b.coll
        ∧ t.toBody.count .ctxrecBad 0 = (b.count .ctxrecBad 0 + 1) % 2 ^ 64)
      ∧ (∀ m, recordOk r = true → kindOf r.payload = 2 → codeOf r.payload = 0 → b.ctx k = some c → c.key = k → b.isRoot c = true →
        c.st = .waitOpen → fld (nth r.payload 0 0) 31 0 = c.epoch.toNat → fld (nth r.payload 0 0) 47 43 = c.chunklog →
        (∀ a ∈ c.admits, a.2.1 = true) → m ∈ b.moduleSet (c.view g) → m ≠ b.moduleIndex → m ≠ adIndex f.hdr.src → (∀ a ∈ c.admits, a.1 ≠ m) →
        ∃ t, exec (.admitRecord fid) s = .next t ∧ t.toBody.ctx k = some { c with
          admits := c.admits.filter (fun a => a.1 != adIndex f.hdr.src) ++ [(adIndex f.hdr.src, true, fld (nth r.payload 0 0) 42 38)] }))
    ∧ (f.hdr.opc.toNat = 6 → n = recordChunk → rxFmt f.ext ≤ 9 → rxRop f.ext ≤ 10 → recordOk r = true →
      (kindOf r.payload = 1 → codeOf r.payload = 0 → b.ctx k = some c → c.key = k → c.st = .waitOpen → b.isRoot c = false →
        ∃ t c', exec (.openRecord fid) s = .next t ∧ t.toBody.ctx k = some c' ∧ c'.st = .running
          ∧ c'.depth = c.depth ∧ c'.nextDepth.getD c'.depth = min (c.nextDepth.getD c.depth) (fld (nth r.payload 0 0) 42 38))
      ∧ (kindOf r.payload = 3 → ∃ t, exec (.closeRecord fid) s = .next t ∧ t.coll = b.coll
        ∧ ∀ q ∈ t.tms.queue, (∃ q' ∈ b.tms.queue, q'.copy = q.copy)
          ∨ (q.copy.fid = f.fid ∧ ∃ e ∈ b.downTargets f (match b.ctx k with | some c => c.view g | none => g), q.copy.repl = some (e.kind, e.target))))

/-- A dispatch (10 R275, R276; 07 R184; 13 R359): the first unit in order whose charge fits the period's energy runs and its charge is
gone; a pass accumulates the rows it took; a Sett without contexts starves at the front, its slots counted if R359 covers it. -/
def Obligations.DispatchRunsTheFirstUnit : Prop :=
  ∀ (s : State) (n : Fin 20), s.toBody.dataRuns = true → (s.toBody.sett n).state ≠ .quarantined →
    let b := s.toBody
    let counts := slotsCount (b.sett n)
    (∀ c g u w, (b.markAll n).choice n = some (c, g, u, w) → w.1 = .pass → u.key.chunk ∈ c.started →
      let charge := unitCharge w.2.1 w.2.2 (b.sett n).sclk
      ∃ t u', exec (.settDispatch n) s = .next t ∧ charge ≤ (b.sett n).energy ∧ (t.toBody.sett n).energy = (b.sett n).energy - charge
        ∧ t.toBody.stage u.key = some u' ∧ u'.acc = (u.pass c (u.nextPass c)).1.acc
        ∧ u'.pendingSlots = u.pendingSlots + (if counts then (u.nextPass c).length * w.2.1 else 0)
        ∧ (∀ m, m ≠ n.val → t.toBody.sett m = b.sett m))
    ∧ (b.coll.ctxs = [] → counts = false → becomes (.settDispatch n) s b)
    ∧ (b.coll.ctxs = [] → counts = true → ∃ t, exec (.settDispatch n) s = .next t ∧ t.coll = b.coll
        ∧ t.toBody.sett n = { b.sett n with loadSlots := (b.sett n).loadSlots + 16 }
        ∧ t.toBody.count .tdSlots n = (b.count .tdSlots n + 16) % 2 ^ 64 ∧ t.toBody.count .tdFront n = (b.count .tdFront n + 16) % 2 ^ 64)

/-- Checks, arbitration and duplicate operation (07 R197; 12 R310-R316, Tables 12-2, 12-3): a stage whose checks pass is GOOD; one with a
fault, or whose sums fail before any output is made, is CHKFAIL and gets an arbiter; where the arbiter's result differs, and where a
duplicate partner's differs, the original Sett is quarantined and named in MRAM; where they agree the result stands
(findings of the hardware are operands, entry 34; entry 90). -/
def Obligations.ChecksDecideTheResult : Prop :=
  ∀ (s : State) (k : StageKey) (u : Stage) (c : Ctx) (g : Group), s.toBody.dataRuns = true →
    let b := s.toBody
    let n := b.settFor c
    b.stage k = some u → u.key = k → b.ctx k.ctx = some c → b.group k.ctx.g = some g →
    (u.clastSent = false → u.verdict = .pending → c.inputsDone g u = true → c.allIn u = true → u.acc ≠ [] → (b.sett n).state ≠ .duplicate →
      (∀ a bad, (b.helper n).1 = some a →
        bad = true ∨ c.accOk u = false ∨ (u.out.length = b.outFrames c k.chunk ∧ b.outsPass c u = false) →
        ∃ t, exec (.checkVerdict k bad) s = .next t
        ∧ t.toBody.stage k = some { u with verdict := .chkfail, arb := some a })
      ∧ (u.out.length = b.outFrames c k.chunk → c.accOk u = true → b.outsPass c u = true → ∃ t, exec (.checkVerdict k false) s = .next t
        ∧ t.toBody.stage k = some { u with verdict := .good } ∧ t.setts = b.setts))
    ∧ (∀ a, u.arb = some a → (b.sett n).state ≠ .quarantined → n < 20 →
      ∃ t, exec (.arbitrationComplete k true true) s = .next t ∧ (t.toBody.sett n).state = .quarantined ∧ n ∈ t.mram.quarantine)
    ∧ (∀ p ok, u.verdict = .pending → (b.sett n).state = .duplicate → u.out.length = b.outFrames c k.chunk → n < 20 →
      p < 20 → (b.sett p).use = .partner n →
      (u.clastSent = false → ∃ t, exec (.duplicateCompare k false ok) s = .next t ∧ t.toBody.stage k = some { u with verdict := .good }
        ∧ ∀ m, (t.toBody.sett m).state = (b.sett m).state)
      ∧ (u.clastSent = true → u.confirmed = false → c.inputsConfirmed u = true → b.isRoot c = false →
        ∃ t v, exec (.duplicateCompare k false ok) s = .next t ∧ t.toBody.stage k = some v ∧ v.verdict = .good ∧ v.confirmed = true
          ∧ v.out = u.out)
      ∧ (∃ t, exec (.duplicateCompare k true ok) s = .next t ∧ (t.toBody.sett n).state = .quarantined ∧ n ∈ t.mram.quarantine))

/-- Timers of chunks and contexts (03 R88; 08 R218, R223-R225, Table 8-7; 10 R281): SPEC_WINDOW clears the inputs whose CLAST frame has come and
that are not confirmed; RESEND_T has a
module send its partial again; the context that fits takes its reservation; the admission window, and ADMIT_WAIT at the root, lead to
PASS_THROUGH; DEADLINE closes a context and frees its slots; a scrub's end gives its slots back. -/
def Obligations.CollectiveTimers : Prop :=
  ∀ (s : State), s.toBody.dataRuns = true →
    let b := s.toBody
    (∀ k u c g, b.stage k = some u → b.ctx k.ctx = some c → b.group k.ctx.g = some g → (c.downOf k.chunk).any (·.last.isSome) = false →
      (∀ f ∈ b.fwc.frames, b.heldFor k f = false) → u.confirmed = false → (∀ x ∈ u.inputs, ∀ y ∈ x.frames, y.added = false) →
      ∃ t, exec (.specTimeout k) s = .next t ∧ t.toBody.stage k = some { u with inputs := u.inputs.filter fun x =>
        !(x.last.isSome && !x.confirmed && !x.lost) })
    ∧ (∀ k u c g, b.stage k = some u → u.key = k → b.ctx k.ctx = some c → b.group k.ctx.g = some g → b.isRoot c = false → c.st = .running →
      u.clastSent = true → u.verdict ≠ .chkfail → k.chunk ∉ c.passed →
      ∃ t u', exec (.partialResend k) s = .next t ∧ t.fwc.nextFid = b.fwc.nextFid + u.out.length ∧ t.toBody.stage k = some u'
        ∧ u'.out = u.out ∧ u'.inputs = u.inputs ∧ u'.resend = u.resend)
    ∧ (∀ c g depth step sram spill, b.planes.controlRestart = false → b.coll.ctxs.filter (fun d => d.st == .admitting) = [c] →
      b.ctx c.key = some c → b.group c.key.g = some g → b.fit c = some (depth, step, sram, spill) → c.waiting = [] →
      (b.isRoot c = false ∨ c.levelc = false) →
      let st := if b.isRoot c = true ∧ c.levelc = false then CState.running else CState.waitOpen
      ∃ t, exec .reservationGrant s = .next t
        ∧ t.toBody.ctx c.key = some { c with valid := true, depth, grant := step, sram, spill, st }
        ∧ (t.toBody.sett c.sett).slots = (b.sett c.sett).slots - sram ∧ t.coll.spillFree = b.coll.spillFree - spill)
    ∧ (∀ k c g, b.ctx k = some c → c.key = k → b.group k.g = some g →
      let passed := fun (i : Instr) => ∃ t c', exec i s = .next t ∧ t.toBody.ctx k = some c' ∧ c'.st = .passThrough ∧ c'.alg = 2 ∧ c'.grant = 0
      (c.st = .admitting → b.planes.controlRestart = false → passed (.admissionWindowExpiry k))
      ∧ (c.st = .waitOpen → b.isRoot c = true → passed (.admitWaitExpiry k))
      ∧ (c.st = .waitOpen → b.isRoot c = true → becomes (.contextDeadline k) s b)
      ∧ (c.st = .running ∨ (c.st = .waitOpen ∧ b.isRoot c = false) ∨ c.st = .passThrough →
        ∃ t, exec (.contextDeadline k) s = .next t ∧ t.toBody.ctx k = none ∧ (∀ u ∈ t.coll.stages, u.key.ctx ≠ k)
          ∧ (c.grant ≠ 0 → (t.toBody.sett c.sett).slots = min 384 ((b.sett c.sett).slots + c.sram + c.trim.1))))
    ∧ (∀ n m l, b.coll.scrub = (n, m) :: l → b.coll.createWait = [] →
      becomes .contextScrub s { b with coll := { b.coll with scrub := l, spillFree := b.coll.spillFree + n } })

/-! ### Fabric memory (09) -/

/-- Requests to a window (09 R229-R236, R243-R247, Table 9-4; 02 Table 2-9): one with an earlier operation of its sender, lane and window
before it waits; a refused PUT is answered with NACK and changes no memory; a PUT
that is no duplicate writes its words and no other byte, is remembered, and is acknowledged when it asks; a duplicate writes nothing; a
GET is answered with the bytes that stand there; an ATOMIC writes its result and no other byte; a buddy's gradients are applied once
the region is whole, and not to a region that has the step; a digest confirms or fails the join, for good at the third; an entry of the duplicate filter ends its life
(the model's reading, entries 107 and 110). -/
def Obligations.MemoryRequestsTakeEffect : Prop :=
  ∀ (s : State) (fid : Nat) (f : BufFrame) (r : Rest), DataReady s →
    let b := s.toBody
    let x := f.ext
    let wid := mxWid x
    let off := mxOff x
    b.frame fid = some f → f.here = some .fmem → f.rest = some r → Rest.crcGood r f.hdr x = true → r.status = 0 →
    (b.earlierOp f = true → becomes (.fmemPut fid) s b ∧ becomes (.fmemGet fid) s b ∧ becomes (.fmemAtomic fid) s b
      ∧ becomes (.gradientPut fid) s b ∧ becomes (.digestPut fid) s b)
    ∧ (∀ a c, b.earlierOp f = false → b.fmemRefusal f.hdr x = some (a, c) → f.hdr.opc.toNat = 0 →
      ∃ t, exec (.fmemPut fid) s = .next t ∧ t.mss = b.mss ∧ t.fwc.nextFid = b.fwc.nextFid + 1)
    ∧ (∀ src tag (wid : W16) (off : BitVec 48), becomes (.duplicateFilterExpiry src tag wid off) s
      { b with mss := { b.mss with dup := b.mss.dup.filter fun e => !(e.src == src && e.tag == tag && e.wid == wid.toNat && e.off == off.toNat) } })
    ∧ (∀ w, b.earlierOp f = false → b.fmemRefusal f.hdr x = none → b.win wid = some w →
      let A := w.addr off
      let fresh := b.dupFind f.hdr.src f.hdr.tag wid off = none
      (f.hdr.opc.toNat = 0 → w.areaOf off = .state →
        (fresh → ∃ t, exec (.fmemPut fid) s = .next t ∧ t.mss.windows = b.mss.windows
          ∧ (∀ a, Memory.get t.mss.mem a = if A ≤ a ∧ a < A + 8 * r.payload.length then nth (payloadBytes r.payload) (a - A) 0
              else Memory.get b.mss.mem a)
          ∧ ({ src := f.hdr.src, tag := f.hdr.tag, wid, off, atomic := false } : DupEntry) ∈ t.mss.dup
          ∧ (w.state = .active → w.joining = none → t.fwc.nextFid = b.fwc.nextFid + if f.hdr.ackreq then 1 else 0))
        ∧ (¬fresh → ∃ t, exec (.fmemPut fid) s = .next t ∧ t.mss = b.mss
            ∧ t.toBody.count .fmemDup 0 = (b.count .fmemDup 0 + 1) % 2 ^ 64))
      ∧ (f.hdr.opc.toNat = 1 → w.areaOf off = .state → 0 < mxRlen x → mxRlen x ≤ 1024 →
        let ws := wordsOf (b.winRead w off (mxRlen x))
        let h := ownHdr b.own f.hdr.src 2 4 ws.length f.hdr.tag.toNat true false
        let y := memX off wid (mxRlen x)
        becomes (.fmemGet fid) s (((b.send (b.memDie A) h y (mkRest h y ws 0 0 0)).doneHere fid).retryAll))
      ∧ (f.hdr.opc.toNat = 3 → w.areaOf off = .state → fresh →
        let n := if mxAw x = 0 then 4 else 8
        let old := beNat (b.winRead w off n)
        let new := atomicNew (mxAop x) (8 * n) (mxSigned x) old (fld (nth r.payload 0 0) (8 * n - 1) 0) (fld (nth r.payload 1 0) (8 * n - 1) 0)
        ∃ t, exec (.fmemAtomic fid) s = .next t ∧ t.mss.windows = b.mss.windows
          ∧ (∀ a, Memory.get t.mss.mem a = if A ≤ a ∧ a < A + n then nth (beBytes n new) (a - A) 0 else Memory.get b.mss.mem a)
          ∧ ({ src := f.hdr.src, tag := f.hdr.tag, wid, off, atomic := true, old := BitVec.ofNat 64 old } : DupEntry) ∈ t.mss.dup)
      ∧ (f.hdr.opc.toNat = 0 → w.areaOf off = .gradient → fresh →
        let i := (off - gradArea) / 4
        let c := i / max 1 w.rp
        let vs := (Body.gradientPut.u32be (payloadBytes r.payload)).zipIdx
        let grad := vs.foldl (fun m v => mset m (i + v.2) v.1) w.grad
        let step := (stepD (mgetD w.slots (w.lastSlot.getD 0) 0)).step
        let have_ := mgetD w.regionStep c 0
        ((∃ k, k < w.rp ∧ mget grad (c * w.rp + k) = none) → ∃ t w', exec (.gradientPut fid) s = .next t
          ∧ t.toBody.win wid = some w' ∧ w'.grad = grad ∧ w'.regionStep = w.regionStep ∧ t.mss.mem = b.mss.mem)
        ∧ ((∀ k, k < w.rp → (mget grad (c * w.rp + k)).isSome = true) → ∃ t w', exec (.gradientPut fid) s = .next t
          ∧ t.toBody.win wid = some w' ∧ w'.regionStep = (if have_.toNat < step.toNat then mset w.regionStep c step else w.regionStep)
          ∧ (have_ = step → ∀ a, Memory.get t.mss.mem a = Memory.get b.mss.mem a)))
      ∧ (f.hdr.opc.toNat = 0 → w.areaOf off = .gradient ∨ w.areaOf off = .digest → ¬fresh →
        (w.areaOf off = .gradient → ∃ t, exec (.gradientPut fid) s = .next t ∧ t.mss = b.mss)
        ∧ (w.areaOf off = .digest → ∃ t, exec (.digestPut fid) s = .next t ∧ t.mss = b.mss))
      ∧ (f.hdr.opc.toNat = 0 → w.areaOf off = .digest → fresh →
        let c := (off - digestArea) / 64
        let same := digestBytes (sha384 (b.winRead w (c * w.regionBytes) w.regionBytes)) = payloadBytes r.payload
        (w.state ≠ .shadow → ∃ t, exec (.digestPut fid) s = .next t ∧ t.mss.windows = b.mss.windows ∧ t.mss.mem = b.mss.mem)
        ∧ (∀ j, w.state = .shadow → w.joining = some j → same →
          let m := j.match_ c (mgetD w.regionStep c 0) w.nregion b.joinK
          ∃ t, exec (.digestPut fid) s = .next t ∧ t.toBody.win wid = some (
            if m.2 = true then { w with state := .secondary, joining := none } else { w with joining := some m.1 }))
        ∧ (∀ j, w.state = .shadow → w.joining = some j → ¬same → j.mismatches < 2 →
          ∃ t, exec (.digestPut fid) s = .next t ∧ t.toBody.win wid = some { w with
            state := .syncing, joining := some { j with mismatches := j.mismatches + 1, matches_ := 0, seen := [], full := none } })
        ∧ (∀ j, w.state = .shadow → w.joining = some j → ¬same → 2 ≤ j.mismatches →
          ∃ t, exec (.digestPut fid) s = .next t ∧ t.toBody.win wid = none)))

/-- Fabric memory is in its canonical form at reset, and every command that stores to it keeps it so (the model's form, entry 6). -/
def Obligations.MemoryStaysCanonical : Prop :=
  Memory.wf State.reset.mss.mem = true
  ∧ ∀ (s t : State) (fid : Nat) (r : CmdRef) (data : List Byte), Memory.wf s.mss.mem = true →
      (∃ c ∈ [Instr.fmemPut fid, .fmemAtomic fid, .gradientPut fid, .fmemCreate r, .fmemRestore r data], exec c s = .next t) →
      Memory.wf t.mss.mem = true

/-- The two copies of a window and their witness (09 R237-R248; 13 R356; 03 R84): an answer ends what waited for it, one that nothing waits
for is counted, one with a bad tail settles nothing; a complete copy is SECONDARY, or SHADOW with the steps of the survivor where it
updates; heartbeats go to the buddy; the copy that misses them asks its
witness, which grants the first that asks and denies the other; granted it is SOLO, denied or unanswered DETACHED, and STATE_LOST
when the witness reports the pair's state lost; a joining copy that
misses them has lost its state; a frame that R356 does not accept is counted
(the model's reading, entries 40, 85 and 110). -/
def Obligations.CopiesAndWitness : Prop :=
  ∀ (s : State), DataReady s →
    let b := s.toBody
    (∀ fid f r, b.frame fid = some f → f.here = some .answer → f.rest = some r →
      (b.mss.sent.any (fun x => x.1 == f.hdr.tag) = false → f.hdr.opc.toNat = 8 →
        ∃ t, exec (.answerArrival fid) s = .next t ∧ t.mss = b.mss ∧ t.toBody.count .unsolicitedResp 0 = (b.count .unsolicitedResp 0 + 1) % 2 ^ 64)
      ∧ (∀ wid off n src tag old w, f.hdr.opc.toNat = 8 → usable f r = true → b.win wid = some w → (∀ y ∈ b.mss.later, y.wid ≠ wid) →
        b.mss.sent.find? (fun x => x.1 == f.hdr.tag) = some (f.hdr.tag, .mirror wid off n src tag 1 old) →
        ∃ t, exec (.answerArrival fid) s = .next t ∧ t.mss.sent = b.mss.sent.erase (f.hdr.tag, .mirror wid off n src tag 1 old)
          ∧ t.mss.mem = b.mss.mem ∧ t.fwc.nextFid = b.fwc.nextFid + 1)
      ∧ (b.mss.sent.any (fun x => x.1 == f.hdr.tag) = true → f.hdr.opc.toNat = 8 ∨ f.hdr.opc.toNat = 9 → usable f r = false →
        ∃ t, exec (.answerArrival fid) s = .next t ∧ t.mss = b.mss ∧ t.coll = b.coll))
    ∧ (∀ (wid : Fin 1024) w, b.win wid = some w →
      (∀ j last steps, w.joining = some j →
        let fresh := { j with seen := [], matches_ := 0, full := none }
        (w.state = .syncing → ∃ t, exec (.joinCopyComplete ⟨wid, last, steps⟩) s = .next t
          ∧ t.toBody.win wid = some (if w.nregion = 0 then { w with state := .secondary, joining := none }
            else { w with state := .shadow, joining := some fresh, lastStep := last, grad := [], gradAck := []
                          regionStep := ((steps.take w.nregion).zipIdx).map fun x => (x.2, x.1) }))
        ∧ (w.serves = true → j.shadow = false → j.dirty = [] → w.nregion ≠ 0 → becomes (.joinCopyComplete ⟨wid, last, steps⟩) s
          ((b.sendMeta wid w).setWin wid { w with joining := some { fresh with shadow := true, after := b.begunStep wid w } })))
      ∧ (w.beats = true → w.damaged = false → s.power.state = .operational →
        becomes (.buddyHeartbeatSend wid) s (b.sendMgmtTo w.bplane w.buddy (put 0x40 56 + put wid 40)).retryAll)
      ∧ (s.power.state = .operational → w.damaged = false →
        (w.state = .primary ∨ w.state = .secondary → w.soloAsked = false →
          ∃ t, exec (.buddyTimeout wid) s = .next t ∧ t.toBody.win wid = some { w with soloAsked := true }
            ∧ (b.planeKey ≠ none → t.fwc.nextFid = b.fwc.nextFid + 1))
        ∧ (w.state = .syncing ∨ w.state = .shadow →
          ∃ t, exec (.buddyTimeout wid) s = .next t ∧ t.toBody.win wid = some { w with state := .stateLost, joining := none, soloAsked := false }))
      ∧ (∀ lost, w.soloAsked = true → ∃ t, exec (.soloReqTimeout ⟨wid, lost⟩) s = .next t ∧ t.toBody.win wid = some (if lost = true
          then { w with state := .stateLost, joining := none, soloAsked := false } else { w with state := .detached, soloAsked := false })))
    ∧ (∀ fid f r, b.frame fid = some f → f.here = some .mgmt → f.rest = some r →
      let w0 := nth r.payload 0 0
      let who := adIndex f.hdr.src
      let wid := fld w0 55 40
      ((b.mgmtOk f r).1 = true →
        (fld w0 63 56 = 0x30 → ∃ t, exec (.feature fid) s = .next t ∧ t.coll.features = mset b.coll.features who (fld w0 55 52))
        ∧ (fld w0 63 56 = 0x40 → ∃ t, exec (.buddyHb fid) s = .next t ∧ t.mss = b.mss ∧ t.coll = b.coll)
        ∧ (fld w0 63 56 = 0x41 → ∃ t, exec (.soloReq fid) s = .next t ∧ t.mss.granted =
            if b.mss.granted.any (fun x => x.1 == wid) then b.mss.granted else b.mss.granted ++ [(wid, fld w0 39 30)])
        ∧ (∀ w, fld w0 63 56 = 0x42 → b.win wid = some w → w.soloAsked = true → b.mss.sent = [] →
          ∃ t, exec (.soloGrant fid) s = .next t ∧ t.toBody.win wid = some { w with state := .solo, soloAsked := false })
        ∧ (∀ w lost, fld w0 63 56 = 0x43 → b.win wid = some w → w.soloAsked = true →
          ∃ t, exec (.soloDeny ⟨fid, lost⟩) s = .next t ∧ t.toBody.win wid = some (if lost = true
            then { w with state := .stateLost, joining := none, soloAsked := false } else { w with state := .detached, soloAsked := false }))
        ∧ (fld w0 63 56 = 0x44 → ∃ t, exec (.pairReset fid) s = .next t ∧ t.mss.granted = b.mss.granted.filter fun x => x.1 != wid))
      ∧ ((b.mgmtOk f r).1 = false → fld w0 63 56 = 0x44 → ∃ t, exec (.pairReset fid) s = .next t ∧ t.mss = b.mss
          ∧ t.toBody.count .mgmtReject 0 = (b.count .mgmtReject 0 + 1) % 2 ^ 64))

/-! ### Ports, Portage, optics, express circuits (06, 09, 10) -/

/-- The end of a drain (06 R151): with nothing left of it, or at its timeout, which is counted, the port is DISABLED and drains no more; a
port whose Bivouac hold reaches its limit is out of hold (09 R252). -/
def Obligations.DrainsEnd : Prop :=
  ∀ (s : State) (l : Fin 2048), LinkReady s l →
    let b := s.toBody
    let x := b.lp l
    (∀ c, x.state = .draining → x.drain = some c → c ≠ .hold → mget b.portage.trans (physOf l / 8) = none → b.portage.portCmds = [] →
      (b.cart (physOf l / 32)).spare = [] → b.isGateway (physOf l) = false →
      let ended := fun (t : State) => (t.toBody.lp l).state = .disabled ∧ (t.toBody.lp l).drain = none ∧ (t.toBody.lp l).replay = []
        ∧ (t.toBody.lp l).tx = [] ∧ (t.toBody.lpe l).drain = false
      (x.launch = none → x.tx = [] → x.replay = [] → ∃ t, exec (.drainComplete l) s = .next t ∧ ended t)
      ∧ (∃ t, exec (.drainTimeout l) s = .next t ∧ ended t ∧ t.toBody.count .drainTimeout l = (b.count .drainTimeout l + 1) % 2 ^ 64))
    ∧ (x.hold ≠ none → ∃ t, exec (.holdLimitExpiry l) s = .next t ∧ (t.toBody.lp l).hold = none ∧ (t.toBody.lpe l).hold = false)

/-- Portage cells (06 R160-R162): a write that reads back right stands and the next one begins, its wear raised first; with the last, the
group has its target map and the next generation; one that does not read back is tried three times. -/
def Obligations.PortageWritesCells : Prop :=
  ∀ (s : State) (g : Fin 64) (t : Transition) (w : CellWrite) (rest : List CellWrite), g.val < s.hw.groups →
    let b := s.toBody
    let i := (if w.tx then 64 else 0) + 8 * w.row + w.col
    mget b.portage.trans g = some t → t.draining = [] → t.todo = w :: rest → i < 128 →
    (∀ v l, rest = v :: l → ∃ u, exec (.portageCellWriteComplete g true) s = .next u
      ∧ mget u.portage.trans g = some { t with todo := rest, tries := 0 }
      ∧ (u.toBody.cellsOf g).getLsbD i = w.on ∧ (∀ j, j ≠ i → (u.toBody.cellsOf g).getLsbD j = (b.cellsOf g).getLsbD j)
      ∧ u.toBody.wear g v = min 0xFFFFFFFF (b.wear g v + 1))
    ∧ (rest = [] → t.back = false → ∃ u, exec (.portageCellWriteComplete g true) s = .next u
      ∧ u.toBody.bypass g = { partner := t.target, gen := (b.bypass g).gen + 1 } ∧ u.portage.trans = mdel b.portage.trans g
      ∧ u.portage.inconsistent.getLsbD g = false ∧ (u.toBody.cellsOf g).getLsbD i = w.on)
    ∧ (t.tries < 2 → ∃ u, exec (.portageCellWriteComplete g false) s = .next u
      ∧ mget u.portage.trans g = some { t with tries := t.tries + 1 } ∧ u.portage.cells = b.portage.cells
      ∧ u.toBody.wear g w = min 0xFFFFFFFF (b.wear g w + 1))

/-- Lasers and cartridges (06 R155, R156, R163): a degraded laser's spare is taken up; a failed one is replaced by its free spare, or is
lost; a cartridge removed is absent, one put in stands with its lasers off, and once they stand at power its ports train; EXPRESS_DWELL
of a group passes (10 R268). -/
def Obligations.OpticsChange : Prop :=
  ∀ (s : State) (c : Fin 16) (w k : Fin 4), c.val < s.hw.cartridges →
    let b := s.toBody
    let x := b.cart c
    let n := 4 * w.val + k.val
    (b.linksRun = true → x.state = .atPower →
      (mgetD x.lasers n .ok = .ok →
        ((mget x.spare w).isSome → runsTo (.laserDegraded c w k) s (b.setCart c { x with lasers := mset x.lasers n .degraded }))
        ∧ (mget x.spare w = none →
          ∃ t, exec (.laserDegraded c w k) s = .next t ∧ (t.toBody.cart c).spare = mset x.spare w k))
      ∧ (mgetD x.lasers n .ok ≠ .lost → b.portage.portCmds = [] → b.portage.trans = [] →
        let spare : Bool := mget x.spare w = none ∨ (mget x.spare w = some k.val ∧ mgetD x.lasers n .ok = .degraded)
        ∃ t, exec (.laserFailed c w k) s = .next t ∧ mgetD (t.toBody.cart c).lasers n .ok = (if spare then .spared else .lost)
          ∧ (t.toBody.cart c).spare = (if spare then mset x.spare w k else x.spare)
          ∧ ∀ l ∈ laserPorts b c w k, (b.lp l).state = .up → (b.lp l).drain = none →
              (t.toBody.lp l).state = (if spare then .failed else .noLightSource)))
    ∧ (b.portage.portCmds = [] →
      ∃ t, exec (.cartridgeRemoved c) s = .next t ∧ t.toBody.cart c = { x with state := .absent, lasers := [], spare := [] })
    ∧ (x.state = .absent ∨ x.state = .prepared →
      becomes (.cartridgeInserted c) s (b.setCart c { x with state := .inserted, lasers := [], spare := [] }))
    ∧ (b.linksRun = true → x.state = .inserted →
      let lit := b.setCart c { x with state := .atPower }
      ∃ t, exec (.cartridgeAtPower c) s = .next t ∧ t.toBody.cart c = { x with state := .atPower }
        ∧ ∀ l ∈ cartPorts b c, (b.lp l).state = .noLightSource → lit.mayTrain l = true → (t.toBody.lp l).state = .training)
    ∧ (∀ g : Fin 64, b.linksRun = true → g.val < s.hw.groups →
      (b.planes.controlRestart = true → becomes (.expressDwellExpiry g) s
        { b with planes := { b.planes with ctlQueue := b.planes.ctlQueue ++ [.dwell g.val] } })
      ∧ (b.planes.controlRestart = false → b.portage.deferred.find? (fun x => x.1 == g.val) = none → becomes (.expressDwellExpiry g) s { b with portage := { b.portage with dwell := b.portage.dwell.filter (· != g.val) } }))

/-- Express circuits (10 R265-R268; 13 R356): a measurement counts the intervals above and below the rate, and the acting module asks its
first candidate once the hold has passed; the transit refuses a group it does not own, and starts the change of one it can; an accepted
answer makes the circuit stand; a release within the dwell waits for it. -/
def Obligations.ExpressCircuits : Prop :=
  ∀ (s : State),
    let b := s.toBody
    let p := b.profiles.inForce
    b.planes.controlRestart = false →
    (∀ peer : Fin 1024, b.serves = true →
      let bytes := mgetD b.budget.levelC peer 0
      let above := if p.expressRate * 1000000 < bytes * 8 then mgetD b.budget.above peer 0 + 1 else 0
      let below := if bytes * 16 < p.expressRate * 1000000 then mgetD b.budget.below peer 0 + 1 else 0
      let wait := mgetD b.budget.expWait peer 0 - 1
      let q := { b with budget := { b.budget with levelC := mdel b.budget.levelC peer, above := mset b.budget.above peer above, below := mset b.budget.below peer below, expWait := mset b.budget.expWait peer wait } }
      (peer.val ≤ b.moduleIndex → becomes (.expressMeasurement peer) s q)
      ∧ (∀ c l, b.moduleIndex < peer.val → mgetD b.budget.tried peer 0 = 0 → wait = 0 → b.expressCands peer = c :: l →
        (if b.budget.satPeers.contains peer.val then p.expressHoldSat else p.expressHold) ≤ above →
        becomes (.expressMeasurement peer) s (({ q with budget := { q.budget with tried := mset q.budget.tried peer 1 } } : Body).sendMgmt (fld c 43 34)
          (put 0x50 56 + put b.moduleIndex 46 + put peer.val 36 + put (fld c 33 28) 30 + put (fld c 27 25) 27 + put (fld c 24 22) 24))))
    ∧ (∀ fid f r, DataReady s → b.frame fid = some f → f.here = some .mgmt → f.rest = some r → (b.mgmtOk f r).1 = true →
      let m := nth r.payload 0 0
      let g := fld m 35 30
      let peer := fld m 45 36
      (fld m 63 56 = 0x50 → s.power.state = .operational →
        (p.portageOwner.getLsbD g = false → ∃ t, exec (.expressReq fid) s = .next t ∧ t.portage = b.portage
          ∧ (b.planeKey ≠ none → t.fwc.nextFid = b.fwc.nextFid + 1 + if f.hdr.ackreq then 1 else 0))
        ∧ (let map := (b.bypass g).partner
           let p1 := fld m 29 27
           let p2 := fld m 26 24
           let target := setFld (setFld map (4 * p1 + 2) (4 * p1) p2) (4 * p2 + 2) (4 * p2) p1
           p.portageOwner.getLsbD g = true → partnerOf map p1 = p1 → partnerOf map p2 = p2 → g ∉ b.portage.dwell →
           mapValid target = true → g < b.variant.groups → b.ocbRefused true { g, gen := (b.bypass g).gen, target } = false →
           ∃ t, exec (.expressReq fid) s = .next t ∧ g ∈ t.portage.dwell))
      ∧ (∀ c n, fld m 63 56 = 0x51 → fld m 55 46 = b.moduleIndex → fld m 23 16 = 0 → mgetD b.budget.tried peer 0 = n + 1 → n < 2 →
        (b.expressCands peer)[n]? = some c → fld c 43 34 = adIndex f.hdr.src →
        ∃ t, exec (.expressAns fid) s = .next t ∧ t.budget.tried = mset b.budget.tried peer (n + 3))
      ∧ (fld m 63 56 = 0x52 → p.portageOwner.getLsbD g = true → g ∈ b.portage.dwell →
        ∃ t, exec (.expressRel fid) s = .next t ∧ t.portage.dwell = b.portage.dwell
          ∧ ∃ v, t.portage.deferred = b.portage.deferred ++ [(g, v)] ∧ partnerOf v (fld m 29 27) = fld m 29 27))

/-! ### Live test and faults (12) -/

/-- Live test (12 R321-R330): a rotation takes the die's next subject and puts a SPARE in its place, or is skipped; a subject with no
context left starts its test; whole, it is SPARE or back in service, else quarantined; a deferred test ends untested, its count of mismatches kept. The Den clusters take
over, test and rejoin; a stack drains, is tested, and comes back, is retired, or is lost with every window damaged
(the model's reading, entry 46). -/
def Obligations.LiveTestsRun : Prop :=
  ∀ s : State, s.serves = true →
    let b := s.toBody
    (b.dataRuns = true →
      (∀ die : Fin 4, b.planes.controlRestart = false →
        (b.testing die = true ∨ b.rotationSpare die (b.nextSubject die) = none ∨ b.nextSubject die = none →
          runsTo (.testRotation die) s b ∧ ∃ t, exec (.testRotation die) s = .next t
            ∧ t.toBody.count .testSkipped die = (b.count .testSkipped die + 1) % 2 ^ 64)
        ∧ (∀ n p lent, b.testing die = false → b.nextSubject die = some n → b.rotationSpare die (some n) = some (p, lent) →
          ∃ t, exec (.testRotation die) s = .next t ∧ (t.toBody.sett n).test = .waiting
            ∧ (t.toBody.sett n).state = (if (b.sett n).state = .duplicate then .duplicate else .subject)
            ∧ (lent = false → 3 ≤ (b.sett p).degraded.length → (t.toBody.sett p).state = .duplicate)
            ∧ (lent = true ∨ (b.sett p).degraded.length < 3 →
                (t.toBody.sett p).state = (if lent then .spare else .inService)
                ∧ (t.toBody.sett p).use = (if lent then .standIn n else (b.sett p).use)
                ∧ ∀ k, k ≠ n → k ≠ p → t.toBody.sett k = b.sett k)))
      ∧ (∀ n : Fin 20, (b.sett n).test = .waiting → (∀ c ∈ b.coll.ctxs, b.settFor c ≠ n) →
        ∃ t, exec (.settTestStart n) s = .next t ∧ (t.toBody.sett n).state = .subject ∧ (t.toBody.sett n).test = .running
          ∧ t.tables = b.tables ∧ t.coll = b.coll
          ∧ ∀ k, k ≠ n.val → t.toBody.sett k = if (b.sett k).use = .partner n then { b.sett k with use := .none } else b.sett k)
      ∧ (∀ (n : Fin 20) (pattern : W16), (b.sett n).test = .running →
        let lent : Bool := b.integ.borrowed.any fun x => x.1 == n.val
        let back : Bool := lent || (b.sett n).degraded.length ≥ 3
        (∃ t, exec (.settTestComplete n true pattern) s = .next t ∧ (t.toBody.sett n).state = (if back then .inService else .spare)
          ∧ (t.toBody.sett n).test = .none ∧ (t.toBody.sett n).use = .none ∧ (t.toBody.sett n).degraded = [] ∧ t.coll = b.coll)
        ∧ ((b.sett n).state ≠ .quarantined → ∃ t, exec (.settTestComplete n false pattern) s = .next t
          ∧ (t.toBody.sett n).state = .quarantined ∧ n.val ∈ t.mram.quarantine)
        ∧ (∃ t, exec (.testBudgetDefer n) s = .next t
          ∧ (t.toBody.sett n).state = (if lent then if 3 ≤ (b.sett n).degraded.length then .duplicate else .inService else .spare)
          ∧ (t.toBody.sett n).test = .none ∧ (t.toBody.sett n).degraded = (b.sett n).degraded
          ∧ t.toBody.count .testBudgetDefer (n / 5) = (b.count .testBudgetDefer (n / 5) + 1) % 2 ^ 64)))
    ∧ (let i := b.integ
      (i.denA = .active → i.denB = .standby →
        runsTo .denHeartbeatLoss s { b with integ := { i with denA := .failed, denB := .active } })
      ∧ (i.denB = .active → i.denA = .standby →
        runsTo .denHeartbeatLoss s { b with integ := { i with denA := .active, denB := .failed } })
      ∧ (¬(i.denA = .active ∧ i.denB = .standby) → ¬(i.denB = .active ∧ i.denA = .standby) →
        becomes .denHeartbeatLoss s b.restartControl)
      ∧ (i.denA = .active → i.denB = .standby ∨ i.denB = .failed → becomes .denTestStart s { b with integ := { i with denB := .testing } })
      ∧ (i.denB = .active → i.denA = .standby ∨ i.denA = .failed → becomes .denTestStart s { b with integ := { i with denA := .testing } })
      ∧ (∀ pass, let after : DenState := if pass then .standby else .failed
          (i.denA = .testing → runsTo (.denTestComplete pass) s { b with integ := { i with denA := after } })
          ∧ (i.denA ≠ .testing → i.denB = .testing → runsTo (.denTestComplete pass) s { b with integ := { i with denB := after } })))
    ∧ (∀ n : Fin 20, s.hw.fittedHbm.getLsbD n = true →
      let at_ := b.stackSt n
      let roomy : Prop := b.profiles.inForce.headroom ≠ 0 ∧ b.integ.headroomUsed = false
      (at_ ≠ .lost → at_ ≠ .retired → at_ ≠ .absent →
        (roomy → ∃ t, exec (.stackLost n) s = .next t ∧ t.toBody.stackSt n = .lost ∧ t.integ.headroomUsed = true
          ∧ ∀ x ∈ t.mss.windows, x.2.damaged = true)
        ∧ (¬roomy → ∃ t, exec (.stackLost n) s = .next t ∧ t.power.state = .stopped ∧ t.lantern.stopCause = 0x0A))
      ∧ (roomy → at_ = .service → becomes (.stackDrainStart n) s
          { b with integ := { b.integ with headroomUsed := true, stackSt := mset b.integ.stackSt n .draining } })
      ∧ (at_ = .draining → becomes (.stackDrainCopyComplete n) s (b.setStack n .testing))
      ∧ (at_ = .testing → becomes (.stackTestComplete n true) s (b.setStack n .copyBack)
          ∧ ∃ t, exec (.stackTestComplete n false) s = .next t ∧ t.integ = (b.setStack n .retired).integ
            ∧ t.lantern.stacksLost.getLsbD n = true)
      ∧ (at_ = .copyBack → becomes (.stackCopyBackComplete n) s
          { b with integ := { b.integ with headroomUsed := false, stackSt := mset b.integ.stackSt n .service } }))

/-- Faults are contained (01 Table 1-5; 12 R307, R319, R331-R333; 10 R279, R280; 15 R390): a lane fault takes a spare lane or the block; a
probe stamps its path, and a path that fails twice within 10 ms bars its port; a suspect member is marked; a fatal or thermal stop is dark and
STOPPED, and where the IOD no longer runs the host links go and the circuits hold; each plane restarts, and serves again
(the IOD not running is an operand, entry 114). -/
def Obligations.FaultsAreContained : Prop :=
  ∀ s : State, s.serves = true →
    let b := s.toBody
    let now := b.clock.ns.toNat
    let stops := fun (c : Instr) (cause die stack subsys : Nat) => ∃ t, exec c s = .next t
      ∧ t.power.state = .stopped ∧ t.power.thermalStop = (cause == 0x0B) ∧ t.lantern.stopCause = BitVec.ofNat 8 cause
      ∧ t.lantern.die = BitVec.ofNat 8 die ∧ t.lantern.stack = BitVec.ofNat 8 stack ∧ t.lantern.subsys = BitVec.ofNat 8 subsys
      ∧ (∀ x ∈ t.lports, x.2.state = .disabled) ∧ (∀ x ∈ t.carts, x.2.state ≠ .atPower) ∧ t.sec.activation = none
    (∀ (die : Fin 4) (blk : Fin 192) (lane : Fin 64),
      let k := 192 * die.val + blk.val
      let used := mgetD b.integ.blockLanes k []
      let map := mset b.mram.laneMap k (mgetD b.mram.laneMap k [] ++ [lane.val])
      k ∉ b.integ.blockDown → lane.val ∉ used →
      (used.length < 4 → becomes (.ridgepoleLaneFault die blk lane) s
        { b with integ := { b.integ with blockLanes := mset b.integ.blockLanes k (used ++ [lane.val]) }, mram := { b.mram with laneMap := map } })
      ∧ (4 ≤ used.length → ∃ t, exec (.ridgepoleLaneFault die blk lane) s = .next t
        ∧ t.integ = { b.integ with blockDown := b.integ.blockDown ++ [k] } ∧ t.mram.laneMap = map
        ∧ t.toBody.roleCount die (b.blockRole die blk) (wiring blk) ≤ b.roleCount die (b.blockRole die blk) (wiring blk)))
    ∧ (∀ (die : Fin 4) (port : Fin 512), port.val < s.hw.ports → DataReady s →
      let k := 512 * die.val + port.val
      let failed := { b.integ with probeFails := mset b.integ.probeFails k now }
      let again : Prop := ∃ t, mget b.integ.probeFails k = some t ∧ now ≤ t + 10000000
      runsTo (.probeCell die port) s
        { b with integ := { b.integ with probeSeq := b.integ.probeSeq + 1, probeAt := mset b.integ.probeAt k now } }
      ∧ (¬again → runsTo (.probeFail die port) s { b with integ := failed })
      ∧ (again → port.val ∉ b.integ.xbarBad → ∃ t, exec (.probeFail die port) s = .next t
        ∧ t.integ = { failed with xbarBad := b.integ.xbarBad ++ [port.val] }
        ∧ (((b.integ.xbarBad ++ [port.val]).filter fun p => dieOfPort p == dieOfPort port).length ≥ 8 → t.power.state = .stopped)))
    ∧ (∀ (a : W32) (rank : BitVec 18) (missing : Bool) (g : Group) (m : Member), b.group a = some g → g.members[rank.toNat]? = some m →
      m.fenced = false → m.suspect = false → (missing = true → preRank g m = false ∧ b.inputMissing a g rank.toNat = true) →
      (missing = false → b.podLive m.ep = false) →
      runsTo (.memberSuspect a rank missing) s (b.modGroup a fun g =>
        { g with members := setNth g.members rank.toNat { m with suspect := true, noPath := !missing } }))
    ∧ (∀ (subsys : Fin 13) (unit : Byte), stops (.fatalStop subsys ⟨unit, true⟩) 0x0A unit.toNat 0xFF subsys
        ∧ ∃ t, exec (.fatalStop subsys ⟨unit, false⟩) s = .next t ∧ t.power.state = .stopped ∧ t.power.iodStopped = true
          ∧ t.power.thermalStop = false ∧ t.hifA.linkUp = false ∧ t.hifB.linkUp = false ∧ t.portage = b.portage ∧ t.mram = b.mram
          ∧ t.lantern = b.lantern ∧ (∀ x ∈ t.lports, x.2.state = .disabled) ∧ (∀ x ∈ t.carts, x.2.state ≠ .atPower) ∧ t.sec.activation = none)
    ∧ (∀ u : HotUnit, (∀ e, u = .engine e → e.val < s.hw.engines) → (∀ n, u = .stack n → s.hw.fittedHbm.getLsbD n = true) →
      stops (.thermalStop u) 0x0B (hotDie u) (hotStack u) 0)
    ∧ (b.planes.dataRestart = false → (b.coll.groups.map fun x => x.1).Nodup → (∀ c ∈ b.coll.ctxs, (b.group c.key.g).isSome = true) →
      ∃ t, exec .dataplaneFault s = .next t ∧ t.planes = { b.planes with dataRestart := true } ∧ t.coll.ctxs = [])
    ∧ (runsTo .managementPlaneFault s { b with
        planes := { b.planes with mgmtRestart := true }
        clock := if b.clock.state = .locked then { b.clock with state := .holdover, settled := none } else b.clock })
    ∧ (∃ t, exec .controlPlaneRestart s = .next t ∧ t.planes = { b.planes with controlRestart := true }
        ∧ t.tables.gw = { b.tables.gw with dirty := b.tables.gw.dirty || b.tables.gw.writer.isSome }
        ∧ t.tables.pod.dirty = (b.tables.pod.dirty || b.tables.pod.writer.isSome)
        ∧ t.tables.pod.a = b.tables.pod.a ∧ t.tables.pod.b = b.tables.pod.b ∧ t.tables.pod.active = b.tables.pod.active
        ∧ t.fwc = b.fwc ∧ t.coll = b.coll ∧ t.lports = b.lports)
    ∧ (b.planes.dataRestart = true → ∃ t, exec (.planeRestartComplete .data) s = .next t
        ∧ t.planes = { b.planes with dataRestart := false } ∧ t.coll = b.coll ∧ t.fwc.frames = b.fwc.frames)
    ∧ (b.planes.mgmtRestart = true →
        runsTo (.planeRestartComplete .management) s { b with planes := { b.planes with mgmtRestart := false } }
        ∧ ∃ t, exec (.planeRestartComplete .management) s = .next t ∧ t.sec.audit.buffered = [] ∧ t.sec.audit.lost = 0)
    ∧ (b.planes.controlRestart = true → b.planes.ctlQueue = [] → b.tables.clpOwed = [] → (∀ x ∈ b.lports, x.2.express = none) → (∀ c ∈ b.coll.ctxs, c.st ≠ .admitting) →
        becomes (.planeRestartComplete .control) s { b with planes := { b.planes with controlRestart := false } })

/-! ### Budget and heat (10, 14) -/

/-- The power budget (01 R23, R24; 10 R262, R270-R273, R279; 14 R370): at a boundary the grants that have come take effect and ceilings move;
grants for the next period, each with its energy, go to every unit of the budget, at their floor while R370 holds them there, and repeat while PWR restarts; a unit
without grants falls to its floor; measurements, engine emergencies and saturation are recorded
(the model's reading, entry 42). -/
def Obligations.BudgetAndHeat : Prop :=
  ∀ s : State, s.serves = true →
    let b := s.toBody
    (∀ v : PeriodView, ∃ t, exec (.demand v) s = .next t
      ∧ (∀ n : Fin 20, let x := b.sett n
          let y := t.toBody.sett n
          (∀ g, x.next = some g → y.next = none ∧ y.energy = g.energy
            ∧ (if g.step < x.sclk ∧ b.settLaunching n = true then y.sclk = x.sclk ∧ y.lower = some g.step
                else y.sclk = g.step ∧ y.lower = none))
          ∧ (x.next = none → y.sclk = x.sclk ∧ y.energy = x.energy)
          ∧ (v.hot = [] → y.ceil = moveCeil x.ceil (b.unitTop n) x.tj 95 90 50 600)
          ∧ (b.planes.controlRestart = false → mgetD t.budget.settDemand n 0 ≤ y.ceil ∧ y.recent = x.recent - 1)
          ∧ (b.planes.controlRestart = true → y.recent = x.recent ∧ t.budget.settDemand = b.budget.settDemand))
      ∧ ((b.budget.hbmNext.map fun x => x.1).Nodup → ∀ k g, mget b.budget.hbmNext k = some g →
          mget t.budget.hbmCap k = some g.step ∧ mget t.budget.hbmEnergy k = some g.energy ∧ mget t.budget.hbmNext k = none))
    ∧ (∃ t, exec .energyGrant s = .next t
        ∧ (∀ n : Fin 20, (t.toBody.sett n).sclk = (b.sett n).sclk ∧ (t.toBody.sett n).energy = (b.sett n).energy
            ∧ (n.val ∉ b.units → t.toBody.sett n = b.sett n)
            ∧ (n.val ∈ b.units → ∃ v, (t.toBody.sett n).next = some (b.grantAt n v))
            ∧ (n.val ∈ b.units → b.planes.mgmtRestart = true → (t.toBody.sett n).next = some (b.grantAt n (b.unitNow n)))
            ∧ (n.val ∈ b.units → b.planes.mgmtRestart = false → 0 < b.budget.maxLeft →
                (∀ i ∈ b.units, b.unitPower i (unitFloor i) ≤ b.unitPower i (b.unitNow i)) →
                ∃ v, (t.toBody.sett n).next = some (b.grantAt n v) ∧ b.unitPower n v ≤ b.unitPower n (unitFloor n)))
        ∧ (b.planes.mgmtRestart = false → t.budget.excess = 0 ∧ t.budget.maxLeft = b.budget.maxLeft - 1)
        ∧ (b.planes.mgmtRestart = true → t.budget.excess = b.budget.excess ∧ t.budget.maxLeft = b.budget.maxLeft))
    ∧ (∀ n : Fin 20,
        (n.val ∈ b.units → runsTo (.tokenLapse (.sett n)) s
          (b.modSett n fun x =>
            let wait : Bool := 600 < x.sclk && b.settLaunching n
            { x with sclk := if wait then x.sclk else 600, lower := if wait then some 600 else none
                     energy := 10 * b.unitPower n 600, next := none }))
        ∧ (s.hw.fittedHbm.getLsbD n = true → n.val + 20 ∈ b.units → runsTo (.tokenLapse (.hbm n)) s
          { b with budget := { b.budget with hbmCap := mset b.budget.hbmCap n 20, hbmEnergy := mset b.budget.hbmEnergy n (10 * hbmPower 20), hbmNext := mdel b.budget.hbmNext n } }))
    ∧ (∀ watts overMax, runsTo (.powerMeasurement watts overMax) s { b with budget := { b.budget with
        excess := if b.budget.cap < watts ∧ b.budget.belowFloor = false then watts - b.budget.cap else b.budget.excess
        maxLeft := if overMax then 1000 else b.budget.maxLeft } })
    ∧ (∀ (e : Fin 8) (tj : Byte), e.val < s.hw.engines →
        (e.val ∉ b.budget.emergency → ∃ t, exec (.thermalEmergency e tj) s = .next t
          ∧ t.budget = { b.budget with emergency := b.budget.emergency ++ [e.val], oeTemp := mset b.budget.oeTemp e tj.toNat })
        ∧ (e.val ∈ b.budget.emergency → ∃ t, exec (.thermalClear e tj) s = .next t
          ∧ t.budget = { b.budget with emergency := b.budget.emergency.filter (· != e.val), oeTemp := mset b.budget.oeTemp e tj.toNat }))
    ∧ (∀ v : SatView, b.planes.controlRestart = false → ∃ t, exec (.saturationEvaluation v) s = .next t
        ∧ t.budget.satPeers = (v.peerWait.filter fun x => x.2 ≥ 100).map (fun x => x.1.val)
        ∧ (∀ n : Fin 20, t.toBody.sett n = { b.sett n with
            loadAll := (b.sett n).loadWork * loadOne / max 1 (b.sett n).loadSlots, loadWork := 0, loadSlots := 0 })
        ∧ ∀ d, d ∈ t.budget.satDies → d < 4 ∧ t.toBody.inServiceOf d ≠ [] ∧ b.profiles.inForce.satLoad * (loadOne / 1000) ≤ t.toBody.dieLoad d)

/-! ### Power and bring-up (14, 15, 17) -/

/-- The feed, the pins and removal (14 R366-R385; 17 R424, R425): insertion leads to PRECHARGE and power good to P0; a sag, an overvoltage or
an overcurrent leads to SAVING, dark and with the host links gone; the save's end, or the bank's, to UNPOWERED; a reset to IN_RESET and P1;
PP_CONTACT# ends maker sessions when it breaks; a removal drains, then is READY, and PRESENT# then breaks without a sag. -/
def Obligations.PowerEvents : Prop :=
  ∀ s : State,
    let b := s.toBody
    let p := b.power
    let charging := fun (mv : Nat) => { p with state := .precharge, inputMv := mv, fetWait := .none, fetLatched := false : Power }
    let saving := fun (c : Instr) (q : Power → Prop) => ∃ t, exec c s = .next t ∧ t.power.state = .saving ∧ q t.power
      ∧ t.hifA.linkUp = false ∧ t.hifB.linkUp = false ∧ (∀ x ∈ t.lports, x.2.state = .disabled) ∧ (∀ x ∈ t.carts, x.2.state ≠ .atPower)
    (∀ mv, 41000 ≤ mv → p.state = .unpowered →
      (p.fetLatched = false → p.fetWait = .none →
        becomes (.presentDebounce mv) s { b with power := { charging mv with present := true } }
        ∧ (p.present = true → becomes (.sagRestart mv false) s { b with power := charging mv }))
      ∧ (p.present = true →
        becomes (.sagRestart mv true) s { b with power := { charging mv with ocOpened := false } }
        ∧ (p.fetLatched = false → p.fetWait ≠ .none → (p.fetWait = .overvoltage → mv ≤ 60000) → becomes (.controllerRestart mv) s { b with power := charging mv })))
    ∧ (p.state = .precharge →
        becomes .powerGood s { b with power := { p with state := .bringup, phase := 0, fetOn := true, lowLine := decide (p.inputMv < 43000) } })
    ∧ (p.state.saves = true →
        saving .supplySag (fun q => q.fetOn = p.fetOn)
        ∧ saving .overvoltage (fun q => q.fetOn = false ∧ q.fetWait = .overvoltage)
        ∧ (∀ again, saving (.overcurrent again) fun q => q.fetOn = false ∧ q.fetWait = .overcurrent ∧ q.ocOpened = true
            ∧ q.fetLatched = (p.ocOpened && again))
        ∧ (p.state ≠ .ready → saving .presentBreak fun q => q.present = false)
        ∧ (∀ on : Bool, p.lowLine ≠ on → becomes (if on then .lowLineEntry else .lowLineExit) s
            { b with power := { p with lowLine := on }, lantern := { b.lantern with gen := b.lantern.gen + 2 } }))
    ∧ (p.state = .saving →
        (∃ t, exec .sagSaveComplete s = .next t ∧ b.lostPower t.toBody ∧ t.mram.saveComplete = true ∧ t.mram.saveTime = b.clock.ns
          ∧ (4 ≤ p.phase → t.mram.counterSnapshot = some b.counters))
        ∧ (∃ t, exec .bankExhausted s = .next t ∧ b.lostPower t.toBody ∧ t.mram.saveComplete = false ∧ t.mram.gapOwed = true))
    ∧ (p.state = .ready → ∃ t, exec .presentBreak s = .next t ∧ b.lostPower t.toBody ∧ t.power.present = false ∧ t.mram = b.mram)
    ∧ (p.resets = true → ∃ t, exec .moduleReset s = .next t ∧ t.power.state = .inReset ∧ t.power.resetLow = true ∧ t.power.removeCmd = none
        ∧ t.clock.ns = b.clock.ns ∧ t.clock.frac = b.clock.frac ∧ t.clock.state = .free ∧ t.coll = {} ∧ t.mss = {} ∧ t.tables = {}
        ∧ t.hifA.linkUp = b.hifA.linkUp ∧ t.hifB.linkUp = b.hifB.linkUp ∧ t.sec.sessions = [] ∧ t.portage.cells = b.portage.cells)
    ∧ (p.state = .inReset → becomes .moduleResetRelease s
        { b with power := { p with state := .bringup, phase := 1, resetLow := false }, lantern := { b.lantern with gen := b.lantern.gen + 2 } })
    ∧ (b.sensed = true →
        becomes .ppContactAssert s { b with power := { p with ppContact := true } }
        ∧ ∃ t, exec .ppContactRelease s = .next t ∧ t.power.ppContact = false ∧ (∀ x ∈ t.sec.sessions, x.role ≠ .maker)
          ∧ ∀ x ∈ b.sec.sessions, (∀ y ∈ b.sec.sessions, y.id = x.id → y.role ≠ .maker) → x ∈ t.sec.sessions)
    ∧ (b.drainable = true → ∃ t, exec .removalDrainStart s = .next t ∧ t.power.draining = true
        ∧ ∀ wid w, mget t.mss.windows wid = some w → w.state ≠ .primary ∧ w.state ≠ .secondary)
    ∧ (b.removable = true → ∃ t, exec .readyToRemove s = .next t ∧ t.power.state = .ready ∧ t.power.removeCmd = none
        ∧ ∀ x ∈ t.carts, x.2.state ≠ .atPower)

/-- Bring-up (15 R386-R397; 13 R352): each phase whose checks pass leads to the next, the last to OPERATIONAL; a check that fails stops the
module with its cause on the Lantern page; a phase that takes twice its time stops it with PHASE_TIMEOUT. -/
def Obligations.BringupPhases : Prop :=
  ∀ (s : State) (f : Findings), s.power.state = .bringup →
    let b := s.toBody
    let v := s.hw
    let step := fuStep (nth s.fuses 4 0)
    let boot := fun k => bootSlot (b.image k) (slotBad f k) step
    let down := b.failedBlocks f s.fuses (fuOe (nth s.fuses 4 0))
    let dead := deadDies f down
    let fitted := setBits 20 b.lantern.fittedHbm
    let goes := fun (n : Nat) (q : State → Prop) =>
      ∃ t, exec (.bringupPhase f) s = .next t ∧ t.power.state = .bringup ∧ t.power.phase = n ∧ q t
    let stops := fun (c : Instr) (cause die stack : Nat) => ∃ t, exec c s = .next t ∧ t.power.state = .stopped
      ∧ t.lantern.stopCause = BitVec.ofNat 8 cause ∧ t.lantern.stopPhase = BitVec.ofNat 8 b.power.phase
      ∧ t.lantern.die = BitVec.ofNat 8 die ∧ t.lantern.stack = BitVec.ofNat 8 stack ∧ t.fuses = s.fuses
    (b.power.phase = 0 → goes 1 fun t => t.mram.saveComplete = false ∧ t.lantern.saveComplete = b.mram.saveComplete)
    ∧ (b.power.phase = 1 →
        ((∃ k, k < 4 ∧ boot k = none) → stops (.bringupPhase f) 1 0xFF 0xFF)
        ∧ ((∀ k, k < 4 → boot k ≠ none) → goes 2 fun t => t.mram.bootCount = b.mram.bootCount + 1
            ∧ ∀ k, k < 4 → k < b.sec.fw.length → boot k = some (t.toBody.image k).active))
    ∧ (b.power.phase = 2 →
        (∀ c k, fuseCause s.fuses dead = some (c, k) → stops (.bringupPhase f) c k 0xFF)
        ∧ (fuseCause s.fuses dead = none → goes (if v.hasFmem then 3 else 4) fun t =>
            t.lantern.serial = BitVec.ofNat 128 (fuSerial (nth s.fuses 4 0)) ∧ t.lantern.partno = BitVec.ofNat 16 (fuPartno (nth s.fuses 4 0))
            ∧ t.budget.cap = t.profiles.inForce.cap))
    ∧ (b.power.phase = 3 →
        (∀ n l, stackIds f.idBad fitted = n :: l → stops (.bringupPhase f) 7 0xFF n)
        ∧ (stackIds f.idBad fitted = [] →
            (b.profiles.inForce.partsOk b.variant = false → goes 2 fun t => t.profiles.refused = true ∧ t.lantern.profileStatus = 4)
            ∧ (b.profiles.inForce.partsOk b.variant = true →
                (∀ n, stackIds f.trainBad fitted = [n] → b.profiles.inForce.headroom = 72 → goes 4 fun t =>
                  t.toBody.stackSt n = .lost ∧ t.integ.headroomUsed = true)
                ∧ (∀ n l, stackIds f.trainBad fitted = n :: l → l ≠ [] ∨ b.profiles.inForce.headroom ≠ 72 →
                  stops (.bringupPhase f) 8 0xFF n)
                ∧ (stackIds f.trainBad fitted = [] → goes 4 fun t => t.coll.spillFree = b.profiles.inForce.spill * 1000000000 / 65536))))
    ∧ (b.power.phase = 4 → ∃ t, exec (.bringupPhase f) s = .next t ∧ t.power.state = .operational ∧ t.power.phase = 5
        ∧ t.mram.counterSnapshot = none ∧ (t.lantern.countersRestored = true ↔ b.mram.counterSnapshot ≠ none)
        ∧ (∀ n : Fin 20, (t.toBody.sett n).state = .quarantined ↔ n.val ∈ b.mram.quarantine)
        ∧ ∀ c, c < b.variant.cartridges → (b.cart c).state = .inserted → (∀ x ∈ f.cartsFailed, x.val ≠ c) → (t.toBody.cart c).state = .atPower)
    ∧ (b.power.phase < 5 → stops .phaseTimeout 9 0xFF 0xFF)

/-! ### Hall time, keys, audit, telemetry, firmware (13) -/

/-- Time and timers of the management plane (13 R340-R342, R347-R351, R361-R364; 11 R303; 17 Table 17-8): the parent is the best candidate, or lost;
HOLDOVER ends in FREE; IEEE 1588 messages offer or are announced; a pulse leaves; a challenge, a session and a lockout end; a checkpoint is
chained and its block kept; a stream's period writes its records; an activation steps on and ends. -/
def Obligations.ClocksAndKeys : Prop :=
  ∀ s : State,
    let b := s.toBody
    let c := b.clock
    (b.timed = true → ∀ p d, c.best = some (p, d) →
      let follows := ∃ t, exec .parentChange s = .next t ∧ t.clock.parent = some p ∧ t.clock.dist = BitVec.ofNat 8 d ∧ t.clock.ns = c.ns
        ∧ t.clock.state = (if c.held = false ∧ c.state = .locked then .holdover else c.state) ∧ t.toBody.quiet = { b with clock := t.clock }.quiet
      (c.held = true → d < c.dist.toNat → follows) ∧ (c.held = false → follows))
    ∧ (b.timed = true → c.best = none → ∀ p, c.parent = some p → ∃ t, exec .parentChange s = .next t ∧ t.clock.parent = none
        ∧ t.clock.dist = 255 ∧ t.clock.ns = c.ns ∧ t.clock.state = (if c.state = .locked then .holdover else c.state))
    ∧ (c.state = .holdover → runsTo .holdoverExpiry s { b with clock := { c with state := .free } })
    ∧ (∀ domain : Byte, b.timed = true → domain.toNat = b.profiles.inForce.ptpDomain →
        let said := fun (k : Nat) (slave : Bool) (m : Map Nat) => if slave ∧ 1 ≤ b.profiles.inForce.maxDist then mset m k 1 else mdel m k
        (∀ slave, ∃ t, exec (.ptpMessage none domain slave none) s = .next t ∧ t.clock.cands = said mgmtSource slave c.cands
          ∧ (slave = false → Out.ptp none (clockClass c.state) ∈ t.out))
        ∧ (∀ (l : Fin 2048) slave, LinkReady s l → b.isGateway (physOf l) = true →
          ∃ t, exec (.ptpMessage (some l) domain slave none) s = .next t ∧ t.clock.cands = said l (slave && b.slaveCapable l) c.cands
            ∧ (slave = false → Out.ptp (some l) (clockClass c.state) ∈ t.out)))
    ∧ (c.state ≠ .free → becomes .ppsPulse s { b with out := b.out ++ [.pps] })
    ∧ (∀ p ring, becomes (.challengeExpiry p ring) s { b with sec := { b.sec with challenges := b.sec.challenges.filter fun x => !x.at p ring } })
    ∧ (∀ id x, b.session id = some x → runsTo (.sessionExpiry id) s
        { b with sec := { b.sec with sessions := b.sec.sessions.filter fun y => y.id != id } })
    ∧ (∀ i, ∃ t, exec (.lockoutExpiry i) s = .next t ∧ (t.toBody.ifc i).lockout = false ∧ t.toBody.quiet = b.quiet)
    ∧ (b.power.state.runs = true →
        (b.sec.audit.since ≠ 0 → b.planes.mgmtRestart = false → ∃ t r, exec .checkpoint s = .next t ∧ t.toBody.quiet = b.quiet
          ∧ t.sec.audit.since = 0 ∧ t.sec.audit.lastCheckpoint = b.sec.audit.seq ∧ t.sec.audit.seq = b.sec.audit.seq + 1
          ∧ t.sec.audit.unsigned = b.sec.audit.unsigned ++ [r] ∧ t.sec.audit.ring.getLast? = some r ∧ t.sec.audit.chain = r.chain
          ∧ r.chain = sha384 (digestBytes b.sec.audit.chain ++ auditBytes r.body))
        ∧ (∀ r l, b.sec.audit.unsigned = r :: l → ∃ t, exec .checkpointSignatureReady s = .next t ∧ t.toBody.quiet = b.quiet
          ∧ t.sec.audit.unsigned = l ∧ t.sec.audit.blocks.getLast? = some (BitVec.ofNat 64 (fld r.body 63 0),
              Config.signature 4 (sha384 (ascii "HLMAUDC1" ++ (auditBytes r.body ++ digestBytes r.chain))))))
    ∧ (∀ i st, b.ringsRun = true → (b.ifc i).stream = some st →
        let q := (b.ifc i).tel
        ∃ t, exec (.telemetrySample i) s = .next t ∧ t.toBody.quiet = b.quiet
          ∧ (t.toBody.ifc i).stream = some { st with seq := st.seq + 1 }
          ∧ (q.state = .enabled → q.hasRoom = true → (b.ifc i).linkUp = true → 0 < st.list.length → st.list.length ≤ 6 →
            (t.toBody.ifc i).tel.pi = q.pi + 1 ∧ ∃ w, Out.record i true (q.slot 64) w ∈ t.out))
    ∧ (∀ (a : Activation) (ok : Bool), s.serves = true → b.sec.activation = some a → a.image < b.sec.fw.length →
        (ok = true → a.image ≠ 0 ∨ b.planes.mgmtRestart = false) → (ok = true → b.atLast a ≠ some false) →
        ∃ t, exec (.fwActivated ok) s = .next t ∧ t.sec.activation = none
          ∧ (t.toBody.image a.image).active = (if ok then a.slot else (b.image a.image).active))
    ∧ (∀ a : Activation, s.serves = true → b.sec.activation = some a → b.atLast a ≠ some true ∨ (a.image = 2 ∧ a.step % 2 = 0) →
        ∃ t, exec (.activationStepEnd true) s = .next t ∧ t.sec.activation = some { a with step := a.step + 1 }
          ∧ (a.image = 1 → b.integ.denA = .active → b.integ.denB = .loading → t.integ.denA = .loading ∧ t.integ.denB = .active))
end

