-- ==== Sys2Proof/Laws/Exec.lean ====
section
/-! SUPPORT. `exec` of each command, by the name of its meaning: a proof about a command never unfolds `exec` itself. -/
namespace Sys2Proof.Machine

variable (s : State)

@[simp] theorem exec_tableWrite (r data) : exec (.tableWrite r data) s = execTableWrite r data s := rfl

@[simp] theorem exec_tableBulkLoad (r data) : exec (.tableBulkLoad r data) s = execTableBulkLoad r data s := rfl

@[simp] theorem exec_tableFlip (r) : exec (.tableFlip r) s = execTableFlip r s := rfl

@[simp] theorem exec_groupCreate (r data) : exec (.groupCreate r data) s = execGroupCreate r data s := rfl

@[simp] theorem exec_groupExtend (r data) : exec (.groupExtend r data) s = execGroupExtend r data s := rfl

@[simp] theorem exec_groupFence (r data) : exec (.groupFence r data) s = execGroupFence r data s := rfl

@[simp] theorem exec_groupUnfence (r data) : exec (.groupUnfence r data) s = execGroupUnfence r data s := rfl

@[simp] theorem exec_groupDestroy (r) : exec (.groupDestroy r) s = execGroupDestroy r s := rfl

@[simp] theorem exec_ctxPolicySlot (r data) : exec (.ctxPolicySlot r data) s = execCtxPolicySlot r data s := rfl

@[simp] theorem exec_ctxPolicyOpen (r) : exec (.ctxPolicyOpen r) s = execCtxPolicyOpen r s := rfl

@[simp] theorem exec_ctxAbort (r) : exec (.ctxAbort r) s = execCtxAbort r s := rfl

@[simp] theorem exec_fmemCreate (r) : exec (.fmemCreate r) s = execFmemCreate r s := rfl

@[simp] theorem exec_fmemMirror (r survivor) : exec (.fmemMirror r survivor) s = execFmemMirror r survivor s := rfl

@[simp] theorem exec_fmemDestroy (r) : exec (.fmemDestroy r) s = execFmemDestroy r s := rfl

@[simp] theorem exec_fmemRestore (r data) : exec (.fmemRestore r data) s = execFmemRestore r data s := rfl

@[simp] theorem exec_fmemSave (r units) : exec (.fmemSave r units) s = execFmemSave r units s := rfl

@[simp] theorem exec_portMode (r) : exec (.portMode r) s = execPortMode r s := rfl

@[simp] theorem exec_portAdmin (r) : exec (.portAdmin r) s = execPortAdmin r s := rfl

@[simp] theorem exec_portBypassSet (r data) : exec (.portBypassSet r data) s = execPortBypassSet r data s := rfl

@[simp] theorem exec_portPrepareRemoveCartridge (r) : exec (.portPrepareRemoveCartridge r) s = execPortPrepareRemoveCartridge r s := rfl

@[simp] theorem exec_portPrepareRemoveModule (r) : exec (.portPrepareRemoveModule r) s = execPortPrepareRemoveModule r s := rfl

@[simp] theorem exec_portHold (r data) : exec (.portHold r data) s = execPortHold r data s := rfl

@[simp] theorem exec_portRelease (r data) : exec (.portRelease r data) s = execPortRelease r data s := rfl

@[simp] theorem exec_powerSetCap (r) : exec (.powerSetCap r) s = execPowerSetCap r s := rfl

@[simp] theorem exec_teleCounters (r units) : exec (.teleCounters r units) s = execTeleCounters r units s := rfl

@[simp] theorem exec_teleHwm (r units) : exec (.teleHwm r units) s = execTeleHwm r units s := rfl

@[simp] theorem exec_teleStream (r data) : exec (.teleStream r data) s = execTeleStream r data s := rfl

@[simp] theorem exec_secChallenge (r) : exec (.secChallenge r) s = execSecChallenge r s := rfl

@[simp] theorem exec_secOpen (r data sigOk) : exec (.secOpen r data sigOk) s = execSecOpen r data sigOk s := rfl

@[simp] theorem exec_secBind (r) : exec (.secBind r) s = execSecBind r s := rfl

@[simp] theorem exec_secElevate (r data sigOk) : exec (.secElevate r data sigOk) s = execSecElevate r data sigOk s := rfl

@[simp] theorem exec_secClose (r) : exec (.secClose r) s = execSecClose r s := rfl

@[simp] theorem exec_secTakeover (r) : exec (.secTakeover r) s = execSecTakeover r s := rfl

@[simp] theorem exec_secRelease (r) : exec (.secRelease r) s = execSecRelease r s := rfl

@[simp] theorem exec_fwStage (r data) : exec (.fwStage r data) s = execFwStage r data s := rfl

@[simp] theorem exec_fwActivate (r sigOk) : exec (.fwActivate r sigOk) s = execFwActivate r sigOk s := rfl

@[simp] theorem exec_fwActivated (ok) : exec (.fwActivated ok) s = execFwActivated ok s := rfl

@[simp] theorem exec_diagRead (r units) : exec (.diagRead r units) s = execDiagRead r units s := rfl

@[simp] theorem exec_diagRestartDataplane (r) : exec (.diagRestartDataplane r) s = execDiagRestartDataplane r s := rfl

@[simp] theorem exec_mailboxChallenge (m) : exec (.mailboxChallenge m) s = execMailboxChallenge m s := rfl

@[simp] theorem exec_mailboxOpen (m sigOk) : exec (.mailboxOpen m sigOk) s = execMailboxOpen m sigOk s := rfl

@[simp] theorem exec_mailboxElevate (m sigOk) : exec (.mailboxElevate m sigOk) s = execMailboxElevate m sigOk s := rfl

@[simp] theorem exec_mailboxClose (m) : exec (.mailboxClose m) s = execMailboxClose m s := rfl

@[simp] theorem exec_attest (m) : exec (.attest m) s = execAttest m s := rfl

@[simp] theorem exec_cert (m) : exec (.cert m) s = execCert m s := rfl

@[simp] theorem exec_catalog (m) : exec (.catalog m) s = execCatalog m s := rfl

@[simp] theorem exec_auditRead (m) : exec (.auditRead m) s = execAuditRead m s := rfl

@[simp] theorem exec_claim (m) : exec (.claim m) s = execClaim m s := rfl

@[simp] theorem exec_enroll (m) : exec (.enroll m) s = execEnroll m s := rfl

@[simp] theorem exec_revoke (m) : exec (.revoke m) s = execRevoke m s := rfl

@[simp] theorem exec_profileWrite (m) : exec (.profileWrite m) s = execProfileWrite m s := rfl

@[simp] theorem exec_profileRead (m) : exec (.profileRead m) s = execProfileRead m s := rfl

@[simp] theorem exec_fwApprove (m sigOk) : exec (.fwApprove m sigOk) s = execFwApprove m sigOk s := rfl

@[simp] theorem exec_svnCommit (m) : exec (.svnCommit m) s = execSvnCommit m s := rfl

@[simp] theorem exec_fuse (m) : exec (.fuse m) s = execFuse m s := rfl

@[simp] theorem exec_mfgTest (m) : exec (.mfgTest m) s = execMfgTest m s := rfl

@[simp] theorem exec_clearQuarantine (m) : exec (.clearQuarantine m) s = execClearQuarantine m s := rfl

@[simp] theorem exec_mailboxGo (f v) : exec (.mailboxGo f v) s = execMailboxGo f v s := rfl

@[simp] theorem exec_mailboxNext (f v) : exec (.mailboxNext f v) s = execMailboxNext f v s := rfl

@[simp] theorem exec_mailboxAbort (f v) : exec (.mailboxAbort f v) s = execMailboxAbort f v s := rfl

@[simp] theorem exec_mgmtPortDatagram (addr port part) : exec (.mgmtPortDatagram addr port part) s = execMgmtPortDatagram addr port part s := rfl

@[simp] theorem exec_commandRingEnable (f r v) : exec (.commandRingEnable f r v) s = execCommandRingEnable f r v s := rfl

@[simp] theorem exec_commandRingDisable (f r v) : exec (.commandRingDisable f r v) s = execCommandRingDisable f r v s := rfl

@[simp] theorem exec_completionRingEnable (f c v) : exec (.completionRingEnable f c v) s = execCompletionRingEnable f c v s := rfl

@[simp] theorem exec_completionRingDisable (f q v) : exec (.completionRingDisable f q v) s = execCompletionRingDisable f q v s := rfl

@[simp] theorem exec_eventRingDisable (f tel v) : exec (.eventRingDisable f tel v) s = execEventRingDisable f tel v s := rfl

@[simp] theorem exec_nudge (f off view) : exec (.nudge f off view) s = execNudge f off view s := rfl

@[simp] theorem exec_registerWrite (f off v four) : exec (.registerWrite f off v four) s = execRegisterWrite f off v four s := rfl

@[simp] theorem exec_doorbellPoll (f view) : exec (.doorbellPoll f view) s = execDoorbellPoll f view s := rfl

@[simp] theorem exec_descriptorPreempt (f) : exec (.descriptorPreempt f) s = execDescriptorPreempt f s := rfl

@[simp] theorem exec_descriptorResume (r) : exec (.descriptorResume r) s = execDescriptorResume r s := rfl

@[simp] theorem exec_pageRequestResponse (r a) : exec (.pageRequestResponse r a) s = execPageRequestResponse r a s := rfl

@[simp] theorem exec_priTimeout (r) : exec (.priTimeout r) s = execPriTimeout r s := rfl

@[simp] theorem exec_invalidation (f pages) : exec (.invalidation f pages) s = execInvalidation f pages s := rfl

@[simp] theorem exec_interfaceReset (f) : exec (.interfaceReset f) s = execInterfaceReset f s := rfl

@[simp] theorem exec_hifLinkLost (f) : exec (.hifLinkLost f) s = execHifLinkLost f s := rfl

@[simp] theorem exec_pcsLock (l) : exec (.pcsLock l) s = execPcsLock l s := rfl

@[simp] theorem exec_lightArrival (l) : exec (.lightArrival l) s = execLightArrival l s := rfl

@[simp] theorem exec_version (l src w0) : exec (.version l src w0) s = execVersion l src w0 s := rfl

@[simp] theorem exec_versionAck (l src w0) : exec (.versionAck l src w0) s = execVersionAck l src w0 s := rfl

@[simp] theorem exec_linkUp (l) : exec (.linkUp l) s = execLinkUp l s := rfl

@[simp] theorem exec_groupTransmit (l) : exec (.groupTransmit l) s = execGroupTransmit l s := rfl

@[simp] theorem exec_controlWord (l cw) : exec (.controlWord l cw) s = execControlWord l cw s := rfl

@[simp] theorem exec_codewordDecodeFailure (l g) : exec (.codewordDecodeFailure l g) s = execCodewordDecodeFailure l g s := rfl

@[simp] theorem exec_pcsLockLostTimeout (l) : exec (.pcsLockLostTimeout l) s = execPcsLockLostTimeout l s := rfl

@[simp] theorem exec_controlWordTimeout (l) : exec (.controlWordTimeout l) s = execControlWordTimeout l s := rfl

@[simp] theorem exec_timeReqSend (l) : exec (.timeReqSend l) s = execTimeReqSend l s := rfl

@[simp] theorem exec_timeReq (l w0 t1 f1 t2 f2) : exec (.timeReq l w0 t1 f1 t2 f2) s = execTimeReq l w0 t1 f1 t2 f2 s := rfl

@[simp] theorem exec_timeResp (l w t4 f4) : exec (.timeResp l w t4 f4) s = execTimeResp l w t4 f4 s := rfl

@[simp] theorem exec_frameArrival (p h x) : exec (.frameArrival p h x) s = execFrameArrival p h x s := rfl

@[simp] theorem exec_frameTailArrival (p r) : exec (.frameTailArrival p r) s = execFrameTailArrival p r s := rfl

@[simp] theorem exec_frameLaunch (l) : exec (.frameLaunch l) s = execFrameLaunch l s := rfl

@[simp] theorem exec_cutUnderrun (d) : exec (.cutUnderrun d) s = execCutUnderrun d s := rfl

@[simp] theorem exec_limiterCreditUpdate (die) : exec (.limiterCreditUpdate die) s = execLimiterCreditUpdate die s := rfl

@[simp] theorem exec_loadPublish (die) : exec (.loadPublish die) s = execLoadPublish die s := rfl

@[simp] theorem exec_alpOverUdpDatagram (l u) : exec (.alpOverUdpDatagram l u) s = execAlpOverUdpDatagram l u s := rfl

@[simp] theorem exec_ethernetFrameArrival (l e) : exec (.ethernetFrameArrival l e) s = execEthernetFrameArrival l e s := rfl

@[simp] theorem exec_encap (fid) : exec (.encap fid) s = execEncap fid s := rfl

@[simp] theorem exec_agingVisit (typ key) : exec (.agingVisit typ key) s = execAgingVisit typ key s := rfl

@[simp] theorem exec_rputArrival (fid) : exec (.rputArrival fid) s = execRputArrival fid s := rfl

@[simp] theorem exec_rresArrival (fid) : exec (.rresArrival fid) s = execRresArrival fid s := rfl

@[simp] theorem exec_confArrival (fid) : exec (.confArrival fid) s = execConfArrival fid s := rfl

@[simp] theorem exec_admitRecord (fid) : exec (.admitRecord fid) s = execAdmitRecord fid s := rfl

@[simp] theorem exec_openRecord (fid) : exec (.openRecord fid) s = execOpenRecord fid s := rfl

@[simp] theorem exec_closeRecord (fid) : exec (.closeRecord fid) s = execCloseRecord fid s := rfl

@[simp] theorem exec_answerArrival (fid) : exec (.answerArrival fid) s = execAnswerArrival fid s := rfl

@[simp] theorem exec_fmemPut (fid) : exec (.fmemPut fid) s = execFmemPut fid s := rfl

@[simp] theorem exec_fmemGet (fid) : exec (.fmemGet fid) s = execFmemGet fid s := rfl

@[simp] theorem exec_fmemAtomic (fid) : exec (.fmemAtomic fid) s = execFmemAtomic fid s := rfl

@[simp] theorem exec_gradientPut (fid) : exec (.gradientPut fid) s = execGradientPut fid s := rfl

@[simp] theorem exec_digestPut (fid) : exec (.digestPut fid) s = execDigestPut fid s := rfl

@[simp] theorem exec_joinCopyComplete (j) : exec (.joinCopyComplete j) s = execJoinCopyComplete j s := rfl

@[simp] theorem exec_duplicateFilterExpiry (src tag wid off) : exec (.duplicateFilterExpiry src tag wid off) s = execDuplicateFilterExpiry src tag wid off s := rfl

@[simp] theorem exec_feature (fid) : exec (.feature fid) s = execFeature fid s := rfl

@[simp] theorem exec_buddyHb (fid) : exec (.buddyHb fid) s = execBuddyHb fid s := rfl

@[simp] theorem exec_buddyHeartbeatSend (wid) : exec (.buddyHeartbeatSend wid) s = execBuddyHeartbeatSend wid s := rfl

@[simp] theorem exec_buddyTimeout (wid) : exec (.buddyTimeout wid) s = execBuddyTimeout wid s := rfl

@[simp] theorem exec_soloReq (fid) : exec (.soloReq fid) s = execSoloReq fid s := rfl

@[simp] theorem exec_soloGrant (fid) : exec (.soloGrant fid) s = execSoloGrant fid s := rfl

@[simp] theorem exec_soloDeny (d) : exec (.soloDeny d) s = execSoloDeny d s := rfl

@[simp] theorem exec_soloReqTimeout (n) : exec (.soloReqTimeout n) s = execSoloReqTimeout n s := rfl

@[simp] theorem exec_pairReset (fid) : exec (.pairReset fid) s = execPairReset fid s := rfl

@[simp] theorem exec_expressReq (fid) : exec (.expressReq fid) s = execExpressReq fid s := rfl

@[simp] theorem exec_expressAns (fid) : exec (.expressAns fid) s = execExpressAns fid s := rfl

@[simp] theorem exec_expressRel (fid) : exec (.expressRel fid) s = execExpressRel fid s := rfl

@[simp] theorem exec_expressMeasurement (peer) : exec (.expressMeasurement peer) s = execExpressMeasurement peer s := rfl

@[simp] theorem exec_drainComplete (l) : exec (.drainComplete l) s = execDrainComplete l s := rfl

@[simp] theorem exec_drainTimeout (l) : exec (.drainTimeout l) s = execDrainTimeout l s := rfl

@[simp] theorem exec_portageCellWriteComplete (g readBackOk) : exec (.portageCellWriteComplete g readBackOk) s = execPortageCellWriteComplete g readBackOk s := rfl

@[simp] theorem exec_laserDegraded (c w k) : exec (.laserDegraded c w k) s = execLaserDegraded c w k s := rfl

@[simp] theorem exec_laserFailed (c w k) : exec (.laserFailed c w k) s = execLaserFailed c w k s := rfl

@[simp] theorem exec_cartridgeRemoved (c) : exec (.cartridgeRemoved c) s = execCartridgeRemoved c s := rfl

@[simp] theorem exec_cartridgeInserted (c) : exec (.cartridgeInserted c) s = execCartridgeInserted c s := rfl

@[simp] theorem exec_cartridgeAtPower (c) : exec (.cartridgeAtPower c) s = execCartridgeAtPower c s := rfl

@[simp] theorem exec_holdLimitExpiry (l) : exec (.holdLimitExpiry l) s = execHoldLimitExpiry l s := rfl

@[simp] theorem exec_settDispatch (n) : exec (.settDispatch n) s = execSettDispatch n s := rfl

@[simp] theorem exec_checkVerdict (k faulty) : exec (.checkVerdict k faulty) s = execCheckVerdict k faulty s := rfl

@[simp] theorem exec_arbitrationComplete (k differs checkOk) : exec (.arbitrationComplete k differs checkOk) s = execArbitrationComplete k differs checkOk s := rfl

@[simp] theorem exec_duplicateCompare (k differs checkOk) : exec (.duplicateCompare k differs checkOk) s = execDuplicateCompare k differs checkOk s := rfl

@[simp] theorem exec_specTimeout (k) : exec (.specTimeout k) s = execSpecTimeout k s := rfl

@[simp] theorem exec_partialResend (k) : exec (.partialResend k) s = execPartialResend k s := rfl

@[simp] theorem exec_reservationGrant : exec .reservationGrant s = execReservationGrant s := rfl

@[simp] theorem exec_admissionWindowExpiry (c) : exec (.admissionWindowExpiry c) s = execAdmissionWindowExpiry c s := rfl

@[simp] theorem exec_admitWaitExpiry (c) : exec (.admitWaitExpiry c) s = execAdmitWaitExpiry c s := rfl

@[simp] theorem exec_contextDeadline (c) : exec (.contextDeadline c) s = execContextDeadline c s := rfl

@[simp] theorem exec_contextScrub : exec .contextScrub s = execContextScrub s := rfl

@[simp] theorem exec_demand (v) : exec (.demand v) s = execDemand v s := rfl

@[simp] theorem exec_energyGrant : exec .energyGrant s = execEnergyGrant s := rfl

@[simp] theorem exec_tokenLapse (u) : exec (.tokenLapse u) s = execTokenLapse u s := rfl

@[simp] theorem exec_powerMeasurement (watts overMax) : exec (.powerMeasurement watts overMax) s = execPowerMeasurement watts overMax s := rfl

@[simp] theorem exec_thermalEmergency (e tj) : exec (.thermalEmergency e tj) s = execThermalEmergency e tj s := rfl

@[simp] theorem exec_thermalClear (e tj) : exec (.thermalClear e tj) s = execThermalClear e tj s := rfl

@[simp] theorem exec_thermalStop (u) : exec (.thermalStop u) s = execThermalStop u s := rfl

@[simp] theorem exec_saturationEvaluation (view) : exec (.saturationEvaluation view) s = execSaturationEvaluation view s := rfl

@[simp] theorem exec_testRotation (die) : exec (.testRotation die) s = execTestRotation die s := rfl

@[simp] theorem exec_settTestStart (n) : exec (.settTestStart n) s = execSettTestStart n s := rfl

@[simp] theorem exec_settTestComplete (n pass pattern) : exec (.settTestComplete n pass pattern) s = execSettTestComplete n pass pattern s := rfl

@[simp] theorem exec_testBudgetDefer (n) : exec (.testBudgetDefer n) s = execTestBudgetDefer n s := rfl

@[simp] theorem exec_denHeartbeatLoss : exec .denHeartbeatLoss s = execDenHeartbeatLoss s := rfl

@[simp] theorem exec_denTestStart : exec .denTestStart s = execDenTestStart s := rfl

@[simp] theorem exec_denTestComplete (pass) : exec (.denTestComplete pass) s = execDenTestComplete pass s := rfl

@[simp] theorem exec_stackLost (n) : exec (.stackLost n) s = execStackLost n s := rfl

@[simp] theorem exec_stackDrainStart (n) : exec (.stackDrainStart n) s = execStackDrainStart n s := rfl

@[simp] theorem exec_stackDrainCopyComplete (n) : exec (.stackDrainCopyComplete n) s = execStackDrainCopyComplete n s := rfl

@[simp] theorem exec_stackTestComplete (n pass) : exec (.stackTestComplete n pass) s = execStackTestComplete n pass s := rfl

@[simp] theorem exec_stackCopyBackComplete (n) : exec (.stackCopyBackComplete n) s = execStackCopyBackComplete n s := rfl

@[simp] theorem exec_ridgepoleLaneFault (die blk lane) : exec (.ridgepoleLaneFault die blk lane) s = execRidgepoleLaneFault die blk lane s := rfl

@[simp] theorem exec_probeCell (die port) : exec (.probeCell die port) s = execProbeCell die port s := rfl

@[simp] theorem exec_probeFail (die port) : exec (.probeFail die port) s = execProbeFail die port s := rfl

@[simp] theorem exec_memberSuspect (g rank missing) : exec (.memberSuspect g rank missing) s = execMemberSuspect g rank missing s := rfl

@[simp] theorem exec_fatalStop (subsys u) : exec (.fatalStop subsys u) s = execFatalStop subsys u s := rfl

@[simp] theorem exec_dataplaneFault : exec .dataplaneFault s = execDataplaneFault s := rfl

@[simp] theorem exec_managementPlaneFault : exec .managementPlaneFault s = execManagementPlaneFault s := rfl

@[simp] theorem exec_challengeExpiry (p ring) : exec (.challengeExpiry p ring) s = execChallengeExpiry p ring s := rfl

@[simp] theorem exec_sessionExpiry (id) : exec (.sessionExpiry id) s = execSessionExpiry id s := rfl

@[simp] theorem exec_lockoutExpiry (f) : exec (.lockoutExpiry f) s = execLockoutExpiry f s := rfl

@[simp] theorem exec_checkpoint : exec .checkpoint s = execCheckpoint s := rfl

@[simp] theorem exec_checkpointSignatureReady : exec .checkpointSignatureReady s = execCheckpointSignatureReady s := rfl

@[simp] theorem exec_telemetrySample (f) : exec (.telemetrySample f) s = execTelemetrySample f s := rfl

@[simp] theorem exec_parentChange : exec .parentChange s = execParentChange s := rfl

@[simp] theorem exec_holdoverExpiry : exec .holdoverExpiry s = execHoldoverExpiry s := rfl

@[simp] theorem exec_ptpMessage (port domain slave offset) : exec (.ptpMessage port domain slave offset) s = execPtpMessage port domain slave offset s := rfl

@[simp] theorem exec_ppsPulse : exec .ppsPulse s = execPpsPulse s := rfl

@[simp] theorem exec_presentDebounce (mv) : exec (.presentDebounce mv) s = execPresentDebounce mv s := rfl

@[simp] theorem exec_powerGood : exec .powerGood s = execPowerGood s := rfl

@[simp] theorem exec_presentBreak : exec .presentBreak s = execPresentBreak s := rfl

@[simp] theorem exec_supplySag : exec .supplySag s = execSupplySag s := rfl

@[simp] theorem exec_sagSaveComplete : exec .sagSaveComplete s = execSagSaveComplete s := rfl

@[simp] theorem exec_sagRestart (mv gone) : exec (.sagRestart mv gone) s = execSagRestart mv gone s := rfl

@[simp] theorem exec_overvoltage : exec .overvoltage s = execOvervoltage s := rfl

@[simp] theorem exec_overcurrent (again) : exec (.overcurrent again) s = execOvercurrent again s := rfl

@[simp] theorem exec_controllerRestart (mv) : exec (.controllerRestart mv) s = execControllerRestart mv s := rfl

@[simp] theorem exec_lowLineEntry : exec .lowLineEntry s = execLowLineEntry s := rfl

@[simp] theorem exec_lowLineExit : exec .lowLineExit s = execLowLineExit s := rfl

@[simp] theorem exec_moduleReset : exec .moduleReset s = execModuleReset s := rfl

@[simp] theorem exec_moduleResetRelease : exec .moduleResetRelease s = execModuleResetRelease s := rfl

@[simp] theorem exec_ppContactAssert : exec .ppContactAssert s = execPpContactAssert s := rfl

@[simp] theorem exec_ppContactRelease : exec .ppContactRelease s = execPpContactRelease s := rfl

@[simp] theorem exec_bringupPhase (f) : exec (.bringupPhase f) s = execBringupPhase f s := rfl

@[simp] theorem exec_phaseTimeout : exec .phaseTimeout s = execPhaseTimeout s := rfl

@[simp] theorem exec_removalDrainStart : exec .removalDrainStart s = execRemovalDrainStart s := rfl

@[simp] theorem exec_readyToRemove : exec .readyToRemove s = execReadyToRemove s := rfl

@[simp] theorem exec_controlPlaneRestart : exec .controlPlaneRestart s = execControlPlaneRestart s := rfl

@[simp] theorem exec_planeRestartComplete (p) : exec (.planeRestartComplete p) s = execPlaneRestartComplete p s := rfl

@[simp] theorem exec_dmaUnitComplete (f data) : exec (.dmaUnitComplete f data) s = execDmaUnitComplete f data s := rfl

@[simp] theorem exec_atsTranslationComplete (f page granted) : exec (.atsTranslationComplete f page granted) s = execAtsTranslationComplete f page granted s := rfl

@[simp] theorem exec_hifLinkUp (f) : exec (.hifLinkUp f) s = execHifLinkUp f s := rfl

@[simp] theorem exec_bankExhausted : exec .bankExhausted s = execBankExhausted s := rfl

@[simp] theorem exec_expressDwellExpiry (g) : exec (.expressDwellExpiry g) s = execExpressDwellExpiry g s := rfl

@[simp] theorem exec_activationStepEnd (ok) : exec (.activationStepEnd ok) s = execActivationStepEnd ok s := rfl

end Sys2Proof.Machine
end

