-- ==== Sys2Proof/Laws/Report.lean ====
section
/-! SUPPORT. Reports and the course of a host command leave everything else alone (`Body.quiet`): said once for each shared
operation, so that a family's proof never unfolds one. -/
namespace Sys2Proof.Machine

variable (s : Body)

/-- A fold of operations that each keep a view keeps it. -/
theorem foldl_keeps {α β γ : Type} (v : β → γ) (f : β → α → β) (h : ∀ b a, v (f b a) = v b) (l : List α) (b : β) :
    v (l.foldl f b) = v b := by
  induction l generalizing b with
  | nil => rfl
  | cons a t ih => rw [List.foldl_cons, ih, h]

@[simp] theorem quiet_quiet : s.quiet.quiet = s.quiet := rfl

theorem power_of_quiet {a b : Body} (h : a.quiet = b.quiet) : a.power = b.power := by
  show a.quiet.power = b.quiet.power; rw [h]

theorem lantern_of_quiet {a b : Body} (h : a.quiet = b.quiet) : a.lantern = b.lantern := by
  show a.quiet.lantern = b.quiet.lantern; rw [h]

theorem tables_of_quiet {a b : Body} (h : a.quiet = b.quiet) : a.tables = b.tables := by
  show a.quiet.tables = b.quiet.tables; rw [h]

theorem portage_of_quiet {a b : Body} (h : a.quiet = b.quiet) : a.portage = b.portage := by
  show a.quiet.portage = b.quiet.portage; rw [h]

theorem lports_of_quiet {a b : Body} (h : a.quiet = b.quiet) : a.lports = b.lports := by
  show a.quiet.lports = b.quiet.lports; rw [h]

theorem carts_of_quiet {a b : Body} (h : a.quiet = b.quiet) : a.carts = b.carts := by
  show a.quiet.carts = b.quiet.carts; rw [h]

theorem fwc_of_quiet {a b : Body} (h : a.quiet = b.quiet) : a.fwc = b.fwc := by
  show a.quiet.fwc = b.quiet.fwc; rw [h]

theorem tms_of_quiet {a b : Body} (h : a.quiet = b.quiet) : a.tms = b.tms := by
  show a.quiet.tms = b.quiet.tms; rw [h]

theorem setts_of_quiet {a b : Body} (h : a.quiet = b.quiet) : a.setts = b.setts := by
  show a.quiet.setts = b.quiet.setts; rw [h]

theorem coll_of_quiet {a b : Body} (h : a.quiet = b.quiet) : a.coll = b.coll := by
  show a.quiet.coll = b.quiet.coll; rw [h]

theorem mss_of_quiet {a b : Body} (h : a.quiet = b.quiet) : a.mss = b.mss := by
  show a.quiet.mss = b.quiet.mss; rw [h]

theorem integ_of_quiet {a b : Body} (h : a.quiet = b.quiet) : a.integ = b.integ := by
  show a.quiet.integ = b.quiet.integ; rw [h]

theorem budget_of_quiet {a b : Body} (h : a.quiet = b.quiet) : a.budget = b.budget := by
  show a.quiet.budget = b.quiet.budget; rw [h]

theorem clock_of_quiet {a b : Body} (h : a.quiet = b.quiet) : a.clock = b.clock := by
  show a.quiet.clock = b.quiet.clock; rw [h]

theorem profiles_of_quiet {a b : Body} (h : a.quiet = b.quiet) : a.profiles = b.profiles := by
  show a.quiet.profiles = b.quiet.profiles; rw [h]

theorem planes_of_quiet {a b : Body} (h : a.quiet = b.quiet) : a.planes = b.planes := by
  show a.quiet.planes = b.quiet.planes; rw [h]

@[simp] theorem quiet_setIfc (i : Fin 2) (f : Iface) : (s.setIfc i f).quiet = s.quiet := by
  unfold Body.setIfc; split <;> rfl

@[simp] theorem quiet_modIfc (i : Fin 2) (g : Iface → Iface) : (s.modIfc i g).quiet = s.quiet := by simp [Body.modIfc]

@[simp] theorem quiet_putOut (o : Out) : (s.putOut o).quiet = s.quiet := rfl

@[simp] theorem quiet_signal (i : Fin 2) (v : Nat) : (s.signal i v).quiet = s.quiet := by
  unfold Body.signal; dsimp only; split
  · rfl
  · split <;> simp

@[simp] theorem quiet_raise (i : Fin 2) (e : Err) : (s.raise i e).quiet = s.quiet := by
  unfold Body.raise; dsimp only; split
  · rfl
  · split <;> simp

@[simp] theorem quiet_eventTo (i : Fin 2) (e : Ev) : (s.eventTo i e).quiet = s.quiet := by
  unfold Body.eventTo; dsimp only; split <;> simp

@[simp] theorem quiet_eventOut (e : Ev) : (s.eventOut e).quiet = s.quiet := by simp [Body.eventOut]

theorem quiet_logged (l : List Ev) : ({ s with evlog := l } : Body).quiet = s.quiet := rfl

theorem quiet_held (l : List Ev) : ({ s with events := l } : Body).quiet = s.quiet := rfl

theorem quiet_drawn (m : Map Nat) (n : Nat) : ({ s with sampleAt := m, free := n } : Body).quiet = s.quiet := rfl

theorem quiet_withAudit (a : Audit) : ({ s with sec := { s.sec with audit := a } } : Body).quiet = s.quiet := rfl

@[simp] theorem quiet_emit (c : Nat) (p : List Nat) : (s.emit c p).quiet = s.quiet := by
  unfold Body.emit; extract_lets e s1; split
  · exact (quiet_eventOut s1 e).trans (quiet_logged s _)
  · exact (quiet_held s1 _).trans (quiet_logged s _)

@[simp] theorem quiet_flushEvents : s.flushEvents.quiet = s.quiet := by
  unfold Body.flushEvents; rw [foldl_keeps Body.quiet _ (fun b e => quiet_eventOut b e)]; rfl

@[simp] theorem quiet_plainBump (c : Ctr) (i n : Nat) : (s.plainBump c i n).quiet = s.quiet := rfl

@[simp] theorem quiet_sampleNow (u id v : Nat) : (s.sampleNow u id v).quiet = s.quiet := by
  unfold Body.sampleNow; extract_lets skip w; split
  · rfl
  · rw [quiet_emit]; exact quiet_drawn s _ _

@[simp] theorem quiet_sample (c : Ctr) (i o n : Nat) : (s.sample c i o n).quiet = s.quiet := by
  unfold Body.sample; apply foldl_keeps Body.quiet
  intro b w; dsimp only; split
  · rfl
  · split <;> simp

@[simp] theorem quiet_bumpBy (c : Ctr) (i n : Nat) : (s.bumpBy c i n).quiet = s.quiet := by
  unfold Body.bumpBy; split <;> simp

@[simp] theorem quiet_bump (c : Ctr) (i : Nat) : (s.bump c i).quiet = s.quiet := by simp [Body.bump]

@[simp] theorem quiet_exportAudit (a : AuditRec) : (s.exportAudit a).quiet = s.quiet := by simp [Body.exportAudit]

@[simp] theorem quiet_chainOne (b : BitVec 640) : (s.chainOne b).quiet = s.quiet := by
  unfold Body.chainOne; extract_lets
  exact (quiet_exportAudit _ _).trans (quiet_withAudit s _)

@[simp] theorem quiet_payGap : s.payGap.quiet = s.quiet := by
  unfold Body.payGap; split
  · rw [quiet_chainOne]; rfl
  · rfl

@[simp] theorem quiet_audit (a : AuditArgs) : (s.audit a).quiet = s.quiet := by
  unfold Body.audit; extract_lets b x y; split
  · exact quiet_withAudit s _
  · simp

@[simp] theorem quiet_auditModule (c o ob st : Nat) : (s.auditModule c o ob st).quiet = s.quiet := by simp [Body.auditModule]

@[simp] theorem quiet_writeCompl (i : Fin 2) (q : Nat) (c : Compl) : (s.writeCompl i q c).quiet = s.quiet := by
  unfold Body.writeCompl; dsimp only; split <;> simp

@[simp] theorem quiet_postCompl (i : Fin 2) (q : Nat) (c : Compl) : (s.postCompl i q c).quiet = s.quiet := by
  unfold Body.postCompl; dsimp only; split <;> simp

@[simp] theorem quiet_drainHeld (i : Fin 2) (q n : Nat) : (s.drainHeld i q n).quiet = s.quiet := by
  induction n generalizing s with
  | zero => rfl
  | succ n ih => 
    unfold Body.drainHeld; dsimp only; split
    · rfl
    · split
      · rw [ih]; simp
      · rfl

@[simp] theorem quiet_drainIfc (i : Fin 2) : (s.drainIfc i).quiet = s.quiet := by
  unfold Body.drainIfc; apply foldl_keeps Body.quiet; intro b x; exact quiet_drainHeld b i x.1 x.2

@[simp] theorem quiet_setRing (r : CmdRef) (x : CmdRing) : (s.setRing r x).quiet = s.quiet := by simp [Body.setRing]

@[simp] theorem quiet_putDesc (r : CmdRef) (d : Desc) : (s.putDesc r d).quiet = s.quiet := by simp [Body.putDesc]

@[simp] theorem quiet_setEngine (i : Fin 2) (r : Option CmdRef) : (s.setEngine i r).quiet = s.quiet := by simp [Body.setEngine]

@[simp] theorem quiet_releaseEngine (r : CmdRef) : (s.releaseEngine r).quiet = s.quiet := by
  unfold Body.releaseEngine; split <;> simp

@[simp] theorem quiet_invEnd (i : Fin 2) : (s.invEnd i).quiet = s.quiet := by
  unfold Body.invEnd; dsimp only; rw [foldl_keeps Body.quiet _ (fun b _ => quiet_putOut b _)]; simp

@[simp] theorem quiet_holdEngine (i : Fin 2) : (s.holdEngine i).quiet = s.quiet := by
  unfold Body.holdEngine; split
  · rfl
  · split <;> simp

@[simp] theorem quiet_dropDesc (r : CmdRef) : (s.dropDesc r).quiet = s.quiet := by
  unfold Body.dropDesc; dsimp only; split <;> simp

@[simp] theorem quiet_auditCmd (r : CmdRef) (d : Desc) (st d1 : Nat) : (s.auditCmd r d st d1).quiet = s.quiet := by
  unfold Body.auditCmd; split <;> simp

@[simp] theorem quiet_postEnded (i : Fin 2) (g : Fin 64) (n : Nat) : (s.postEnded i g n).quiet = s.quiet := by
  induction n generalizing s with
  | zero => rfl
  | succ n ih =>
    unfold Body.postEnded; split
    · rfl
    · split
      · rw [ih]; simp
      · rfl

@[simp] theorem quiet_completeOne (r : CmdRef) (d : Desc) (st d0 d1 : Nat) : (s.completeOne r d st d0 d1).quiet = s.quiet := by
  unfold Body.completeOne; dsimp only; split <;> split <;> simp

@[simp] theorem quiet_settleRing (i : Fin 2) (g : Fin 64) (n : Nat) : (s.settleRing i g n).quiet = s.quiet := by
  induction n generalizing s with
  | zero => rfl
  | succ n ih =>
    unfold Body.settleRing; dsimp only; split
    · rfl
    · split
      · rw [ih]; simp
      · rfl

@[simp] theorem quiet_settle (r : CmdRef) : (s.settle r).quiet = s.quiet := by simp [Body.settle]

@[simp] theorem quiet_completeRef (r : CmdRef) (st d0 d1 : Nat) : (s.completeRef r st d0 d1).quiet = s.quiet := by
  unfold Body.completeRef; split <;> simp

@[simp] theorem quiet_concludeRes (r : CmdRef) (res : HostRes) : (concludeRes r res).quiet = res.s.quiet := by
  unfold concludeRes; split
  · rfl
  · split <;> simp

@[simp] theorem quiet_moreUnits (r : CmdRef) (d : Desc) : (s.moreUnits r d).quiet = s.quiet := by
  unfold Body.moreUnits; split <;> simp

@[simp] theorem quiet_rand32 : s.rand32.2.quiet = s.quiet := rfl

@[simp] theorem quiet_rand256 : s.rand256.2.quiet = s.quiet := rfl

@[simp] theorem quiet_timeEvent : s.timeEvent.quiet = s.quiet := by simp [Body.timeEvent]

@[simp] theorem quiet_atRun (sp : CmdSpec) (r : CmdRef) (d : Desc) (data : List Byte) :
    (s.atRun sp r d data).quiet = s.quiet := by simp [Body.atRun]

/-- The statuses before its own that a started descriptor meets, in their order (11 R295, Table 11-8). -/
theorem hostCmd_found {sp : CmdSpec} {r : CmdRef} {d : Desc} {data : List Byte} {u : Nat} (h : s.desc r = some d)
    (hc : d.cls = sp.cls) (ho : d.op = sp.op) (hs : s.startable r = true) :
    hostCmd sp s r data u =
      (if !(s.begun r d).headerOk ((s.ifc r.iface).cq (s.begun r d).cqn).format then s
       else if sp.bad0 s r (s.begun r d) then (s.putDesc r (s.begun r d)).completeRef r 4 0 0
       else if !(s.begun r d).allowed (s.begun r d).role then (s.putDesc r (s.begun r d)).completeRef r 3 0 0
       else if sp.needsEngine (s.begun r d) && !s.engineFree r then s
       else (s.putDesc r (s.startDesc sp r d)).advance sp r (s.startDesc sp r d) data u true) := by
  have h2 : ¬ (d.cls ≠ sp.cls ∨ d.op ≠ sp.op ∨ !s.startable r) := by simp [hc, ho, hs]
  unfold hostCmd
  rw [h]; dsimp only; rw [if_neg h2]; rfl

/-- A command that starts goes on with its data. -/
theorem hostCmd_of_starts {sp : CmdSpec} {r : CmdRef} {d : Desc} {data : List Byte} {u : Nat} (h : Starts sp s r d) :
    hostCmd sp s r data u = (s.putDesc r (s.startDesc sp r d)).advance sp r (s.startDesc sp r d) data u true := by
  have e1 : (s.begun r d).headerOk ((s.ifc r.iface).cq (s.begun r d).cqn).format = true := h.header
  have e2 : (s.begun r d).allowed (s.begun r d).role = true := h.role
  have e3 : (sp.needsEngine (s.begun r d) && !s.engineFree r) = false := by
    rcases h.engine with h | h <;> simp [h]
  rw [hostCmd_found s h.found h.cls h.op h.start, e1, h.good0, e2, e3]
  simp only [Bool.not_true, Bool.false_eq_true, if_false]

/-- A ready command is carried out at once and concluded with its own answer (11 R290, R295). -/
theorem hostCmd_of_ready {sp : CmdSpec} {r : CmdRef} {d : Desc} {data : List Byte} {u : Nat} (h : Ready sp s r d data)
    (hm : sp.mode = .atomic sp.need sp.bad1 sp.run)
    (hneed : ∀ d1 d2 : Desc, d1.w = d2.w → d1.step0 = d2.step0 → sp.need d1 = sp.need d2) :
    hostCmd sp s r data u =
      concludeRes r (sp.run (s.atRun sp r d data) r (s.runDesc sp r d data) (s.runDesc sp r d data).buf) := by
  rw [hostCmd_of_starts s h.toStarts]
  unfold Body.advance; rw [hm]; dsimp only
  have hb : (s.startDesc sp r d).buf ++ data = data := by show d.buf ++ data = data; rw [h.fresh]; rfl
  have hlen : (data.take (sp.need (s.startDesc sp r d))).length = sp.need (s.startDesc sp r d) := by
    rw [List.length_take]; have := h.enough; omega
  rw [hb, hlen]
  rw [hneed { s.startDesc sp r d with
    buf := data.take (sp.need (s.startDesc sp r d)), done := sp.need (s.startDesc sp r d) } (s.startDesc sp r d) rfl rfl]
  rw [if_neg (Nat.lt_irrefl _)]
  have hc : (sp.control && (s.atRun sp r d data).planes.controlRestart) = false := by
    rw [show (s.atRun sp r d data).planes = s.planes from planes_of_quiet (quiet_atRun s sp r d data)]
    cases hx : sp.control
    · rfl
    · rw [h.served hx]; rfl
  have hg := h.good1
  have hp := h.pre
  have hf := h.free
  change Body.decide (s.atRun sp r d data) sp r (s.runDesc sp r d data)
    (sp.bad1 (s.putDesc r (s.startDesc sp r d)) (s.runDesc sp r d data) (s.runDesc sp r d data).buf) _ = _
  unfold Body.decide
  rw [hc, hg, hp, hf]
  rfl

/-- Beyond reports, a ready command does its own effect alone. -/
theorem quiet_of_ready {sp : CmdSpec} {r : CmdRef} {d : Desc} {data : List Byte} {u : Nat} (h : Ready sp s r d data)
    (hm : sp.mode = .atomic sp.need sp.bad1 sp.run)
    (hneed : ∀ d1 d2 : Desc, d1.w = d2.w → d1.step0 = d2.step0 → sp.need d1 = sp.need d2) :
    (hostCmd sp s r data u).quiet =
      (sp.run (s.atRun sp r d data) r (s.runDesc sp r d data) (s.runDesc sp r d data).buf).s.quiet := by
  rw [hostCmd_of_ready s h hm hneed, quiet_concludeRes]

/-- The first data or units of a streamed command. -/
theorem hostCmd_of_streams {sp : CmdSpec} {r : CmdRef} {d : Desc} {data : List Byte} {u : Nat} (h : Streams sp s r d)
    (hm : ∀ need bad1 run, sp.mode ≠ .atomic need bad1 run) : hostCmd sp s r data u = sp.moves s r d data u := by
  rw [hostCmd_of_starts s h.toStarts]
  have hc : (sp.control && (s.putDesc r (s.startDesc sp r d)).planes.controlRestart) = false := by
    rw [show (s.putDesc r (s.startDesc sp r d)).planes = s.planes from planes_of_quiet (quiet_putDesc s r _)]
    cases hx : sp.control
    · rfl
    · rw [h.served hx]; rfl
  have hp := h.pre
  have hf := h.free
  unfold Body.advance CmdSpec.moves
  cases hx : sp.mode with
  | atomic need bad1 run => exact absurd hx (hm _ _ _)
  | input => dsimp only; rw [Bool.true_and, hc, hp, hf]; rfl
  | output => dsimp only; rw [hp]; rfl

end Sys2Proof.Machine
end

