-- ==== Sys2Proof/Laws/Out.lean ====
section
/-! SUPPORT. What has left the module stays on record: reports only add to `out`. -/
namespace Sys2Proof.Machine

/-- All that had left in `a` has left in `b`. -/
def Grows (a b : Body) : Prop := a.out <+: b.out

variable (s : Body)

theorem Grows.refl : Grows s s := List.prefix_rfl

theorem Grows.trans {a b c : Body} (h : Grows a b) (k : Grows b c) : Grows a c := List.IsPrefix.trans h k

theorem Grows.mem {a b : Body} {o : Out} (h : Grows a b) (ho : o ∈ a.out) : o ∈ b.out := h.subset ho

/-- An operation that leaves `out` as it is. -/
theorem Grows.of_eq {a b : Body} (h : b.out = a.out) : Grows a b := by unfold Grows; rw [h]

theorem foldl_grows {α : Type} (f : Body → α → Body) (h : ∀ b a, Grows b (f b a)) (l : List α) (b : Body) :
    Grows b (l.foldl f b) := by
  induction l generalizing b with
  | nil => exact Grows.refl b
  | cons a t ih => exact (h b a).trans (ih _)

@[simp] theorem out_setIfc (i : Fin 2) (f : Iface) : (s.setIfc i f).out = s.out := by unfold Body.setIfc; split <;> rfl

@[simp] theorem out_modIfc (i : Fin 2) (g : Iface → Iface) : (s.modIfc i g).out = s.out := by simp [Body.modIfc]

@[simp] theorem out_setRing (r : CmdRef) (x : CmdRing) : (s.setRing r x).out = s.out := by simp [Body.setRing]

@[simp] theorem out_putDesc (r : CmdRef) (d : Desc) : (s.putDesc r d).out = s.out := by simp [Body.putDesc]

@[simp] theorem out_setEngine (i : Fin 2) (r : Option CmdRef) : (s.setEngine i r).out = s.out := by simp [Body.setEngine]

@[simp] theorem out_releaseEngine (r : CmdRef) : (s.releaseEngine r).out = s.out := by
  unfold Body.releaseEngine; split <;> simp

@[simp] theorem out_dropDesc (r : CmdRef) : (s.dropDesc r).out = s.out := by
  unfold Body.dropDesc; dsimp only; split <;> simp

@[simp] theorem out_moreUnits (r : CmdRef) (d : Desc) : (s.moreUnits r d).out = s.out := by
  unfold Body.moreUnits; split <;> simp

theorem grows_putOut (o : Out) : Grows s (s.putOut o) := List.prefix_append _ _

theorem grows_signal (i : Fin 2) (v : Nat) : Grows s (s.signal i v) := by
  unfold Body.signal; dsimp only; split
  · exact Grows.refl s
  · split
    · exact Grows.of_eq (out_setIfc ..)
    · exact grows_putOut s _

theorem grows_eventTo (i : Fin 2) (e : Ev) : Grows s (s.eventTo i e) := by
  unfold Body.eventTo; dsimp only; split
  · exact (Grows.of_eq (out_setIfc s i _)).trans (grows_putOut _ _)
  · exact Grows.of_eq (out_setIfc ..)

theorem grows_eventOut (e : Ev) : Grows s (s.eventOut e) := (grows_eventTo s 0 e).trans (grows_eventTo _ 1 e)

theorem grows_emit (c : Nat) (p : List Nat) : Grows s (s.emit c p) := by
  unfold Body.emit; extract_lets e s1; split
  · exact (Grows.of_eq (a := s) (b := s1) rfl).trans (grows_eventOut s1 e)
  · exact Grows.of_eq rfl

theorem grows_exportAudit (a : AuditRec) : Grows s (s.exportAudit a) := by
  unfold Body.exportAudit; extract_lets
  exact (grows_emit s _ _).trans ((grows_emit _ _ _).trans (grows_emit _ _ _))

theorem grows_withAudit (a : Audit) : Grows s { s with sec := { s.sec with audit := a } } := Grows.of_eq rfl

theorem grows_gapPaid : Grows s { s with mram := { s.mram with gapOwed := false } } := Grows.of_eq rfl

theorem grows_chainOne (b : BitVec 640) : Grows s (s.chainOne b) := by
  unfold Body.chainOne; extract_lets
  exact (grows_withAudit s _).trans (grows_exportAudit _ _)

theorem grows_payGap : Grows s s.payGap := by
  unfold Body.payGap; split
  · exact (grows_gapPaid s).trans (grows_chainOne _ _)
  · exact Grows.refl s

theorem grows_audit (a : AuditArgs) : Grows s (s.audit a) := by
  unfold Body.audit; extract_lets b x y; split
  · exact grows_withAudit s y
  · exact (grows_payGap s).trans (grows_chainOne _ _)

theorem grows_writeCompl (i : Fin 2) (q : Nat) (c : Compl) : Grows s (s.writeCompl i q c) := by
  unfold Body.writeCompl; extract_lets f x ph o s1
  have h : Grows s s1 := (Grows.of_eq (out_setIfc s i _)).trans (grows_putOut _ _)
  split
  · exact h.trans (grows_signal _ _ _)
  · exact h

theorem grows_postCompl (i : Fin 2) (q : Nat) (c : Compl) : Grows s (s.postCompl i q c) := by
  unfold Body.postCompl; dsimp only; split
  · exact grows_writeCompl s i q c
  · exact Grows.of_eq (out_setIfc ..)

theorem grows_auditCmd (r : CmdRef) (d : Desc) (st d1 : Nat) : Grows s (s.auditCmd r d st d1) := by
  unfold Body.auditCmd; split
  · exact grows_audit s _
  · exact Grows.refl s

theorem grows_dropPost (r : CmdRef) (i : Fin 2) (q : Nat) (c : Compl) : Grows s ((s.dropDesc r).postCompl i q c) :=
  (Grows.of_eq (out_dropDesc s r)).trans (grows_postCompl _ i q c)

theorem grows_postEnded (i : Fin 2) (g : Fin 64) (n : Nat) : Grows s (s.postEnded i g n) := by
  induction n generalizing s with
  | zero => exact Grows.refl s
  | succ n ih =>
    unfold Body.postEnded; split
    · exact Grows.refl s
    · split
      · exact (grows_dropPost s _ _ _ _).trans (ih _)
      · exact Grows.refl s

theorem grows_completeOne (r : CmdRef) (d : Desc) (st d0 d1 : Nat) : Grows s (s.completeOne r d st d0 d1) := by
  unfold Body.completeOne; extract_lets s1 c s2
  have h : Grows s s2 := (grows_auditCmd s r d st d1).trans (Grows.of_eq (by simp [s2, s1]))
  split
  · split
    · exact (h.trans (grows_dropPost _ _ _ _ _)).trans (grows_postEnded _ _ _ _)
    · exact h.trans (Grows.of_eq (out_putDesc ..))
  · split
    · exact h.trans (Grows.of_eq (out_dropDesc ..))
    · exact h.trans (grows_dropPost _ _ _ _ _)

theorem grows_settleRing (i : Fin 2) (g : Fin 64) (n : Nat) : Grows s (s.settleRing i g n) := by
  induction n generalizing s with
  | zero => exact Grows.refl s
  | succ n ih =>
    unfold Body.settleRing; dsimp only; split
    · exact Grows.refl s
    · split
      · exact (grows_completeOne s _ _ _ _ _).trans (ih _)
      · exact Grows.refl s

theorem grows_completeRef (r : CmdRef) (st d0 d1 : Nat) : Grows s (s.completeRef r st d0 d1) := by
  unfold Body.completeRef; split
  · exact Grows.refl s
  · exact (grows_completeOne s _ _ _ _ _).trans (grows_settleRing _ _ _ _)

theorem grows_concludeRes (r : CmdRef) (res : HostRes) : Grows res.s (concludeRes r res) := by
  unfold concludeRes; split
  · exact Grows.refl _
  · split
    · exact Grows.refl _
    · exact (grows_completeOne _ _ _ _ _ _).trans (grows_settleRing _ _ _ _)

end Sys2Proof.Machine
end

