-- ==== Sys2Proof/Laws/Mailbox.lean ====
section
/-! SUPPORT. Mailboxes are untouched by reports, and what running an operation of a mailbox comes to. -/
namespace Sys2Proof.Machine

variable (s : Body)

@[simp] theorem ifc_setIfc (i j : Fin 2) (f : Iface) : (s.setIfc i f).ifc j = if j = i then f else s.ifc j := by
  have h : ∀ k : Fin 2, k = 0 ∨ k = 1 := fun k => by omega
  rcases h i with rfl | rfl <;> rcases h j with rfl | rfl <;> rfl

/-- The mailbox of an interface and those of the management port, which reports leave alone. -/
def Body.boxes (s : Body) : (Fin 2 → Mailbox) × List (MbRef × Mailbox) := (fun i => (s.ifc i).mailbox, s.sec.mgmtBoxes)

theorem mbox_of_boxes {a b : Body} (h : a.boxes = b.boxes) (m : MbRef) : a.mbox m = b.mbox m := by
  cases m with
  | hif i => exact congrFun (congrArg Prod.fst h) i
  | mgmt x p => unfold Body.mbox Body.mgmtBox; rw [show a.sec.mgmtBoxes = b.sec.mgmtBoxes from congrArg Prod.snd h]

theorem boxes_setIfc (i : Fin 2) (f : Iface) (h : f.mailbox = (s.ifc i).mailbox) : (s.setIfc i f).boxes = s.boxes := by
  refine Prod.ext (funext fun j => ?_) (congrArg (fun x : Sec => x.mgmtBoxes) ?_)
  · show ((s.setIfc i f).ifc j).mailbox = _
    rw [ifc_setIfc]; split
    · subst_vars; exact h
    · rfl
  · unfold Body.setIfc; split <;> rfl

@[simp] theorem boxes_putOut (o : Out) : (s.putOut o).boxes = s.boxes := rfl

@[simp] theorem boxes_eventTo (i : Fin 2) (e : Ev) : (s.eventTo i e).boxes = s.boxes := by
  unfold Body.eventTo; extract_lets f q f1 w; split
  · rw [boxes_putOut]; exact boxes_setIfc s i _ rfl
  · exact boxes_setIfc s i _ rfl

@[simp] theorem boxes_eventOut (e : Ev) : (s.eventOut e).boxes = s.boxes := by simp [Body.eventOut]

theorem boxes_logged (l : List Ev) : ({ s with evlog := l } : Body).boxes = s.boxes := rfl

theorem boxes_held (l : List Ev) : ({ s with events := l } : Body).boxes = s.boxes := rfl

@[simp] theorem boxes_emit (c : Nat) (p : List Nat) : (s.emit c p).boxes = s.boxes := by
  unfold Body.emit; extract_lets e s1; split
  · exact (boxes_eventOut s1 e).trans (boxes_logged s _)
  · exact (boxes_held s1 _).trans (boxes_logged s _)

@[simp] theorem boxes_exportAudit (a : AuditRec) : (s.exportAudit a).boxes = s.boxes := by simp [Body.exportAudit]

theorem boxes_withAudit (a : Audit) : ({ s with sec := { s.sec with audit := a } } : Body).boxes = s.boxes := rfl

theorem boxes_gapPaid : ({ s with mram := { s.mram with gapOwed := false } } : Body).boxes = s.boxes := rfl

@[simp] theorem boxes_chainOne (b : BitVec 640) : (s.chainOne b).boxes = s.boxes := by
  unfold Body.chainOne; extract_lets; exact (boxes_exportAudit _ _).trans (boxes_withAudit s _)

@[simp] theorem boxes_payGap : s.payGap.boxes = s.boxes := by
  unfold Body.payGap; split
  · rw [boxes_chainOne]; exact boxes_gapPaid s
  · rfl

/-- No audit record changes a mailbox. -/
@[simp] theorem boxes_audit (a : AuditArgs) : (s.audit a).boxes = s.boxes := by
  unfold Body.audit; extract_lets b x y; split
  · exact boxes_withAudit s y
  · simp

@[simp] theorem boxes_mbAudit (m : MbRef) (op st : Nat) (req : List Byte) (id : W32) (r : Role) :
    (s.mbAudit m op st req id r).boxes = s.boxes := by
  unfold Body.mbAudit; split <;> simp

/-- The operation that runs in a mailbox takes its effect, is audited where 13 R344 says, and is answered. -/
theorem mbRun_of_ready {st : State} {m : MbRef} {op : Nat} (h : MbReady st m op) (bad : List Byte → Bool)
    (run : Body → Mailbox → MbRes) (hb : bad (st.toBody.mbox m).req = false) :
    st.toBody.mbRun m op bad run =
      (let b := st.toBody.mbox m
       let res := run st.toBody b
       let as := res.now.getD (b.reqSession, b.reqRole)
       (res.s.mbAudit m op res.status b.req as.1 as.2).answer m res.status res.ans) := by
  unfold Body.mbRun
  have h1 : ¬ ((st.toBody.mbox m).state ≠ .running ∨ (st.toBody.mbox m).reqOp.toNat ≠ op ∨ st.planes.mgmtRestart) := by
    simp [h.running, h.opIs, h.up]
  dsimp only
  rw [if_neg h1, hb, h.allowed]
  rfl

end Sys2Proof.Machine
end

