-- ==== Sys2Proof/Laws/Memory.lean ====
section
/-! SUPPORT. Maps and fabric memory: read after write, and every memory operation keeps the canonical form. -/
namespace Sys2Proof.Machine

/-! ### Maps -/

theorem mget_cons {α : Type} (i : Nat) (w : α) (t : Map α) (j : Nat) :
    mget ((i, w) :: t) j = if i = j then some w else mget t j := rfl

theorem mget_mset {α : Type} (m : Map α) (k j : Nat) (v : α) :
    mget (mset m k v) j = if j = k then some v else mget m j := by
  induction m with
  | nil =>
    show (if k = j then some v else none) = if j = k then some v else none
    by_cases h : j = k
    · rw [if_pos h, if_pos h.symm]
    · rw [if_neg h, if_neg fun e => h e.symm]
  | cons x t ih =>
    obtain ⟨i, w⟩ := x
    unfold mset
    by_cases hj : j = k
    · subst hj; rw [if_pos rfl]
      split
      · rw [mget_cons, if_pos rfl]
      · split
        · rw [mget_cons, if_pos rfl]
        · rw [mget_cons, if_neg ‹_›, ih, if_pos rfl]
    · have hk : ¬ k = j := fun e => hj e.symm
      rw [if_neg hj]
      split
      · rename_i e; subst e; rw [mget_cons, mget_cons, if_neg hk, if_neg hk]
      · split
        · rw [mget_cons, if_neg hk]
        · rw [mget_cons, mget_cons, ih, if_neg hj]

@[simp] theorem mget_mset_same {α : Type} (m : Map α) (k : Nat) (v : α) : mget (mset m k v) k = some v := by
  rw [mget_mset, if_pos rfl]

theorem mget_mset_other {α : Type} (m : Map α) {k j : Nat} (v : α) (h : j ≠ k) : mget (mset m k v) j = mget m j := by
  rw [mget_mset, if_neg h]

theorem mget_mdel_other {α : Type} (m : Map α) {k j : Nat} (h : j ≠ k) : mget (mdel m k) j = mget m j := by
  induction m with
  | nil => rfl
  | cons x t ih =>
    obtain ⟨i, w⟩ := x
    unfold mdel; split
    · subst_vars; simp only [mget]; rw [if_neg (fun e => h e.symm)]
    · simp only [mget]; rw [ih]

@[simp] theorem mgetD_mset_same {α : Type} (m : Map α) (k : Nat) (v d : α) : mgetD (mset m k v) k d = v := by simp [mgetD]

theorem mgetD_mset_other {α : Type} (m : Map α) {k j : Nat} (v d : α) (h : j ≠ k) :
    mgetD (mset m k v) j d = mgetD m j d := by simp [mgetD, mget_mset_other m v h]

/-! ### Fabric memory -/

/-- Every address of `m` lies above `n`. -/
def Memory.above (n : Nat) (m : Memory) : Prop := ∀ c ∈ m, n < c.1

theorem Memory.wf_cons {k : Nat} {v : Byte} {t : Memory} :
    Memory.wf ((k, v) :: t) = true ↔ v ≠ 0 ∧ Memory.above k t ∧ Memory.wf t = true := by
  induction t generalizing k v with
  | nil => simp [Memory.wf, Memory.above]
  | cons x u ih =>
    obtain ⟨j, w⟩ := x
    constructor
    · intro h
      simp only [Memory.wf, Bool.and_eq_true, bne_iff_ne, ne_eq, decide_eq_true_eq] at h
      refine ⟨h.1.1, ?_, by simp only [Memory.wf, Bool.and_eq_true, bne_iff_ne, ne_eq]; exact h.2⟩
      have h2 : Memory.wf ((j, w) :: u) = true := by simp only [Memory.wf, Bool.and_eq_true, bne_iff_ne, ne_eq]; exact h.2
      intro c hc
      rcases List.mem_cons.mp hc with rfl | hc
      · exact h.1.2
      · exact Nat.lt_trans h.1.2 ((ih.mp h2).2.1 c hc)
    · rintro ⟨h1, h2, h3⟩
      unfold Memory.wf
      simp only [Bool.and_eq_true, bne_iff_ne, ne_eq, decide_eq_true_eq]
      exact ⟨⟨h1, h2 (j, w) (List.mem_cons_self ..)⟩, h3⟩

theorem Memory.above_put {n a : Nat} {b : Byte} {m : Memory} (h : Memory.above n m) (ha : n < a) :
    Memory.above n (m.put a b) := by
  induction m with
  | nil => unfold Memory.put; split <;> intro c hc <;> simp at hc; subst hc; exact ha
  | cons x t ih =>
    obtain ⟨k, v⟩ := x
    have ht : Memory.above n t := fun c hc => h c (List.mem_cons_of_mem _ hc)
    unfold Memory.put
    split
    · split
      · exact h
      · intro c hc
        rcases List.mem_cons.mp hc with rfl | hc
        · exact ha
        · exact h c hc
    · split
      · split
        · exact ht
        · intro c hc
          rcases List.mem_cons.mp hc with rfl | hc
          · exact h (k, v) (List.mem_cons_self ..)
          · exact ht c hc
      · intro c hc
        rcases List.mem_cons.mp hc with rfl | hc
        · exact h (k, v) (List.mem_cons_self ..)
        · exact ih ht c hc

/-- Writing a byte keeps the canonical form. -/
theorem Memory.wf_put {m : Memory} (a : Nat) (b : Byte) (h : m.wf = true) : (m.put a b).wf = true := by
  induction m with
  | nil =>
    unfold Memory.put; split
    · rfl
    · rename_i hb; exact Memory.wf_cons.mpr ⟨hb, fun c hc => absurd hc (by simp), rfl⟩
  | cons x t ih =>
    obtain ⟨k, v⟩ := x
    obtain ⟨h1, h2, h3⟩ := Memory.wf_cons.mp h
    unfold Memory.put
    split
    · split
      · exact h
      · rename_i hb
        refine Memory.wf_cons.mpr ⟨hb, ?_, h⟩
        intro c hc
        rcases List.mem_cons.mp hc with rfl | hc
        · assumption
        · exact Nat.lt_trans ‹a < k› (h2 c hc)
    · split
      · split
        · exact h3
        · rename_i hb
          exact Memory.wf_cons.mpr ⟨hb, h2, h3⟩
      · exact Memory.wf_cons.mpr ⟨h1, Memory.above_put h2 (by omega), ih h3⟩

/-- Writing bytes keeps the canonical form. -/
theorem Memory.wf_write (l : List Byte) : ∀ {m : Memory} (a : Nat), m.wf = true → (m.write a l).wf = true := by
  induction l with
  | nil => intro m a h; exact h
  | cons b t ih => intro m a h; exact ih _ (Memory.wf_put a b h)

/-- Dropping cells keeps the canonical form. -/
theorem Memory.wf_filter (p : Host.Cell → Bool) {m : Memory} (h : m.wf = true) : Memory.wf (m.filter p) = true := by
  induction m with
  | nil => rfl
  | cons x t ih =>
    obtain ⟨k, v⟩ := x
    obtain ⟨h1, h2, h3⟩ := Memory.wf_cons.mp h
    rw [List.filter_cons]; split
    · exact Memory.wf_cons.mpr ⟨h1, fun c hc => h2 c (List.mem_of_mem_filter hc), ih h3⟩
    · exact ih h3

theorem Memory.wf_clear {m : Memory} (a n : Nat) (h : m.wf = true) : (m.clear a n).wf = true := Memory.wf_filter _ h

theorem Memory.get_above {m : Memory} {n : Nat} (h : Memory.above n m) : m.get n = 0 := by
  induction m with
  | nil => rfl
  | cons x t ih =>
    obtain ⟨k, v⟩ := x
    have := h (k, v) (List.mem_cons_self ..)
    unfold Memory.get; rw [if_neg (by simp only at this; omega)]
    exact ih fun c hc => h c (List.mem_cons_of_mem _ hc)

theorem Memory.get_cons (k : Nat) (v : Byte) (t : Memory) (j : Nat) :
    Memory.get ((k, v) :: t) j = if k = j then v else t.get j := rfl

/-- Read after write of one byte. -/
theorem Memory.get_put {m : Memory} (a j : Nat) (b : Byte) (h : m.wf = true) :
    (m.put a b).get j = if j = a then b else m.get j := by
  induction m with
  | nil =>
    unfold Memory.put; split
    · rename_i hb; rw [hb]; split <;> rfl
    · rw [Memory.get_cons]
      by_cases hj : j = a
      · rw [if_pos hj, if_pos hj.symm]
      · rw [if_neg hj, if_neg fun e => hj e.symm]
  | cons x t ih =>
    obtain ⟨k, v⟩ := x
    obtain ⟨h1, h2, h3⟩ := Memory.wf_cons.mp h
    unfold Memory.put
    by_cases hj : j = a
    · subst hj; rw [if_pos rfl]
      split
      · rename_i hlt
        split
        · rename_i hb; rw [hb]
          refine Memory.get_above (n := j) fun c hc => ?_
          rcases List.mem_cons.mp hc with rfl | hc
          · exact hlt
          · exact Nat.lt_trans hlt (h2 c hc)
        · rw [Memory.get_cons, if_pos rfl]
      · split
        · rename_i e; subst e
          split
          · rename_i hb; rw [hb]; exact Memory.get_above h2
          · rw [Memory.get_cons, if_pos rfl]
        · rw [Memory.get_cons, if_neg fun e => ‹¬ j = k› e.symm, ih h3, if_pos rfl]
    · rw [if_neg hj]
      split
      · split
        · rfl
        · rw [Memory.get_cons, if_neg fun e => hj e.symm]
      · split
        · rename_i e; subst e
          split
          · rw [Memory.get_cons, if_neg fun e => hj e.symm]
          · rw [Memory.get_cons, Memory.get_cons, if_neg fun e => hj e.symm, if_neg fun e => hj e.symm]
        · rw [Memory.get_cons, Memory.get_cons, ih h3, if_neg hj]

/-- Read after a write of bytes: those written where they were written, elsewhere as before. -/
theorem Memory.get_write (l : List Byte) : ∀ {m : Memory} (a j : Nat), m.wf = true →
    (m.write a l).get j = if a ≤ j ∧ j < a + l.length then nth l (j - a) 0 else m.get j := by
  induction l with
  | nil => intro m a j _; rw [if_neg (by simp)]; rfl
  | cons b t ih =>
    intro m a j h
    unfold Memory.write
    rw [ih (a + 1) j (Memory.wf_put a b h), Memory.get_put a j b h]
    by_cases h1 : a + 1 ≤ j ∧ j < a + 1 + t.length
    · rw [if_pos h1, if_pos (by simp only [List.length_cons]; omega)]
      rw [show j - a = (j - (a + 1)) + 1 by omega]; rfl
    · rw [if_neg h1]
      by_cases h2 : j = a
      · subst h2; rw [if_pos rfl, if_pos (by simp only [List.length_cons]; omega), Nat.sub_self]; rfl
      · rw [if_neg h2, if_neg (by simp only [List.length_cons]; omega)]

/-- A cleared range reads 0 and no other byte changes. -/
theorem Memory.get_clear (m : Memory) (a n j : Nat) :
    (m.clear a n).get j = if a ≤ j ∧ j < a + n then 0 else m.get j := by
  induction m with
  | nil => unfold Memory.clear; simp [Memory.get]
  | cons x t ih =>
    obtain ⟨k, v⟩ := x
    unfold Memory.clear at *
    rw [List.filter_cons]
    by_cases hk : decide (k < a) || decide (a + n ≤ k)
    · rw [if_pos hk]; simp only [Memory.get]; rw [ih]
      split
      · subst_vars; rw [if_neg]; simp only [Bool.or_eq_true, decide_eq_true_eq] at hk; omega
      · rfl
    · rw [if_neg hk, ih]; simp only [Memory.get]
      simp only [Bool.or_eq_true, decide_eq_true_eq] at hk
      split
      · rfl
      · rw [if_neg (by omega)]

theorem Memory.read_eq (m : Memory) (a n : Nat) : m.read a n = (List.range n).map fun i => m.get (a + i) := by
  induction n generalizing a with
  | zero => rfl
  | succ n ih =>
    unfold Memory.read; rw [ih, List.range_succ_eq_map, List.map_cons, List.map_map]
    congr 1; apply List.map_congr_left; intro i _
    show m.get (a + 1 + i) = m.get (a + (i + 1)); rw [Nat.add_right_comm, Nat.add_assoc]

end Sys2Proof.Machine
end

