-- ==== Sys2Proof/Laws/Outcome.lean ====
section
/-! SUPPORT. What the outcome of a command can be, said once. -/
namespace Sys2Proof.Machine

/-- The outcome of a command: a new body, or a stop on hardware that is absent. -/
def Shape (s : State) (o : Ans) : Prop := (∃ b, o = .next { s with toBody := b }) ∨ (∃ f, o = .fault f ∧ s.lacks f ∧ f.numbered)

theorem shape_onBody (s : State) (f : Body → Body) : Shape s (onBody s f) := .inl ⟨_, rfl⟩

theorem shape_ite {s : State} {p : Prop} [Decidable p] {a b : Ans} (ha : p → Shape s a) (hb : ¬ p → Shape s b) :
    Shape s (if p then a else b) := by
  split
  · exact ha ‹_›
  · exact hb ‹_›

theorem shape_fault {s : State} {f : Fault} (h : s.lacks f) (hn : f.numbered) : Shape s (.fault f) := .inr ⟨f, rfl, h, hn⟩

theorem shape_onData (s : State) (f : Body → Body) : Shape s (onData s f) := shape_onBody _ _

theorem shape_onDataPort (s : State) (l : Nat) (f : Body → Body) (hl : l < 2048) : Shape s (onDataPort s l f) :=
  shape_ite (fun _ => shape_onData _ _) fun h => shape_fault (Nat.le_of_not_lt h) hl

theorem shape_onLink (s : State) (l : Nat) (f : Body → Body) (hl : l < 2048) : Shape s (onLink s l f) :=
  shape_ite (fun _ => shape_onBody _ _) fun h => shape_fault (Nat.le_of_not_lt h) hl

theorem shape_onStack (s : State) (n : Nat) (f : Body → Body) (hl : n < 20) : Shape s (onStack s n f) :=
  shape_ite (fun _ => shape_onBody _ _) fun h => shape_fault (by simpa [State.lacks] using h) hl

theorem shape_onMailbox (s : State) (f : Body → Body) : Shape s (onMailbox s f) := shape_onBody _ _

theorem shape_onEngine (s : State) (i : Fin 2) (f : Body → Body) : Shape s (onEngine s i f) := shape_onBody _ _

/-- Every command but FUSE leaves fuses and queue alone, or stops on absent hardware. -/
theorem exec_shape (c : Instr) (s : State) (hf : ∀ m, c ≠ .fuse m) : Shape s (exec c s) := by
  cases c
  case tableWrite => rw [exec_tableWrite]; exact shape_onBody _ _
  case tableBulkLoad => rw [exec_tableBulkLoad]; exact shape_onBody _ _
  case tableFlip => rw [exec_tableFlip]; exact shape_onBody _ _
  case groupCreate => rw [exec_groupCreate]; exact shape_onBody _ _
  case groupExtend => rw [exec_groupExtend]; exact shape_onBody _ _
  case groupFence => rw [exec_groupFence]; exact shape_onBody _ _
  case groupUnfence => rw [exec_groupUnfence]; exact shape_onBody _ _
  case groupDestroy => rw [exec_groupDestroy]; exact shape_onBody _ _
  case ctxPolicySlot => rw [exec_ctxPolicySlot]; exact shape_onBody _ _
  case ctxPolicyOpen => rw [exec_ctxPolicyOpen]; exact shape_onBody _ _
  case ctxAbort => rw [exec_ctxAbort]; exact shape_onBody _ _
  case fmemCreate => rw [exec_fmemCreate]; exact shape_onBody _ _
  case fmemMirror => rw [exec_fmemMirror]; exact shape_onBody _ _
  case fmemDestroy => rw [exec_fmemDestroy]; exact shape_onBody _ _
  case fmemRestore => rw [exec_fmemRestore]; exact shape_onBody _ _
  case fmemSave => rw [exec_fmemSave]; exact shape_onBody _ _
  case portMode => rw [exec_portMode]; exact shape_onBody _ _
  case portAdmin => rw [exec_portAdmin]; exact shape_onBody _ _
  case portBypassSet => rw [exec_portBypassSet]; exact shape_onBody _ _
  case portPrepareRemoveCartridge => rw [exec_portPrepareRemoveCartridge]; exact shape_onBody _ _
  case portPrepareRemoveModule => rw [exec_portPrepareRemoveModule]; exact shape_onBody _ _
  case portHold => rw [exec_portHold]; exact shape_onBody _ _
  case portRelease => rw [exec_portRelease]; exact shape_onBody _ _
  case powerSetCap => rw [exec_powerSetCap]; exact shape_onBody _ _
  case teleCounters => rw [exec_teleCounters]; exact shape_onBody _ _
  case teleHwm => rw [exec_teleHwm]; exact shape_onBody _ _
  case teleStream => rw [exec_teleStream]; exact shape_onBody _ _
  case secChallenge => rw [exec_secChallenge]; exact shape_onBody _ _
  case secOpen => rw [exec_secOpen]; exact shape_onBody _ _
  case secBind => rw [exec_secBind]; exact shape_onBody _ _
  case secElevate => rw [exec_secElevate]; exact shape_onBody _ _
  case secClose => rw [exec_secClose]; exact shape_onBody _ _
  case secTakeover => rw [exec_secTakeover]; exact shape_onBody _ _
  case secRelease => rw [exec_secRelease]; exact shape_onBody _ _
  case fwStage => rw [exec_fwStage]; exact shape_onBody _ _
  case fwActivate => rw [exec_fwActivate]; exact shape_onBody _ _
  case fwActivated => rw [exec_fwActivated]; exact shape_onBody _ _
  case diagRead => rw [exec_diagRead]; exact shape_onBody _ _
  case diagRestartDataplane => rw [exec_diagRestartDataplane]; exact shape_onBody _ _
  case mailboxChallenge => rw [exec_mailboxChallenge]; exact shape_onMailbox _ _
  case mailboxOpen => rw [exec_mailboxOpen]; exact shape_onMailbox _ _
  case mailboxElevate => rw [exec_mailboxElevate]; exact shape_onMailbox _ _
  case mailboxClose => rw [exec_mailboxClose]; exact shape_onMailbox _ _
  case attest => rw [exec_attest]; exact shape_onMailbox _ _
  case cert => rw [exec_cert]; exact shape_onMailbox _ _
  case catalog => rw [exec_catalog]; exact shape_onMailbox _ _
  case auditRead => rw [exec_auditRead]; exact shape_onMailbox _ _
  case claim => rw [exec_claim]; exact shape_onMailbox _ _
  case enroll => rw [exec_enroll]; exact shape_onMailbox _ _
  case revoke => rw [exec_revoke]; exact shape_onMailbox _ _
  case profileWrite => rw [exec_profileWrite]; exact shape_onMailbox _ _
  case profileRead => rw [exec_profileRead]; exact shape_onMailbox _ _
  case fwApprove => rw [exec_fwApprove]; exact shape_onMailbox _ _
  case svnCommit => rw [exec_svnCommit]; exact shape_onMailbox _ _
  case fuse m => exact absurd rfl (hf m)
  case mfgTest => rw [exec_mfgTest]; exact shape_onMailbox _ _
  case clearQuarantine => rw [exec_clearQuarantine]; exact shape_onMailbox _ _
  case mailboxGo => rw [exec_mailboxGo]; exact shape_onMailbox _ _
  case mailboxNext => rw [exec_mailboxNext]; exact shape_onMailbox _ _
  case mailboxAbort => rw [exec_mailboxAbort]; exact shape_onMailbox _ _
  case mgmtPortDatagram => rw [exec_mgmtPortDatagram]; exact shape_onMailbox _ _
  case commandRingEnable => rw [exec_commandRingEnable]; exact shape_onBody _ _
  case commandRingDisable => rw [exec_commandRingDisable]; exact shape_onBody _ _
  case completionRingEnable => rw [exec_completionRingEnable]; exact shape_onBody _ _
  case completionRingDisable => rw [exec_completionRingDisable]; exact shape_onBody _ _
  case eventRingDisable => rw [exec_eventRingDisable]; exact shape_onBody _ _
  case nudge => rw [exec_nudge]; exact shape_onBody _ _
  case registerWrite => rw [exec_registerWrite]; exact shape_onBody _ _
  case doorbellPoll => rw [exec_doorbellPoll]; exact shape_onBody _ _
  case descriptorPreempt => rw [exec_descriptorPreempt]; exact shape_onEngine _ _ _
  case descriptorResume => rw [exec_descriptorResume]; exact shape_onEngine _ _ _
  case pageRequestResponse => rw [exec_pageRequestResponse]; exact shape_onEngine _ _ _
  case priTimeout => rw [exec_priTimeout]; exact shape_onEngine _ _ _
  case invalidation => rw [exec_invalidation]; exact shape_onBody _ _
  case interfaceReset => rw [exec_interfaceReset]; exact shape_onBody _ _
  case hifLinkLost => rw [exec_hifLinkLost]; exact shape_onBody _ _
  case pcsLock => rw [exec_pcsLock]; exact shape_onLink _ _ _ (Fin.isLt _)
  case lightArrival => rw [exec_lightArrival]; exact shape_onLink _ _ _ (Fin.isLt _)
  case version => rw [exec_version]; exact shape_onLink _ _ _ (Fin.isLt _)
  case versionAck => rw [exec_versionAck]; exact shape_onLink _ _ _ (Fin.isLt _)
  case linkUp => rw [exec_linkUp]; exact shape_onLink _ _ _ (Fin.isLt _)
  case groupTransmit => rw [exec_groupTransmit]; exact shape_onLink _ _ _ (Fin.isLt _)
  case controlWord => rw [exec_controlWord]; exact shape_onLink _ _ _ (Fin.isLt _)
  case codewordDecodeFailure => rw [exec_codewordDecodeFailure]; exact shape_onLink _ _ _ (Fin.isLt _)
  case pcsLockLostTimeout => rw [exec_pcsLockLostTimeout]; exact shape_onLink _ _ _ (Fin.isLt _)
  case controlWordTimeout => rw [exec_controlWordTimeout]; exact shape_onLink _ _ _ (Fin.isLt _)
  case timeReqSend => rw [exec_timeReqSend]; exact shape_onLink _ _ _ (Fin.isLt _)
  case timeReq => rw [exec_timeReq]; exact shape_onLink _ _ _ (Fin.isLt _)
  case timeResp => rw [exec_timeResp]; exact shape_onLink _ _ _ (Fin.isLt _)
  case frameArrival => rw [exec_frameArrival]; exact shape_onLink _ _ _ (Fin.isLt _)
  case frameTailArrival => rw [exec_frameTailArrival]; exact shape_onDataPort _ _ _ (Fin.isLt _)
  case frameLaunch => rw [exec_frameLaunch]; exact shape_onDataPort _ _ _ (Fin.isLt _)
  case cutUnderrun => rw [exec_cutUnderrun]; exact shape_onDataPort _ _ _ (Fin.isLt _)
  case limiterCreditUpdate => rw [exec_limiterCreditUpdate]; exact shape_onData _ _
  case loadPublish => rw [exec_loadPublish]; exact shape_onData _ _
  case alpOverUdpDatagram => rw [exec_alpOverUdpDatagram]; exact shape_onDataPort _ _ _ (Fin.isLt _)
  case ethernetFrameArrival => rw [exec_ethernetFrameArrival]; exact shape_onDataPort _ _ _ (Fin.isLt _)
  case encap => rw [exec_encap]; exact shape_onData _ _
  case agingVisit => rw [exec_agingVisit]; exact shape_onBody _ _
  case rputArrival => rw [exec_rputArrival]; exact shape_onData _ _
  case rresArrival => rw [exec_rresArrival]; exact shape_onData _ _
  case confArrival => rw [exec_confArrival]; exact shape_onData _ _
  case admitRecord => rw [exec_admitRecord]; exact shape_onData _ _
  case openRecord => rw [exec_openRecord]; exact shape_onData _ _
  case closeRecord => rw [exec_closeRecord]; exact shape_onData _ _
  case answerArrival => rw [exec_answerArrival]; exact shape_onData _ _
  case fmemPut => rw [exec_fmemPut]; exact shape_onData _ _
  case fmemGet => rw [exec_fmemGet]; exact shape_onData _ _
  case fmemAtomic => rw [exec_fmemAtomic]; exact shape_onData _ _
  case gradientPut => rw [exec_gradientPut]; exact shape_onData _ _
  case digestPut => rw [exec_digestPut]; exact shape_onData _ _
  case joinCopyComplete => rw [exec_joinCopyComplete]; exact shape_onData _ _
  case duplicateFilterExpiry => rw [exec_duplicateFilterExpiry]; exact shape_onData _ _
  case feature => rw [exec_feature]; exact shape_onData _ _
  case buddyHb => rw [exec_buddyHb]; exact shape_onData _ _
  case buddyHeartbeatSend => rw [exec_buddyHeartbeatSend]; exact shape_onData _ _
  case buddyTimeout => rw [exec_buddyTimeout]; exact shape_onData _ _
  case soloReq => rw [exec_soloReq]; exact shape_onData _ _
  case soloGrant => rw [exec_soloGrant]; exact shape_onData _ _
  case soloDeny => rw [exec_soloDeny]; exact shape_onData _ _
  case soloReqTimeout => rw [exec_soloReqTimeout]; exact shape_onData _ _
  case pairReset => rw [exec_pairReset]; exact shape_onData _ _
  case expressReq => rw [exec_expressReq]; exact shape_onData _ _
  case expressAns => rw [exec_expressAns]; exact shape_onData _ _
  case expressRel => rw [exec_expressRel]; exact shape_onData _ _
  case expressMeasurement => rw [exec_expressMeasurement]; exact shape_onBody _ _
  case drainComplete => rw [exec_drainComplete]; exact shape_onLink _ _ _ (Fin.isLt _)
  case drainTimeout => rw [exec_drainTimeout]; exact shape_onLink _ _ _ (Fin.isLt _)
  case portageCellWriteComplete => rw [exec_portageCellWriteComplete]; exact shape_ite (fun _ => shape_onBody _ _) fun h => shape_fault (Nat.le_of_not_lt h) (Fin.isLt _)
  case laserDegraded => rw [exec_laserDegraded]; exact shape_ite (fun _ => shape_onBody _ _) fun h => shape_fault (Nat.le_of_not_lt h) (Fin.isLt _)
  case laserFailed => rw [exec_laserFailed]; exact shape_ite (fun _ => shape_onBody _ _) fun h => shape_fault (Nat.le_of_not_lt h) (Fin.isLt _)
  case cartridgeRemoved => rw [exec_cartridgeRemoved]; exact shape_ite (fun _ => shape_onBody _ _) fun h => shape_fault (Nat.le_of_not_lt h) (Fin.isLt _)
  case cartridgeInserted => rw [exec_cartridgeInserted]; exact shape_ite (fun _ => shape_onBody _ _) fun h => shape_fault (Nat.le_of_not_lt h) (Fin.isLt _)
  case cartridgeAtPower => rw [exec_cartridgeAtPower]; exact shape_ite (fun _ => shape_onBody _ _) fun h => shape_fault (Nat.le_of_not_lt h) (Fin.isLt _)
  case holdLimitExpiry => rw [exec_holdLimitExpiry]; exact shape_onLink _ _ _ (Fin.isLt _)
  case settDispatch => rw [exec_settDispatch]; exact shape_onBody _ _
  case checkVerdict => rw [exec_checkVerdict]; exact shape_onBody _ _
  case arbitrationComplete => rw [exec_arbitrationComplete]; exact shape_onBody _ _
  case duplicateCompare => rw [exec_duplicateCompare]; exact shape_onBody _ _
  case specTimeout => rw [exec_specTimeout]; exact shape_onBody _ _
  case partialResend => rw [exec_partialResend]; exact shape_onBody _ _
  case reservationGrant => rw [exec_reservationGrant]; exact shape_onBody _ _
  case admissionWindowExpiry => rw [exec_admissionWindowExpiry]; exact shape_onBody _ _
  case admitWaitExpiry => rw [exec_admitWaitExpiry]; exact shape_onBody _ _
  case contextDeadline => rw [exec_contextDeadline]; exact shape_onBody _ _
  case contextScrub => rw [exec_contextScrub]; exact shape_onBody _ _
  case demand => rw [exec_demand]; exact shape_onBody _ _
  case energyGrant => rw [exec_energyGrant]; exact shape_onBody _ _
  case tokenLapse u =>
    rw [exec_tokenLapse]; cases u
    · exact shape_onBody _ _
    · exact shape_ite (fun _ => shape_onBody _ _) fun h => shape_fault (by simpa [State.lacks] using h) (Fin.isLt _)
  case powerMeasurement => rw [exec_powerMeasurement]; exact shape_onBody _ _
  case thermalEmergency => rw [exec_thermalEmergency]; exact shape_ite (fun _ => shape_onBody _ _) fun h => shape_fault (Nat.le_of_not_lt h) (Fin.isLt _)
  case thermalClear => rw [exec_thermalClear]; exact shape_ite (fun _ => shape_onBody _ _) fun h => shape_fault (Nat.le_of_not_lt h) (Fin.isLt _)
  case thermalStop u =>
    rw [exec_thermalStop]; cases u
    · exact shape_onBody _ _
    · exact shape_ite (fun _ => shape_onBody _ _) fun h => shape_fault (Nat.le_of_not_lt h) (Fin.isLt _)
    · exact shape_ite (fun _ => shape_onBody _ _) fun h => shape_fault (by simpa [State.lacks] using h) (Fin.isLt _)
    · exact shape_onBody _ _
  case saturationEvaluation => rw [exec_saturationEvaluation]; exact shape_onBody _ _
  case testRotation => rw [exec_testRotation]; exact shape_onBody _ _
  case settTestStart => rw [exec_settTestStart]; exact shape_onBody _ _
  case settTestComplete => rw [exec_settTestComplete]; exact shape_onBody _ _
  case testBudgetDefer => rw [exec_testBudgetDefer]; exact shape_onBody _ _
  case denHeartbeatLoss => rw [exec_denHeartbeatLoss]; exact shape_onBody _ _
  case denTestStart => rw [exec_denTestStart]; exact shape_onBody _ _
  case denTestComplete => rw [exec_denTestComplete]; exact shape_onBody _ _
  case stackLost => rw [exec_stackLost]; exact shape_onStack _ _ _ (Fin.isLt _)
  case stackDrainStart => rw [exec_stackDrainStart]; exact shape_onStack _ _ _ (Fin.isLt _)
  case stackDrainCopyComplete => rw [exec_stackDrainCopyComplete]; exact shape_onStack _ _ _ (Fin.isLt _)
  case stackTestComplete => rw [exec_stackTestComplete]; exact shape_onStack _ _ _ (Fin.isLt _)
  case stackCopyBackComplete => rw [exec_stackCopyBackComplete]; exact shape_onStack _ _ _ (Fin.isLt _)
  case ridgepoleLaneFault => rw [exec_ridgepoleLaneFault]; exact shape_onBody _ _
  case probeCell die port =>
    rw [exec_probeCell]
    exact shape_ite (fun _ => shape_onBody _ _) fun h => shape_fault (by simp only [State.lacks, physOf]; omega) (by simp only [Fault.numbered]; omega)
  case probeFail die port =>
    rw [exec_probeFail]
    exact shape_ite (fun _ => shape_onData _ _) fun h => shape_fault (by simp only [State.lacks, physOf]; omega) (by simp only [Fault.numbered]; omega)
  case memberSuspect => rw [exec_memberSuspect]; exact shape_onBody _ _
  case fatalStop => rw [exec_fatalStop]; exact shape_onBody _ _
  case dataplaneFault => rw [exec_dataplaneFault]; exact shape_onBody _ _
  case managementPlaneFault => rw [exec_managementPlaneFault]; exact shape_onBody _ _
  case challengeExpiry => rw [exec_challengeExpiry]; exact shape_onBody _ _
  case sessionExpiry => rw [exec_sessionExpiry]; exact shape_onBody _ _
  case lockoutExpiry => rw [exec_lockoutExpiry]; exact shape_onBody _ _
  case checkpoint => rw [exec_checkpoint]; exact shape_onBody _ _
  case checkpointSignatureReady => rw [exec_checkpointSignatureReady]; exact shape_onBody _ _
  case telemetrySample => rw [exec_telemetrySample]; exact shape_onBody _ _
  case parentChange => rw [exec_parentChange]; exact shape_onBody _ _
  case holdoverExpiry => rw [exec_holdoverExpiry]; exact shape_onBody _ _
  case ptpMessage port _ _ _ =>
    rw [exec_ptpMessage]; cases port
    · exact shape_onBody _ _
    · exact shape_onLink _ _ _ (Fin.isLt _)
  case ppsPulse => rw [exec_ppsPulse]; exact shape_onBody _ _
  case presentDebounce => rw [exec_presentDebounce]; exact shape_onBody _ _
  case powerGood => rw [exec_powerGood]; exact shape_onBody _ _
  case presentBreak => rw [exec_presentBreak]; exact shape_onBody _ _
  case supplySag => rw [exec_supplySag]; exact shape_onBody _ _
  case sagSaveComplete => rw [exec_sagSaveComplete]; exact shape_onBody _ _
  case sagRestart => rw [exec_sagRestart]; exact shape_onBody _ _
  case overvoltage => rw [exec_overvoltage]; exact shape_onBody _ _
  case overcurrent => rw [exec_overcurrent]; exact shape_onBody _ _
  case controllerRestart => rw [exec_controllerRestart]; exact shape_onBody _ _
  case lowLineEntry => rw [exec_lowLineEntry]; exact shape_onBody _ _
  case lowLineExit => rw [exec_lowLineExit]; exact shape_onBody _ _
  case moduleReset => rw [exec_moduleReset]; exact shape_onBody _ _
  case moduleResetRelease => rw [exec_moduleResetRelease]; exact shape_onBody _ _
  case ppContactAssert => rw [exec_ppContactAssert]; exact shape_onBody _ _
  case ppContactRelease => rw [exec_ppContactRelease]; exact shape_onBody _ _
  case bringupPhase => rw [exec_bringupPhase]; exact shape_onBody _ _
  case phaseTimeout => rw [exec_phaseTimeout]; exact shape_onBody _ _
  case removalDrainStart => rw [exec_removalDrainStart]; exact shape_onBody _ _
  case readyToRemove => rw [exec_readyToRemove]; exact shape_onBody _ _
  case controlPlaneRestart => rw [exec_controlPlaneRestart]; exact shape_onBody _ _
  case planeRestartComplete => rw [exec_planeRestartComplete]; exact shape_onBody _ _
  case dmaUnitComplete => rw [exec_dmaUnitComplete]; exact shape_onEngine _ _ _
  case atsTranslationComplete => rw [exec_atsTranslationComplete]; exact shape_onEngine _ _ _
  case hifLinkUp => rw [exec_hifLinkUp]; exact shape_onBody _ _
  case bankExhausted => rw [exec_bankExhausted]; exact shape_onBody _ _
  case expressDwellExpiry => rw [exec_expressDwellExpiry]; exact shape_ite (fun _ => shape_onBody _ _) fun h => shape_fault (Nat.le_of_not_lt h) (Fin.isLt _)
  case activationStepEnd => rw [exec_activationStepEnd]; exact shape_onBody _ _

/-- FUSE answers a body, its fuses written or not, its queue as it was. -/
theorem fuse_shape (m : MbRef) (s : State) : ∃ b, exec (.fuse m) s = .next { s with
    toBody := b, fuses := if s.serves && s.fuseOk m
      then fuseWrite s.fuses (fuseTarget (s.mbox m).req) (fuseImage (s.mbox m).req) else s.fuses } := ⟨_, rfl⟩

end Sys2Proof.Machine
end

