-- ==== Sys2Proof/Laws/State.lean ====
section
/-! SUPPORT. What each update of the body leaves in each field. -/
namespace Sys2Proof.Machine

variable (s : Body)

@[simp] theorem Body.putOut_power (o : Out) : (s.putOut o).power = s.power := rfl
@[simp] theorem Body.putOut_lantern (o : Out) : (s.putOut o).lantern = s.lantern := rfl
@[simp] theorem Body.putOut_hifA (o : Out) : (s.putOut o).hifA = s.hifA := rfl
@[simp] theorem Body.putOut_hifB (o : Out) : (s.putOut o).hifB = s.hifB := rfl
@[simp] theorem Body.putOut_sec (o : Out) : (s.putOut o).sec = s.sec := rfl
@[simp] theorem Body.putOut_tables (o : Out) : (s.putOut o).tables = s.tables := rfl
@[simp] theorem Body.putOut_portage (o : Out) : (s.putOut o).portage = s.portage := rfl
@[simp] theorem Body.putOut_lports (o : Out) : (s.putOut o).lports = s.lports := rfl
@[simp] theorem Body.putOut_carts (o : Out) : (s.putOut o).carts = s.carts := rfl
@[simp] theorem Body.putOut_fwc (o : Out) : (s.putOut o).fwc = s.fwc := rfl
@[simp] theorem Body.putOut_tms (o : Out) : (s.putOut o).tms = s.tms := rfl
@[simp] theorem Body.putOut_setts (o : Out) : (s.putOut o).setts = s.setts := rfl
@[simp] theorem Body.putOut_coll (o : Out) : (s.putOut o).coll = s.coll := rfl
@[simp] theorem Body.putOut_mss (o : Out) : (s.putOut o).mss = s.mss := rfl
@[simp] theorem Body.putOut_integ (o : Out) : (s.putOut o).integ = s.integ := rfl
@[simp] theorem Body.putOut_budget (o : Out) : (s.putOut o).budget = s.budget := rfl
@[simp] theorem Body.putOut_clock (o : Out) : (s.putOut o).clock = s.clock := rfl
@[simp] theorem Body.putOut_profiles (o : Out) : (s.putOut o).profiles = s.profiles := rfl
@[simp] theorem Body.putOut_mram (o : Out) : (s.putOut o).mram = s.mram := rfl
@[simp] theorem Body.putOut_planes (o : Out) : (s.putOut o).planes = s.planes := rfl
@[simp] theorem Body.putOut_counters (o : Out) : (s.putOut o).counters = s.counters := rfl
@[simp] theorem Body.putOut_sampleAt (o : Out) : (s.putOut o).sampleAt = s.sampleAt := rfl
@[simp] theorem Body.putOut_events (o : Out) : (s.putOut o).events = s.events := rfl
@[simp] theorem Body.putOut_evlog (o : Out) : (s.putOut o).evlog = s.evlog := rfl
@[simp] theorem Body.putOut_out (o : Out) : (s.putOut o).out = s.out ++ [o] := rfl
@[simp] theorem Body.putOut_free (o : Out) : (s.putOut o).free = s.free := rfl

@[simp] theorem Body.plainBump_power (c : Ctr) (i n : Nat) : (s.plainBump c i n).power = s.power := rfl
@[simp] theorem Body.plainBump_lantern (c : Ctr) (i n : Nat) : (s.plainBump c i n).lantern = s.lantern := rfl
@[simp] theorem Body.plainBump_hifA (c : Ctr) (i n : Nat) : (s.plainBump c i n).hifA = s.hifA := rfl
@[simp] theorem Body.plainBump_hifB (c : Ctr) (i n : Nat) : (s.plainBump c i n).hifB = s.hifB := rfl
@[simp] theorem Body.plainBump_sec (c : Ctr) (i n : Nat) : (s.plainBump c i n).sec = s.sec := rfl
@[simp] theorem Body.plainBump_tables (c : Ctr) (i n : Nat) : (s.plainBump c i n).tables = s.tables := rfl
@[simp] theorem Body.plainBump_portage (c : Ctr) (i n : Nat) : (s.plainBump c i n).portage = s.portage := rfl
@[simp] theorem Body.plainBump_lports (c : Ctr) (i n : Nat) : (s.plainBump c i n).lports = s.lports := rfl
@[simp] theorem Body.plainBump_carts (c : Ctr) (i n : Nat) : (s.plainBump c i n).carts = s.carts := rfl
@[simp] theorem Body.plainBump_fwc (c : Ctr) (i n : Nat) : (s.plainBump c i n).fwc = s.fwc := rfl
@[simp] theorem Body.plainBump_tms (c : Ctr) (i n : Nat) : (s.plainBump c i n).tms = s.tms := rfl
@[simp] theorem Body.plainBump_setts (c : Ctr) (i n : Nat) : (s.plainBump c i n).setts = s.setts := rfl
@[simp] theorem Body.plainBump_coll (c : Ctr) (i n : Nat) : (s.plainBump c i n).coll = s.coll := rfl
@[simp] theorem Body.plainBump_mss (c : Ctr) (i n : Nat) : (s.plainBump c i n).mss = s.mss := rfl
@[simp] theorem Body.plainBump_integ (c : Ctr) (i n : Nat) : (s.plainBump c i n).integ = s.integ := rfl
@[simp] theorem Body.plainBump_budget (c : Ctr) (i n : Nat) : (s.plainBump c i n).budget = s.budget := rfl
@[simp] theorem Body.plainBump_clock (c : Ctr) (i n : Nat) : (s.plainBump c i n).clock = s.clock := rfl
@[simp] theorem Body.plainBump_profiles (c : Ctr) (i n : Nat) : (s.plainBump c i n).profiles = s.profiles := rfl
@[simp] theorem Body.plainBump_mram (c : Ctr) (i n : Nat) : (s.plainBump c i n).mram = s.mram := rfl
@[simp] theorem Body.plainBump_planes (c : Ctr) (i n : Nat) : (s.plainBump c i n).planes = s.planes := rfl
@[simp] theorem Body.plainBump_counters (c : Ctr) (i n : Nat) : (s.plainBump c i n).counters = bumpIn s.counters c i n := rfl
@[simp] theorem Body.plainBump_sampleAt (c : Ctr) (i n : Nat) : (s.plainBump c i n).sampleAt = s.sampleAt := rfl
@[simp] theorem Body.plainBump_events (c : Ctr) (i n : Nat) : (s.plainBump c i n).events = s.events := rfl
@[simp] theorem Body.plainBump_evlog (c : Ctr) (i n : Nat) : (s.plainBump c i n).evlog = s.evlog := rfl
@[simp] theorem Body.plainBump_out (c : Ctr) (i n : Nat) : (s.plainBump c i n).out = s.out := rfl
@[simp] theorem Body.plainBump_free (c : Ctr) (i n : Nat) : (s.plainBump c i n).free = s.free := rfl

@[simp] theorem Body.lanternPut_power (g : Lantern → Lantern) : (s.lanternPut g).power = s.power := rfl
@[simp] theorem Body.lanternPut_lantern (g : Lantern → Lantern) : (s.lanternPut g).lantern = { g s.lantern with gen := s.lantern.gen + 2 } := rfl
@[simp] theorem Body.lanternPut_hifA (g : Lantern → Lantern) : (s.lanternPut g).hifA = s.hifA := rfl
@[simp] theorem Body.lanternPut_hifB (g : Lantern → Lantern) : (s.lanternPut g).hifB = s.hifB := rfl
@[simp] theorem Body.lanternPut_sec (g : Lantern → Lantern) : (s.lanternPut g).sec = s.sec := rfl
@[simp] theorem Body.lanternPut_tables (g : Lantern → Lantern) : (s.lanternPut g).tables = s.tables := rfl
@[simp] theorem Body.lanternPut_portage (g : Lantern → Lantern) : (s.lanternPut g).portage = s.portage := rfl
@[simp] theorem Body.lanternPut_lports (g : Lantern → Lantern) : (s.lanternPut g).lports = s.lports := rfl
@[simp] theorem Body.lanternPut_carts (g : Lantern → Lantern) : (s.lanternPut g).carts = s.carts := rfl
@[simp] theorem Body.lanternPut_fwc (g : Lantern → Lantern) : (s.lanternPut g).fwc = s.fwc := rfl
@[simp] theorem Body.lanternPut_tms (g : Lantern → Lantern) : (s.lanternPut g).tms = s.tms := rfl
@[simp] theorem Body.lanternPut_setts (g : Lantern → Lantern) : (s.lanternPut g).setts = s.setts := rfl
@[simp] theorem Body.lanternPut_coll (g : Lantern → Lantern) : (s.lanternPut g).coll = s.coll := rfl
@[simp] theorem Body.lanternPut_mss (g : Lantern → Lantern) : (s.lanternPut g).mss = s.mss := rfl
@[simp] theorem Body.lanternPut_integ (g : Lantern → Lantern) : (s.lanternPut g).integ = s.integ := rfl
@[simp] theorem Body.lanternPut_budget (g : Lantern → Lantern) : (s.lanternPut g).budget = s.budget := rfl
@[simp] theorem Body.lanternPut_clock (g : Lantern → Lantern) : (s.lanternPut g).clock = s.clock := rfl
@[simp] theorem Body.lanternPut_profiles (g : Lantern → Lantern) : (s.lanternPut g).profiles = s.profiles := rfl
@[simp] theorem Body.lanternPut_mram (g : Lantern → Lantern) : (s.lanternPut g).mram = s.mram := rfl
@[simp] theorem Body.lanternPut_planes (g : Lantern → Lantern) : (s.lanternPut g).planes = s.planes := rfl
@[simp] theorem Body.lanternPut_counters (g : Lantern → Lantern) : (s.lanternPut g).counters = s.counters := rfl
@[simp] theorem Body.lanternPut_sampleAt (g : Lantern → Lantern) : (s.lanternPut g).sampleAt = s.sampleAt := rfl
@[simp] theorem Body.lanternPut_events (g : Lantern → Lantern) : (s.lanternPut g).events = s.events := rfl
@[simp] theorem Body.lanternPut_evlog (g : Lantern → Lantern) : (s.lanternPut g).evlog = s.evlog := rfl
@[simp] theorem Body.lanternPut_out (g : Lantern → Lantern) : (s.lanternPut g).out = s.out := rfl
@[simp] theorem Body.lanternPut_free (g : Lantern → Lantern) : (s.lanternPut g).free = s.free := rfl

@[simp] theorem Body.setPower_power (f : Power → Power) : (s.setPower f).power = f s.power := rfl
@[simp] theorem Body.setPower_lantern (f : Power → Power) : (s.setPower f).lantern = s.lantern := rfl
@[simp] theorem Body.setPower_hifA (f : Power → Power) : (s.setPower f).hifA = s.hifA := rfl
@[simp] theorem Body.setPower_hifB (f : Power → Power) : (s.setPower f).hifB = s.hifB := rfl
@[simp] theorem Body.setPower_sec (f : Power → Power) : (s.setPower f).sec = s.sec := rfl
@[simp] theorem Body.setPower_tables (f : Power → Power) : (s.setPower f).tables = s.tables := rfl
@[simp] theorem Body.setPower_portage (f : Power → Power) : (s.setPower f).portage = s.portage := rfl
@[simp] theorem Body.setPower_lports (f : Power → Power) : (s.setPower f).lports = s.lports := rfl
@[simp] theorem Body.setPower_carts (f : Power → Power) : (s.setPower f).carts = s.carts := rfl
@[simp] theorem Body.setPower_fwc (f : Power → Power) : (s.setPower f).fwc = s.fwc := rfl
@[simp] theorem Body.setPower_tms (f : Power → Power) : (s.setPower f).tms = s.tms := rfl
@[simp] theorem Body.setPower_setts (f : Power → Power) : (s.setPower f).setts = s.setts := rfl
@[simp] theorem Body.setPower_coll (f : Power → Power) : (s.setPower f).coll = s.coll := rfl
@[simp] theorem Body.setPower_mss (f : Power → Power) : (s.setPower f).mss = s.mss := rfl
@[simp] theorem Body.setPower_integ (f : Power → Power) : (s.setPower f).integ = s.integ := rfl
@[simp] theorem Body.setPower_budget (f : Power → Power) : (s.setPower f).budget = s.budget := rfl
@[simp] theorem Body.setPower_clock (f : Power → Power) : (s.setPower f).clock = s.clock := rfl
@[simp] theorem Body.setPower_profiles (f : Power → Power) : (s.setPower f).profiles = s.profiles := rfl
@[simp] theorem Body.setPower_mram (f : Power → Power) : (s.setPower f).mram = s.mram := rfl
@[simp] theorem Body.setPower_planes (f : Power → Power) : (s.setPower f).planes = s.planes := rfl
@[simp] theorem Body.setPower_counters (f : Power → Power) : (s.setPower f).counters = s.counters := rfl
@[simp] theorem Body.setPower_sampleAt (f : Power → Power) : (s.setPower f).sampleAt = s.sampleAt := rfl
@[simp] theorem Body.setPower_events (f : Power → Power) : (s.setPower f).events = s.events := rfl
@[simp] theorem Body.setPower_evlog (f : Power → Power) : (s.setPower f).evlog = s.evlog := rfl
@[simp] theorem Body.setPower_out (f : Power → Power) : (s.setPower f).out = s.out := rfl
@[simp] theorem Body.setPower_free (f : Power → Power) : (s.setPower f).free = s.free := rfl

@[simp] theorem Body.setLp_power (l : Nat) (x : LPort) : (s.setLp l x).power = s.power := rfl
@[simp] theorem Body.setLp_lantern (l : Nat) (x : LPort) : (s.setLp l x).lantern = s.lantern := rfl
@[simp] theorem Body.setLp_hifA (l : Nat) (x : LPort) : (s.setLp l x).hifA = s.hifA := rfl
@[simp] theorem Body.setLp_hifB (l : Nat) (x : LPort) : (s.setLp l x).hifB = s.hifB := rfl
@[simp] theorem Body.setLp_sec (l : Nat) (x : LPort) : (s.setLp l x).sec = s.sec := rfl
@[simp] theorem Body.setLp_tables (l : Nat) (x : LPort) : (s.setLp l x).tables = s.tables := rfl
@[simp] theorem Body.setLp_portage (l : Nat) (x : LPort) : (s.setLp l x).portage = s.portage := rfl
@[simp] theorem Body.setLp_lports (l : Nat) (x : LPort) : (s.setLp l x).lports = mset s.lports l x := rfl
@[simp] theorem Body.setLp_carts (l : Nat) (x : LPort) : (s.setLp l x).carts = s.carts := rfl
@[simp] theorem Body.setLp_fwc (l : Nat) (x : LPort) : (s.setLp l x).fwc = s.fwc := rfl
@[simp] theorem Body.setLp_tms (l : Nat) (x : LPort) : (s.setLp l x).tms = s.tms := rfl
@[simp] theorem Body.setLp_setts (l : Nat) (x : LPort) : (s.setLp l x).setts = s.setts := rfl
@[simp] theorem Body.setLp_coll (l : Nat) (x : LPort) : (s.setLp l x).coll = s.coll := rfl
@[simp] theorem Body.setLp_mss (l : Nat) (x : LPort) : (s.setLp l x).mss = s.mss := rfl
@[simp] theorem Body.setLp_integ (l : Nat) (x : LPort) : (s.setLp l x).integ = s.integ := rfl
@[simp] theorem Body.setLp_budget (l : Nat) (x : LPort) : (s.setLp l x).budget = s.budget := rfl
@[simp] theorem Body.setLp_clock (l : Nat) (x : LPort) : (s.setLp l x).clock = s.clock := rfl
@[simp] theorem Body.setLp_profiles (l : Nat) (x : LPort) : (s.setLp l x).profiles = s.profiles := rfl
@[simp] theorem Body.setLp_mram (l : Nat) (x : LPort) : (s.setLp l x).mram = s.mram := rfl
@[simp] theorem Body.setLp_planes (l : Nat) (x : LPort) : (s.setLp l x).planes = s.planes := rfl
@[simp] theorem Body.setLp_counters (l : Nat) (x : LPort) : (s.setLp l x).counters = s.counters := rfl
@[simp] theorem Body.setLp_sampleAt (l : Nat) (x : LPort) : (s.setLp l x).sampleAt = s.sampleAt := rfl
@[simp] theorem Body.setLp_events (l : Nat) (x : LPort) : (s.setLp l x).events = s.events := rfl
@[simp] theorem Body.setLp_evlog (l : Nat) (x : LPort) : (s.setLp l x).evlog = s.evlog := rfl
@[simp] theorem Body.setLp_out (l : Nat) (x : LPort) : (s.setLp l x).out = s.out := rfl
@[simp] theorem Body.setLp_free (l : Nat) (x : LPort) : (s.setLp l x).free = s.free := rfl

@[simp] theorem Body.setSett_power (n : Nat) (x : Sett) : (s.setSett n x).power = s.power := rfl
@[simp] theorem Body.setSett_lantern (n : Nat) (x : Sett) : (s.setSett n x).lantern = s.lantern := rfl
@[simp] theorem Body.setSett_hifA (n : Nat) (x : Sett) : (s.setSett n x).hifA = s.hifA := rfl
@[simp] theorem Body.setSett_hifB (n : Nat) (x : Sett) : (s.setSett n x).hifB = s.hifB := rfl
@[simp] theorem Body.setSett_sec (n : Nat) (x : Sett) : (s.setSett n x).sec = s.sec := rfl
@[simp] theorem Body.setSett_tables (n : Nat) (x : Sett) : (s.setSett n x).tables = s.tables := rfl
@[simp] theorem Body.setSett_portage (n : Nat) (x : Sett) : (s.setSett n x).portage = s.portage := rfl
@[simp] theorem Body.setSett_lports (n : Nat) (x : Sett) : (s.setSett n x).lports = s.lports := rfl
@[simp] theorem Body.setSett_carts (n : Nat) (x : Sett) : (s.setSett n x).carts = s.carts := rfl
@[simp] theorem Body.setSett_fwc (n : Nat) (x : Sett) : (s.setSett n x).fwc = s.fwc := rfl
@[simp] theorem Body.setSett_tms (n : Nat) (x : Sett) : (s.setSett n x).tms = s.tms := rfl
@[simp] theorem Body.setSett_setts (n : Nat) (x : Sett) : (s.setSett n x).setts = mset s.setts n x := rfl
@[simp] theorem Body.setSett_coll (n : Nat) (x : Sett) : (s.setSett n x).coll = s.coll := rfl
@[simp] theorem Body.setSett_mss (n : Nat) (x : Sett) : (s.setSett n x).mss = s.mss := rfl
@[simp] theorem Body.setSett_integ (n : Nat) (x : Sett) : (s.setSett n x).integ = s.integ := rfl
@[simp] theorem Body.setSett_budget (n : Nat) (x : Sett) : (s.setSett n x).budget = s.budget := rfl
@[simp] theorem Body.setSett_clock (n : Nat) (x : Sett) : (s.setSett n x).clock = s.clock := rfl
@[simp] theorem Body.setSett_profiles (n : Nat) (x : Sett) : (s.setSett n x).profiles = s.profiles := rfl
@[simp] theorem Body.setSett_mram (n : Nat) (x : Sett) : (s.setSett n x).mram = s.mram := rfl
@[simp] theorem Body.setSett_planes (n : Nat) (x : Sett) : (s.setSett n x).planes = s.planes := rfl
@[simp] theorem Body.setSett_counters (n : Nat) (x : Sett) : (s.setSett n x).counters = s.counters := rfl
@[simp] theorem Body.setSett_sampleAt (n : Nat) (x : Sett) : (s.setSett n x).sampleAt = s.sampleAt := rfl
@[simp] theorem Body.setSett_events (n : Nat) (x : Sett) : (s.setSett n x).events = s.events := rfl
@[simp] theorem Body.setSett_evlog (n : Nat) (x : Sett) : (s.setSett n x).evlog = s.evlog := rfl
@[simp] theorem Body.setSett_out (n : Nat) (x : Sett) : (s.setSett n x).out = s.out := rfl
@[simp] theorem Body.setSett_free (n : Nat) (x : Sett) : (s.setSett n x).free = s.free := rfl

@[simp] theorem Body.setCart_power (c : Nat) (x : Cart) : (s.setCart c x).power = s.power := rfl
@[simp] theorem Body.setCart_lantern (c : Nat) (x : Cart) : (s.setCart c x).lantern = s.lantern := rfl
@[simp] theorem Body.setCart_hifA (c : Nat) (x : Cart) : (s.setCart c x).hifA = s.hifA := rfl
@[simp] theorem Body.setCart_hifB (c : Nat) (x : Cart) : (s.setCart c x).hifB = s.hifB := rfl
@[simp] theorem Body.setCart_sec (c : Nat) (x : Cart) : (s.setCart c x).sec = s.sec := rfl
@[simp] theorem Body.setCart_tables (c : Nat) (x : Cart) : (s.setCart c x).tables = s.tables := rfl
@[simp] theorem Body.setCart_portage (c : Nat) (x : Cart) : (s.setCart c x).portage = s.portage := rfl
@[simp] theorem Body.setCart_lports (c : Nat) (x : Cart) : (s.setCart c x).lports = s.lports := rfl
@[simp] theorem Body.setCart_carts (c : Nat) (x : Cart) : (s.setCart c x).carts = mset s.carts c x := rfl
@[simp] theorem Body.setCart_fwc (c : Nat) (x : Cart) : (s.setCart c x).fwc = s.fwc := rfl
@[simp] theorem Body.setCart_tms (c : Nat) (x : Cart) : (s.setCart c x).tms = s.tms := rfl
@[simp] theorem Body.setCart_setts (c : Nat) (x : Cart) : (s.setCart c x).setts = s.setts := rfl
@[simp] theorem Body.setCart_coll (c : Nat) (x : Cart) : (s.setCart c x).coll = s.coll := rfl
@[simp] theorem Body.setCart_mss (c : Nat) (x : Cart) : (s.setCart c x).mss = s.mss := rfl
@[simp] theorem Body.setCart_integ (c : Nat) (x : Cart) : (s.setCart c x).integ = s.integ := rfl
@[simp] theorem Body.setCart_budget (c : Nat) (x : Cart) : (s.setCart c x).budget = s.budget := rfl
@[simp] theorem Body.setCart_clock (c : Nat) (x : Cart) : (s.setCart c x).clock = s.clock := rfl
@[simp] theorem Body.setCart_profiles (c : Nat) (x : Cart) : (s.setCart c x).profiles = s.profiles := rfl
@[simp] theorem Body.setCart_mram (c : Nat) (x : Cart) : (s.setCart c x).mram = s.mram := rfl
@[simp] theorem Body.setCart_planes (c : Nat) (x : Cart) : (s.setCart c x).planes = s.planes := rfl
@[simp] theorem Body.setCart_counters (c : Nat) (x : Cart) : (s.setCart c x).counters = s.counters := rfl
@[simp] theorem Body.setCart_sampleAt (c : Nat) (x : Cart) : (s.setCart c x).sampleAt = s.sampleAt := rfl
@[simp] theorem Body.setCart_events (c : Nat) (x : Cart) : (s.setCart c x).events = s.events := rfl
@[simp] theorem Body.setCart_evlog (c : Nat) (x : Cart) : (s.setCart c x).evlog = s.evlog := rfl
@[simp] theorem Body.setCart_out (c : Nat) (x : Cart) : (s.setCart c x).out = s.out := rfl
@[simp] theorem Body.setCart_free (c : Nat) (x : Cart) : (s.setCart c x).free = s.free := rfl

@[simp] theorem Body.setFrame_power (f : BufFrame) : (s.setFrame f).power = s.power := rfl
@[simp] theorem Body.setFrame_lantern (f : BufFrame) : (s.setFrame f).lantern = s.lantern := rfl
@[simp] theorem Body.setFrame_hifA (f : BufFrame) : (s.setFrame f).hifA = s.hifA := rfl
@[simp] theorem Body.setFrame_hifB (f : BufFrame) : (s.setFrame f).hifB = s.hifB := rfl
@[simp] theorem Body.setFrame_sec (f : BufFrame) : (s.setFrame f).sec = s.sec := rfl
@[simp] theorem Body.setFrame_tables (f : BufFrame) : (s.setFrame f).tables = s.tables := rfl
@[simp] theorem Body.setFrame_portage (f : BufFrame) : (s.setFrame f).portage = s.portage := rfl
@[simp] theorem Body.setFrame_lports (f : BufFrame) : (s.setFrame f).lports = s.lports := rfl
@[simp] theorem Body.setFrame_carts (f : BufFrame) : (s.setFrame f).carts = s.carts := rfl
@[simp] theorem Body.setFrame_tms (f : BufFrame) : (s.setFrame f).tms = s.tms := rfl
@[simp] theorem Body.setFrame_setts (f : BufFrame) : (s.setFrame f).setts = s.setts := rfl
@[simp] theorem Body.setFrame_coll (f : BufFrame) : (s.setFrame f).coll = s.coll := rfl
@[simp] theorem Body.setFrame_mss (f : BufFrame) : (s.setFrame f).mss = s.mss := rfl
@[simp] theorem Body.setFrame_integ (f : BufFrame) : (s.setFrame f).integ = s.integ := rfl
@[simp] theorem Body.setFrame_budget (f : BufFrame) : (s.setFrame f).budget = s.budget := rfl
@[simp] theorem Body.setFrame_clock (f : BufFrame) : (s.setFrame f).clock = s.clock := rfl
@[simp] theorem Body.setFrame_profiles (f : BufFrame) : (s.setFrame f).profiles = s.profiles := rfl
@[simp] theorem Body.setFrame_mram (f : BufFrame) : (s.setFrame f).mram = s.mram := rfl
@[simp] theorem Body.setFrame_planes (f : BufFrame) : (s.setFrame f).planes = s.planes := rfl
@[simp] theorem Body.setFrame_counters (f : BufFrame) : (s.setFrame f).counters = s.counters := rfl
@[simp] theorem Body.setFrame_sampleAt (f : BufFrame) : (s.setFrame f).sampleAt = s.sampleAt := rfl
@[simp] theorem Body.setFrame_events (f : BufFrame) : (s.setFrame f).events = s.events := rfl
@[simp] theorem Body.setFrame_evlog (f : BufFrame) : (s.setFrame f).evlog = s.evlog := rfl
@[simp] theorem Body.setFrame_out (f : BufFrame) : (s.setFrame f).out = s.out := rfl
@[simp] theorem Body.setFrame_free (f : BufFrame) : (s.setFrame f).free = s.free := rfl

@[simp] theorem Body.putCtx_power (c : Ctx) : (s.putCtx c).power = s.power := rfl
@[simp] theorem Body.putCtx_lantern (c : Ctx) : (s.putCtx c).lantern = s.lantern := rfl
@[simp] theorem Body.putCtx_hifA (c : Ctx) : (s.putCtx c).hifA = s.hifA := rfl
@[simp] theorem Body.putCtx_hifB (c : Ctx) : (s.putCtx c).hifB = s.hifB := rfl
@[simp] theorem Body.putCtx_sec (c : Ctx) : (s.putCtx c).sec = s.sec := rfl
@[simp] theorem Body.putCtx_tables (c : Ctx) : (s.putCtx c).tables = s.tables := rfl
@[simp] theorem Body.putCtx_portage (c : Ctx) : (s.putCtx c).portage = s.portage := rfl
@[simp] theorem Body.putCtx_lports (c : Ctx) : (s.putCtx c).lports = s.lports := rfl
@[simp] theorem Body.putCtx_carts (c : Ctx) : (s.putCtx c).carts = s.carts := rfl
@[simp] theorem Body.putCtx_fwc (c : Ctx) : (s.putCtx c).fwc = s.fwc := rfl
@[simp] theorem Body.putCtx_tms (c : Ctx) : (s.putCtx c).tms = s.tms := rfl
@[simp] theorem Body.putCtx_setts (c : Ctx) : (s.putCtx c).setts = s.setts := rfl
@[simp] theorem Body.putCtx_mss (c : Ctx) : (s.putCtx c).mss = s.mss := rfl
@[simp] theorem Body.putCtx_integ (c : Ctx) : (s.putCtx c).integ = s.integ := rfl
@[simp] theorem Body.putCtx_budget (c : Ctx) : (s.putCtx c).budget = s.budget := rfl
@[simp] theorem Body.putCtx_clock (c : Ctx) : (s.putCtx c).clock = s.clock := rfl
@[simp] theorem Body.putCtx_profiles (c : Ctx) : (s.putCtx c).profiles = s.profiles := rfl
@[simp] theorem Body.putCtx_mram (c : Ctx) : (s.putCtx c).mram = s.mram := rfl
@[simp] theorem Body.putCtx_planes (c : Ctx) : (s.putCtx c).planes = s.planes := rfl
@[simp] theorem Body.putCtx_counters (c : Ctx) : (s.putCtx c).counters = s.counters := rfl
@[simp] theorem Body.putCtx_sampleAt (c : Ctx) : (s.putCtx c).sampleAt = s.sampleAt := rfl
@[simp] theorem Body.putCtx_events (c : Ctx) : (s.putCtx c).events = s.events := rfl
@[simp] theorem Body.putCtx_evlog (c : Ctx) : (s.putCtx c).evlog = s.evlog := rfl
@[simp] theorem Body.putCtx_out (c : Ctx) : (s.putCtx c).out = s.out := rfl
@[simp] theorem Body.putCtx_free (c : Ctx) : (s.putCtx c).free = s.free := rfl

@[simp] theorem Body.modCtx_power (k : CtxKey) (f : Ctx → Ctx) : (s.modCtx k f).power = s.power := rfl
@[simp] theorem Body.modCtx_lantern (k : CtxKey) (f : Ctx → Ctx) : (s.modCtx k f).lantern = s.lantern := rfl
@[simp] theorem Body.modCtx_hifA (k : CtxKey) (f : Ctx → Ctx) : (s.modCtx k f).hifA = s.hifA := rfl
@[simp] theorem Body.modCtx_hifB (k : CtxKey) (f : Ctx → Ctx) : (s.modCtx k f).hifB = s.hifB := rfl
@[simp] theorem Body.modCtx_sec (k : CtxKey) (f : Ctx → Ctx) : (s.modCtx k f).sec = s.sec := rfl
@[simp] theorem Body.modCtx_tables (k : CtxKey) (f : Ctx → Ctx) : (s.modCtx k f).tables = s.tables := rfl
@[simp] theorem Body.modCtx_portage (k : CtxKey) (f : Ctx → Ctx) : (s.modCtx k f).portage = s.portage := rfl
@[simp] theorem Body.modCtx_lports (k : CtxKey) (f : Ctx → Ctx) : (s.modCtx k f).lports = s.lports := rfl
@[simp] theorem Body.modCtx_carts (k : CtxKey) (f : Ctx → Ctx) : (s.modCtx k f).carts = s.carts := rfl
@[simp] theorem Body.modCtx_fwc (k : CtxKey) (f : Ctx → Ctx) : (s.modCtx k f).fwc = s.fwc := rfl
@[simp] theorem Body.modCtx_tms (k : CtxKey) (f : Ctx → Ctx) : (s.modCtx k f).tms = s.tms := rfl
@[simp] theorem Body.modCtx_setts (k : CtxKey) (f : Ctx → Ctx) : (s.modCtx k f).setts = s.setts := rfl
@[simp] theorem Body.modCtx_mss (k : CtxKey) (f : Ctx → Ctx) : (s.modCtx k f).mss = s.mss := rfl
@[simp] theorem Body.modCtx_integ (k : CtxKey) (f : Ctx → Ctx) : (s.modCtx k f).integ = s.integ := rfl
@[simp] theorem Body.modCtx_budget (k : CtxKey) (f : Ctx → Ctx) : (s.modCtx k f).budget = s.budget := rfl
@[simp] theorem Body.modCtx_clock (k : CtxKey) (f : Ctx → Ctx) : (s.modCtx k f).clock = s.clock := rfl
@[simp] theorem Body.modCtx_profiles (k : CtxKey) (f : Ctx → Ctx) : (s.modCtx k f).profiles = s.profiles := rfl
@[simp] theorem Body.modCtx_mram (k : CtxKey) (f : Ctx → Ctx) : (s.modCtx k f).mram = s.mram := rfl
@[simp] theorem Body.modCtx_planes (k : CtxKey) (f : Ctx → Ctx) : (s.modCtx k f).planes = s.planes := rfl
@[simp] theorem Body.modCtx_counters (k : CtxKey) (f : Ctx → Ctx) : (s.modCtx k f).counters = s.counters := rfl
@[simp] theorem Body.modCtx_sampleAt (k : CtxKey) (f : Ctx → Ctx) : (s.modCtx k f).sampleAt = s.sampleAt := rfl
@[simp] theorem Body.modCtx_events (k : CtxKey) (f : Ctx → Ctx) : (s.modCtx k f).events = s.events := rfl
@[simp] theorem Body.modCtx_evlog (k : CtxKey) (f : Ctx → Ctx) : (s.modCtx k f).evlog = s.evlog := rfl
@[simp] theorem Body.modCtx_out (k : CtxKey) (f : Ctx → Ctx) : (s.modCtx k f).out = s.out := rfl
@[simp] theorem Body.modCtx_free (k : CtxKey) (f : Ctx → Ctx) : (s.modCtx k f).free = s.free := rfl

@[simp] theorem Body.putStage_power (t : Stage) : (s.putStage t).power = s.power := rfl
@[simp] theorem Body.putStage_lantern (t : Stage) : (s.putStage t).lantern = s.lantern := rfl
@[simp] theorem Body.putStage_hifA (t : Stage) : (s.putStage t).hifA = s.hifA := rfl
@[simp] theorem Body.putStage_hifB (t : Stage) : (s.putStage t).hifB = s.hifB := rfl
@[simp] theorem Body.putStage_sec (t : Stage) : (s.putStage t).sec = s.sec := rfl
@[simp] theorem Body.putStage_tables (t : Stage) : (s.putStage t).tables = s.tables := rfl
@[simp] theorem Body.putStage_portage (t : Stage) : (s.putStage t).portage = s.portage := rfl
@[simp] theorem Body.putStage_lports (t : Stage) : (s.putStage t).lports = s.lports := rfl
@[simp] theorem Body.putStage_carts (t : Stage) : (s.putStage t).carts = s.carts := rfl
@[simp] theorem Body.putStage_fwc (t : Stage) : (s.putStage t).fwc = s.fwc := rfl
@[simp] theorem Body.putStage_tms (t : Stage) : (s.putStage t).tms = s.tms := rfl
@[simp] theorem Body.putStage_setts (t : Stage) : (s.putStage t).setts = s.setts := rfl
@[simp] theorem Body.putStage_mss (t : Stage) : (s.putStage t).mss = s.mss := rfl
@[simp] theorem Body.putStage_integ (t : Stage) : (s.putStage t).integ = s.integ := rfl
@[simp] theorem Body.putStage_budget (t : Stage) : (s.putStage t).budget = s.budget := rfl
@[simp] theorem Body.putStage_clock (t : Stage) : (s.putStage t).clock = s.clock := rfl
@[simp] theorem Body.putStage_profiles (t : Stage) : (s.putStage t).profiles = s.profiles := rfl
@[simp] theorem Body.putStage_mram (t : Stage) : (s.putStage t).mram = s.mram := rfl
@[simp] theorem Body.putStage_planes (t : Stage) : (s.putStage t).planes = s.planes := rfl
@[simp] theorem Body.putStage_counters (t : Stage) : (s.putStage t).counters = s.counters := rfl
@[simp] theorem Body.putStage_sampleAt (t : Stage) : (s.putStage t).sampleAt = s.sampleAt := rfl
@[simp] theorem Body.putStage_events (t : Stage) : (s.putStage t).events = s.events := rfl
@[simp] theorem Body.putStage_evlog (t : Stage) : (s.putStage t).evlog = s.evlog := rfl
@[simp] theorem Body.putStage_out (t : Stage) : (s.putStage t).out = s.out := rfl
@[simp] theorem Body.putStage_free (t : Stage) : (s.putStage t).free = s.free := rfl

@[simp] theorem Body.setWin_power (wid : Nat) (w : Window) : (s.setWin wid w).power = s.power := rfl
@[simp] theorem Body.setWin_lantern (wid : Nat) (w : Window) : (s.setWin wid w).lantern = s.lantern := rfl
@[simp] theorem Body.setWin_hifA (wid : Nat) (w : Window) : (s.setWin wid w).hifA = s.hifA := rfl
@[simp] theorem Body.setWin_hifB (wid : Nat) (w : Window) : (s.setWin wid w).hifB = s.hifB := rfl
@[simp] theorem Body.setWin_sec (wid : Nat) (w : Window) : (s.setWin wid w).sec = s.sec := rfl
@[simp] theorem Body.setWin_tables (wid : Nat) (w : Window) : (s.setWin wid w).tables = s.tables := rfl
@[simp] theorem Body.setWin_portage (wid : Nat) (w : Window) : (s.setWin wid w).portage = s.portage := rfl
@[simp] theorem Body.setWin_lports (wid : Nat) (w : Window) : (s.setWin wid w).lports = s.lports := rfl
@[simp] theorem Body.setWin_carts (wid : Nat) (w : Window) : (s.setWin wid w).carts = s.carts := rfl
@[simp] theorem Body.setWin_fwc (wid : Nat) (w : Window) : (s.setWin wid w).fwc = s.fwc := rfl
@[simp] theorem Body.setWin_tms (wid : Nat) (w : Window) : (s.setWin wid w).tms = s.tms := rfl
@[simp] theorem Body.setWin_setts (wid : Nat) (w : Window) : (s.setWin wid w).setts = s.setts := rfl
@[simp] theorem Body.setWin_coll (wid : Nat) (w : Window) : (s.setWin wid w).coll = s.coll := rfl
@[simp] theorem Body.setWin_integ (wid : Nat) (w : Window) : (s.setWin wid w).integ = s.integ := rfl
@[simp] theorem Body.setWin_budget (wid : Nat) (w : Window) : (s.setWin wid w).budget = s.budget := rfl
@[simp] theorem Body.setWin_clock (wid : Nat) (w : Window) : (s.setWin wid w).clock = s.clock := rfl
@[simp] theorem Body.setWin_profiles (wid : Nat) (w : Window) : (s.setWin wid w).profiles = s.profiles := rfl
@[simp] theorem Body.setWin_mram (wid : Nat) (w : Window) : (s.setWin wid w).mram = s.mram := rfl
@[simp] theorem Body.setWin_planes (wid : Nat) (w : Window) : (s.setWin wid w).planes = s.planes := rfl
@[simp] theorem Body.setWin_counters (wid : Nat) (w : Window) : (s.setWin wid w).counters = s.counters := rfl
@[simp] theorem Body.setWin_sampleAt (wid : Nat) (w : Window) : (s.setWin wid w).sampleAt = s.sampleAt := rfl
@[simp] theorem Body.setWin_events (wid : Nat) (w : Window) : (s.setWin wid w).events = s.events := rfl
@[simp] theorem Body.setWin_evlog (wid : Nat) (w : Window) : (s.setWin wid w).evlog = s.evlog := rfl
@[simp] theorem Body.setWin_out (wid : Nat) (w : Window) : (s.setWin wid w).out = s.out := rfl
@[simp] theorem Body.setWin_free (wid : Nat) (w : Window) : (s.setWin wid w).free = s.free := rfl

@[simp] theorem Body.setStack_power (n : Nat) (x : StackState) : (s.setStack n x).power = s.power := rfl
@[simp] theorem Body.setStack_lantern (n : Nat) (x : StackState) : (s.setStack n x).lantern = s.lantern := rfl
@[simp] theorem Body.setStack_hifA (n : Nat) (x : StackState) : (s.setStack n x).hifA = s.hifA := rfl
@[simp] theorem Body.setStack_hifB (n : Nat) (x : StackState) : (s.setStack n x).hifB = s.hifB := rfl
@[simp] theorem Body.setStack_sec (n : Nat) (x : StackState) : (s.setStack n x).sec = s.sec := rfl
@[simp] theorem Body.setStack_tables (n : Nat) (x : StackState) : (s.setStack n x).tables = s.tables := rfl
@[simp] theorem Body.setStack_portage (n : Nat) (x : StackState) : (s.setStack n x).portage = s.portage := rfl
@[simp] theorem Body.setStack_lports (n : Nat) (x : StackState) : (s.setStack n x).lports = s.lports := rfl
@[simp] theorem Body.setStack_carts (n : Nat) (x : StackState) : (s.setStack n x).carts = s.carts := rfl
@[simp] theorem Body.setStack_fwc (n : Nat) (x : StackState) : (s.setStack n x).fwc = s.fwc := rfl
@[simp] theorem Body.setStack_tms (n : Nat) (x : StackState) : (s.setStack n x).tms = s.tms := rfl
@[simp] theorem Body.setStack_setts (n : Nat) (x : StackState) : (s.setStack n x).setts = s.setts := rfl
@[simp] theorem Body.setStack_coll (n : Nat) (x : StackState) : (s.setStack n x).coll = s.coll := rfl
@[simp] theorem Body.setStack_mss (n : Nat) (x : StackState) : (s.setStack n x).mss = s.mss := rfl
@[simp] theorem Body.setStack_budget (n : Nat) (x : StackState) : (s.setStack n x).budget = s.budget := rfl
@[simp] theorem Body.setStack_clock (n : Nat) (x : StackState) : (s.setStack n x).clock = s.clock := rfl
@[simp] theorem Body.setStack_profiles (n : Nat) (x : StackState) : (s.setStack n x).profiles = s.profiles := rfl
@[simp] theorem Body.setStack_mram (n : Nat) (x : StackState) : (s.setStack n x).mram = s.mram := rfl
@[simp] theorem Body.setStack_planes (n : Nat) (x : StackState) : (s.setStack n x).planes = s.planes := rfl
@[simp] theorem Body.setStack_counters (n : Nat) (x : StackState) : (s.setStack n x).counters = s.counters := rfl
@[simp] theorem Body.setStack_sampleAt (n : Nat) (x : StackState) : (s.setStack n x).sampleAt = s.sampleAt := rfl
@[simp] theorem Body.setStack_events (n : Nat) (x : StackState) : (s.setStack n x).events = s.events := rfl
@[simp] theorem Body.setStack_evlog (n : Nat) (x : StackState) : (s.setStack n x).evlog = s.evlog := rfl
@[simp] theorem Body.setStack_out (n : Nat) (x : StackState) : (s.setStack n x).out = s.out := rfl
@[simp] theorem Body.setStack_free (n : Nat) (x : StackState) : (s.setStack n x).free = s.free := rfl

@[simp] theorem Body.setTrans_power (g : Nat) (t : Transition) : (s.setTrans g t).power = s.power := rfl
@[simp] theorem Body.setTrans_lantern (g : Nat) (t : Transition) : (s.setTrans g t).lantern = s.lantern := rfl
@[simp] theorem Body.setTrans_hifA (g : Nat) (t : Transition) : (s.setTrans g t).hifA = s.hifA := rfl
@[simp] theorem Body.setTrans_hifB (g : Nat) (t : Transition) : (s.setTrans g t).hifB = s.hifB := rfl
@[simp] theorem Body.setTrans_sec (g : Nat) (t : Transition) : (s.setTrans g t).sec = s.sec := rfl
@[simp] theorem Body.setTrans_tables (g : Nat) (t : Transition) : (s.setTrans g t).tables = s.tables := rfl
@[simp] theorem Body.setTrans_lports (g : Nat) (t : Transition) : (s.setTrans g t).lports = s.lports := rfl
@[simp] theorem Body.setTrans_carts (g : Nat) (t : Transition) : (s.setTrans g t).carts = s.carts := rfl
@[simp] theorem Body.setTrans_fwc (g : Nat) (t : Transition) : (s.setTrans g t).fwc = s.fwc := rfl
@[simp] theorem Body.setTrans_tms (g : Nat) (t : Transition) : (s.setTrans g t).tms = s.tms := rfl
@[simp] theorem Body.setTrans_setts (g : Nat) (t : Transition) : (s.setTrans g t).setts = s.setts := rfl
@[simp] theorem Body.setTrans_coll (g : Nat) (t : Transition) : (s.setTrans g t).coll = s.coll := rfl
@[simp] theorem Body.setTrans_mss (g : Nat) (t : Transition) : (s.setTrans g t).mss = s.mss := rfl
@[simp] theorem Body.setTrans_integ (g : Nat) (t : Transition) : (s.setTrans g t).integ = s.integ := rfl
@[simp] theorem Body.setTrans_budget (g : Nat) (t : Transition) : (s.setTrans g t).budget = s.budget := rfl
@[simp] theorem Body.setTrans_clock (g : Nat) (t : Transition) : (s.setTrans g t).clock = s.clock := rfl
@[simp] theorem Body.setTrans_profiles (g : Nat) (t : Transition) : (s.setTrans g t).profiles = s.profiles := rfl
@[simp] theorem Body.setTrans_mram (g : Nat) (t : Transition) : (s.setTrans g t).mram = s.mram := rfl
@[simp] theorem Body.setTrans_planes (g : Nat) (t : Transition) : (s.setTrans g t).planes = s.planes := rfl
@[simp] theorem Body.setTrans_counters (g : Nat) (t : Transition) : (s.setTrans g t).counters = s.counters := rfl
@[simp] theorem Body.setTrans_sampleAt (g : Nat) (t : Transition) : (s.setTrans g t).sampleAt = s.sampleAt := rfl
@[simp] theorem Body.setTrans_events (g : Nat) (t : Transition) : (s.setTrans g t).events = s.events := rfl
@[simp] theorem Body.setTrans_evlog (g : Nat) (t : Transition) : (s.setTrans g t).evlog = s.evlog := rfl
@[simp] theorem Body.setTrans_out (g : Nat) (t : Transition) : (s.setTrans g t).out = s.out := rfl
@[simp] theorem Body.setTrans_free (g : Nat) (t : Transition) : (s.setTrans g t).free = s.free := rfl

@[simp] theorem Body.setImage_power (k : Nat) (x : FwImage) : (s.setImage k x).power = s.power := rfl
@[simp] theorem Body.setImage_lantern (k : Nat) (x : FwImage) : (s.setImage k x).lantern = s.lantern := rfl
@[simp] theorem Body.setImage_hifA (k : Nat) (x : FwImage) : (s.setImage k x).hifA = s.hifA := rfl
@[simp] theorem Body.setImage_hifB (k : Nat) (x : FwImage) : (s.setImage k x).hifB = s.hifB := rfl
@[simp] theorem Body.setImage_tables (k : Nat) (x : FwImage) : (s.setImage k x).tables = s.tables := rfl
@[simp] theorem Body.setImage_portage (k : Nat) (x : FwImage) : (s.setImage k x).portage = s.portage := rfl
@[simp] theorem Body.setImage_lports (k : Nat) (x : FwImage) : (s.setImage k x).lports = s.lports := rfl
@[simp] theorem Body.setImage_carts (k : Nat) (x : FwImage) : (s.setImage k x).carts = s.carts := rfl
@[simp] theorem Body.setImage_fwc (k : Nat) (x : FwImage) : (s.setImage k x).fwc = s.fwc := rfl
@[simp] theorem Body.setImage_tms (k : Nat) (x : FwImage) : (s.setImage k x).tms = s.tms := rfl
@[simp] theorem Body.setImage_setts (k : Nat) (x : FwImage) : (s.setImage k x).setts = s.setts := rfl
@[simp] theorem Body.setImage_coll (k : Nat) (x : FwImage) : (s.setImage k x).coll = s.coll := rfl
@[simp] theorem Body.setImage_mss (k : Nat) (x : FwImage) : (s.setImage k x).mss = s.mss := rfl
@[simp] theorem Body.setImage_integ (k : Nat) (x : FwImage) : (s.setImage k x).integ = s.integ := rfl
@[simp] theorem Body.setImage_budget (k : Nat) (x : FwImage) : (s.setImage k x).budget = s.budget := rfl
@[simp] theorem Body.setImage_clock (k : Nat) (x : FwImage) : (s.setImage k x).clock = s.clock := rfl
@[simp] theorem Body.setImage_profiles (k : Nat) (x : FwImage) : (s.setImage k x).profiles = s.profiles := rfl
@[simp] theorem Body.setImage_mram (k : Nat) (x : FwImage) : (s.setImage k x).mram = s.mram := rfl
@[simp] theorem Body.setImage_planes (k : Nat) (x : FwImage) : (s.setImage k x).planes = s.planes := rfl
@[simp] theorem Body.setImage_counters (k : Nat) (x : FwImage) : (s.setImage k x).counters = s.counters := rfl
@[simp] theorem Body.setImage_sampleAt (k : Nat) (x : FwImage) : (s.setImage k x).sampleAt = s.sampleAt := rfl
@[simp] theorem Body.setImage_events (k : Nat) (x : FwImage) : (s.setImage k x).events = s.events := rfl
@[simp] theorem Body.setImage_evlog (k : Nat) (x : FwImage) : (s.setImage k x).evlog = s.evlog := rfl
@[simp] theorem Body.setImage_out (k : Nat) (x : FwImage) : (s.setImage k x).out = s.out := rfl
@[simp] theorem Body.setImage_free (k : Nat) (x : FwImage) : (s.setImage k x).free = s.free := rfl

@[simp] theorem Body.setIfc_power (i : Fin 2) (x : Iface) : (s.setIfc i x).power = s.power := by unfold Body.setIfc; split <;> rfl
@[simp] theorem Body.setIfc_lantern (i : Fin 2) (x : Iface) : (s.setIfc i x).lantern = s.lantern := by unfold Body.setIfc; split <;> rfl
@[simp] theorem Body.setIfc_sec (i : Fin 2) (x : Iface) : (s.setIfc i x).sec = s.sec := by unfold Body.setIfc; split <;> rfl
@[simp] theorem Body.setIfc_tables (i : Fin 2) (x : Iface) : (s.setIfc i x).tables = s.tables := by unfold Body.setIfc; split <;> rfl
@[simp] theorem Body.setIfc_portage (i : Fin 2) (x : Iface) : (s.setIfc i x).portage = s.portage := by unfold Body.setIfc; split <;> rfl
@[simp] theorem Body.setIfc_lports (i : Fin 2) (x : Iface) : (s.setIfc i x).lports = s.lports := by unfold Body.setIfc; split <;> rfl
@[simp] theorem Body.setIfc_carts (i : Fin 2) (x : Iface) : (s.setIfc i x).carts = s.carts := by unfold Body.setIfc; split <;> rfl
@[simp] theorem Body.setIfc_fwc (i : Fin 2) (x : Iface) : (s.setIfc i x).fwc = s.fwc := by unfold Body.setIfc; split <;> rfl
@[simp] theorem Body.setIfc_tms (i : Fin 2) (x : Iface) : (s.setIfc i x).tms = s.tms := by unfold Body.setIfc; split <;> rfl
@[simp] theorem Body.setIfc_setts (i : Fin 2) (x : Iface) : (s.setIfc i x).setts = s.setts := by unfold Body.setIfc; split <;> rfl
@[simp] theorem Body.setIfc_coll (i : Fin 2) (x : Iface) : (s.setIfc i x).coll = s.coll := by unfold Body.setIfc; split <;> rfl
@[simp] theorem Body.setIfc_mss (i : Fin 2) (x : Iface) : (s.setIfc i x).mss = s.mss := by unfold Body.setIfc; split <;> rfl
@[simp] theorem Body.setIfc_integ (i : Fin 2) (x : Iface) : (s.setIfc i x).integ = s.integ := by unfold Body.setIfc; split <;> rfl
@[simp] theorem Body.setIfc_budget (i : Fin 2) (x : Iface) : (s.setIfc i x).budget = s.budget := by unfold Body.setIfc; split <;> rfl
@[simp] theorem Body.setIfc_clock (i : Fin 2) (x : Iface) : (s.setIfc i x).clock = s.clock := by unfold Body.setIfc; split <;> rfl
@[simp] theorem Body.setIfc_profiles (i : Fin 2) (x : Iface) : (s.setIfc i x).profiles = s.profiles := by unfold Body.setIfc; split <;> rfl
@[simp] theorem Body.setIfc_mram (i : Fin 2) (x : Iface) : (s.setIfc i x).mram = s.mram := by unfold Body.setIfc; split <;> rfl
@[simp] theorem Body.setIfc_planes (i : Fin 2) (x : Iface) : (s.setIfc i x).planes = s.planes := by unfold Body.setIfc; split <;> rfl
@[simp] theorem Body.setIfc_counters (i : Fin 2) (x : Iface) : (s.setIfc i x).counters = s.counters := by unfold Body.setIfc; split <;> rfl
@[simp] theorem Body.setIfc_sampleAt (i : Fin 2) (x : Iface) : (s.setIfc i x).sampleAt = s.sampleAt := by unfold Body.setIfc; split <;> rfl
@[simp] theorem Body.setIfc_events (i : Fin 2) (x : Iface) : (s.setIfc i x).events = s.events := by unfold Body.setIfc; split <;> rfl
@[simp] theorem Body.setIfc_evlog (i : Fin 2) (x : Iface) : (s.setIfc i x).evlog = s.evlog := by unfold Body.setIfc; split <;> rfl
@[simp] theorem Body.setIfc_out (i : Fin 2) (x : Iface) : (s.setIfc i x).out = s.out := by unfold Body.setIfc; split <;> rfl
@[simp] theorem Body.setIfc_free (i : Fin 2) (x : Iface) : (s.setIfc i x).free = s.free := by unfold Body.setIfc; split <;> rfl

@[simp] theorem Body.ifc_setIfc_self (i : Fin 2) (x : Iface) : (s.setIfc i x).ifc i = x := by unfold Body.setIfc Body.ifc; split <;> rfl

end Sys2Proof.Machine
end

