-- ==== Sys2Proof/Machine/Registers.lean ====
section
/-! DEFINITION. What reads of BAR0 return, the indicators and the pins the module drives: views of the state, which no command
changes (16 R399-R403, R409, Tables 16-2 to 16-7; 17 Tables 17-3, 17-8; 15 R398). A read is no row of the command table and has
no effect (entry 86). -/
namespace Sys2Proof.Machine

/-! ### Codes of read-only fields -/

/-- POWER_STATE (16 Table 16-2); UNPOWERED and SAVING have no code, and no link to be read on. -/
def powerCode : PowerState → Nat
  | .precharge => 1 | .bringup => 2 | .operational => 3 | .inReset => 4 | .removing => 5 | .ready => 6 | .stopped => 7
  | .unpowered | .saving => 0

/-- STATE of a ring (16 Tables 16-4, 16-5). -/
def ringCode : RState → Nat
  | .disabled => 0 | .enabled => 1 | .draining => 2 | .stopped => 3 | .released => 4 | .takenOver => 5

/-- STATE of a mailbox (16 Table 16-7). -/
def mbCode : MbState → Nat
  | .idle => 0 | .receiving => 1 | .running => 2 | .answer => 3

/-! ### Register by register -/

/-- The Lantern page (16 Table 16-2). -/
def Body.readLantern (s : Body) (off : Nat) : Nat :=
  let p := s.lantern
  match off with
  | 0x00 => put p.gen.toNat 32 + 1
  | 0x08 => put p.stopPhase.toNat 56 + put p.stopCause.toNat 48 + put s.power.phase 32 + put (powerCode s.power.state) 28
      + put p.featureLevel.toNat 24
  | 0x10 => put p.die.toNat 24 + put p.stack.toNat 16 + put p.subsys.toNat 8
  | 0x18 => put p.partno.toNat 48 + put p.stepping.toNat 20
  | 0x20 => fld p.serial 63 0
  | 0x28 => fld p.serial 127 64
  | 0x30 => put p.oeMissing.toNat 48 + put p.stacksLost.toNat 28 + put p.fittedOe.toNat 20 + p.fittedHbm.toNat
  | 0x38 => put p.profileStatus.toNat 8 + p.inForce.toNat
  | 0x40 => put p.countersRestored.toNat 11 + put p.saveComplete.toNat 10 + put s.power.lowLine.toNat 9
      + put p.ridgepoleBelow.toNat 8 + p.slotFallback.toNat
  | 0x48 => p.portageInconsistent.toNat
  | 0x50 => p.release.toNat
  | 0x58 => p.slot.toNat
  | 0x60 => p.infra.toNat
  | _ => 0

/-- Interface control and error status (16 Table 16-3). -/
def Body.readControl (s : Body) (i : Fin 2) (off : Nat) : Nat :=
  let f := s.ifc i
  match off with
  | 0x1000 => put s.nRings 8 + i.val
  | 0x1008 => f.pollT.toNat
  | 0x1010 => f.priTimeout.toNat
  | 0x1018 => put f.regReject.toNat 5 + put f.telError.toNat 4 + put f.evtError.toNat 3 + put f.dbError.toNat 2
      + put (f.cqError != 0).toNat 1 + (f.crError != 0).toNat
  | 0x1020 => f.crError.toNat
  | 0x1028 => f.cqError.toNat
  | 0x1030 => f.errMask.toNat
  | 0x1038 => put f.rejectCode.toNat 32 + f.rejectOffset.toNat
  | _ => 0

/-- A command ring's registers (16 Table 16-4). -/
def CmdRing.read (x : CmdRing) (off : Nat) : Nat :=
  match off with
  | 0x00 => put x.base.toNat 12
  | 0x08 => put x.enable.toNat 63 + put x.prio.toNat 8 + x.log2.toNat
  | 0x10 => put (ringCode x.state) 61 + put x.cause.toNat 56 + x.fetch.toNat
  | 0x18 => x.session.toNat
  | _ => 0

/-- Registers of a ring the module writes (16 Table 16-5). -/
def CqRing.read (x : CqRing) (off : Nat) : Nat :=
  match off with
  | 0x00 => put x.base.toNat 12
  | 0x08 => put x.enable.toNat 63 + put x.format.toNat 8 + x.log2.toNat
  | 0x10 => put (ringCode x.state) 61 + put x.cause.toNat 56 + x.pi.toNat
  | _ => 0

/-- An MSI-X table entry, 16 bytes (16 Table 16-6). -/
def Msix.read (x : Msix) (off : Nat) : Nat :=
  if off = 0 then put x.addr.toNat 2 else put x.mask.toNat 32 + x.data.toNat

/-- Pending bits of vectors 64 k to 64 k + 63 (16 R409). -/
def Iface.pendingBits (f : Iface) (k : Nat) : Nat :=
  (List.range 64).foldl (fun a v => a + put (mgetD f.msix (64 * k + v) {}).pending.toNat v) 0

/-- Bytes of the answer part in MB_DATA. -/
def Mailbox.partBytes (b : Mailbox) : Nat := min partMax (b.ans.length - partMax * b.part)

/-- Mailbox registers; what the manual says of ANSWER reads 0 in other states (16 Table 16-7; entry 86). -/
def Mailbox.read (b : Mailbox) (off : Nat) : Nat :=
  let answers : Bool := b.state == .answer
  let held := fun (n : Nat) => if answers then n else 0
  match off with
  | 0x00 => put b.session.toNat 32 + put b.op.toNat 24 + put b.first.toNat 23 + put b.last.toNat 22 + b.partLen.toNat
  | 0x10 => put (mbCode b.state) 60 + put (held b.status.toNat) 48 + put b.refused.toNat 40
      + put (held (decide (partMax * (b.part + 1) < b.ans.length)).toNat) 39 + put (held b.part) 24 + held b.partBytes
  | 0x18 => held b.ans.length
  | _ => if off < 0x100 then 0 else leNat ((List.range 8).map fun k => nth b.data (off - 0x100 + k) 0)

/-- An 8-byte read at an aligned offset outside the Lantern page, from P5 on (16 Table 16-1). -/
def Body.readRegs (s : Body) (i : Fin 2) (off : Nat) : Nat :=
  let f := s.ifc i
  if off < 0x1000 then 0
  else if off < 0x2000 then s.readControl i off
  else if off < 0x10000 then 0
  else if off < 0x11000 then
    if s.nRings ≤ (off - 0x10000) / 0x40 then 0 else (f.ring ((off - 0x10000) / 0x40)).read (off % 0x40)
  else if off < 0x12000 then
    if s.nRings ≤ (off - 0x11000) / 0x40 then 0 else (f.cq ((off - 0x11000) / 0x40)).read (off % 0x40)
  else if off < 0x12040 then f.evt.read (off % 0x40)
  else if off < 0x12080 then f.tel.read (off % 0x40)
  else if off = 0x13000 then put f.dbBase.toNat 11
  else if off < 0x20000 then 0
  else if off < 0x20000 + 0x10 * 67 then (mgetD f.msix ((off - 0x20000) / 0x10) {}).read (off % 0x10)
  else if off = 0x24000 then f.pendingBits 0
  else if off = 0x24008 then f.pendingBits 1
  else if 0x30000 ≤ off ∧ off < 0x31000 then f.mailbox.read (off - 0x30000)
  else 0

/-- What an 8-byte read of BAR0 returns; none when the link is down, so that nobody reads (16 R399; 15 R397, R398). -/
def Body.readBar0 (s : Body) (i : Fin 2) (off : Nat) : Option W64 :=
  if !(s.ifc i).linkUp then none
  else some (BitVec.ofNat 64 (if off < 0x68 then s.readLantern off else if s.serves then s.readRegs i off else 0))

/-- A 4-byte read: half of the register's 8 bytes (16 R399). -/
def Body.readBar0Four (s : Body) (i : Fin 2) (off : Nat) : Option W32 :=
  (s.readBar0 i (off / 8 * 8)).map fun v => BitVec.ofNat 32 (if off % 8 = 0 then fld v 31 0 else fld v 63 32)

/-! ### Pins and indicators (17 Tables 17-3, 17-8) -/

/-- STATUS, bicolour. -/
inductive Led where
  | off | green | greenFlash | greenShort | amber | amberFlash
deriving DecidableEq, Repr

/-- RTR# is low, and the blue indicator on, exactly while READY. -/
def PowerState.rtrLow (p : PowerState) : Bool := p == .ready

/-- FAULT# is low exactly while STOPPED. -/
def PowerState.faultLow (p : PowerState) : Bool := p == .stopped

def PowerState.led : PowerState → Led
  | .operational => .green
  | .bringup | .inReset | .removing => .greenFlash
  | .stopped => .amber
  | .saving => .amberFlash
  | .ready => .greenShort
  | .unpowered | .precharge => .off

end Sys2Proof.Machine
end

