-- ==== Sys2Proof/WellFormed.lean ====
section
/-! DEFINITION. Which commands the outside world can send: operand sizes that the manual bounds. `exec` is total; a command
that fails a check here cannot occur on the hardware's wires and registers. -/
namespace Sys2Proof

/-- LEN counts the payload words (02 R37): a tail closes at most 2,047 of them. -/
def Rest.wf (r : Rest) : Bool := r.payload.length ≤ 2047

/-- A datagram is unfragmented and at most a jumbo frame of 9,216 bytes (00 Table 0-4). -/
def Udp.wf (u : Udp) : Bool := u.bytes ≤ 9216 && u.rest.wf

/-- A native frame is at most a jumbo frame of 9,216 bytes (00 Table 0-4), and its bytes are its length. -/
def Eth.wf (e : Eth) : Bool := e.bytes ≤ 9216 && e.data.length ≤ e.bytes

/-- A datagram of the management port carries a part of at most 3,840 bytes (13 R343). -/
def MbPart.wf (p : MbPart) : Bool := p.data.length ≤ 3840

/-- Nothing but the doorbell area's fields comes back from a poll: at most one view per ring (11 Table 11-3). -/
def DbView.wf (v : DbView) : Bool :=
  v.pi.length ≤ 64 && v.descs.length ≤ 64 && v.cplCi.length ≤ 64 && v.ringFail.length ≤ 64

/-- A BAR0 write of 4 bytes carries 32 bits (16 R399). -/
def wfWrite (four : Bool) (v : W64) : Bool := !four || v.toNat < 2 ^ 32

/-- One unit of a command's DMA is at most 4 KiB (11 R296). -/
def wfUnit (data : List Byte) : Bool := data.length ≤ 4096

/-- LCTRL messages carry five words (02 Table 2-15). -/
def wfLctrl (w : List W64) : Bool := w.length ≤ 5

/-- A window's metadata: an UPDATE window as FMEM CREATE admits it (09 R241), with the SIZE of its regions. -/
def WindowMeta.wf (m : WindowMeta) : Bool :=
  if m.update then
    m.rule != 0 && m.rule.toNat ≤ 4 && m.rp.toNat % 256 == 0 && m.rp != 0 && m.rp.toNat ≤ 2097152 && m.nregion != 0
      && m.nregion.toNat ≤ 0xFFFFFE && m.size.toNat == m.nregion.toNat * m.rp.toNat * (4 * min 3 m.rule.toNat)
  else m.nregion == 0

/-- What a survivor says. -/
def Survivor.wf : Survivor → Bool
  | .lost _ => true
  | .serves m => m.wf

namespace Instr

/-- The well-formed commands. -/
def wf : Instr → Bool
  | .frameTailArrival _ r => r.wf
  | .cutUnderrun d => d.sent.length ≤ 2047
  | .alpOverUdpDatagram _ u => u.wf
  | .ethernetFrameArrival _ e => e.wf
  | .mgmtPortDatagram _ _ p => p.wf
  | .nudge _ _ v => v.wf
  | .doorbellPoll _ v => v.wf
  | .registerWrite _ _ v four => wfWrite four v
  | .dmaUnitComplete _ d => wfUnit d
  | .timeResp _ w _ _ => wfLctrl w
  | .fmemMirror _ v => v.wf
  | .joinCopyComplete j => j.steps.length ≤ 0xFFFFFE
  | _ => true

end Instr
end Sys2Proof
end

