-- ==== Sys2Proof/Tests/Slice0.lean ====
section
/-! SUPPORT. Small tests of the model, each expected result from the manual, and for every statement with hypotheses a state
and operands that meet them (`witness_<statement>`). -/
open Sys2Proof Sys2Proof.Machine
namespace Sys2Proof.Tests
set_option Elab.async false

/-- Group 7 of plane 0. -/
def gAddr : W32 := 0x80000007

/-- The key of the running context. -/
def ck : CtxKey := ⟨gAddr, 0x10000005⟩

/-- An endpoint of plane 0 in a pod. -/
def ep (pod slot : Nat) : W32 := BitVec.ofNat 32 (put pod 19 + put slot 9)

/-- A group of three members in pods 1 and 2, the second fenced, with one replication entry for each pod. -/
def grp : Group :=
  { addr := gAddr, epoch := 3
    members := [{ ep := ep 1 0 }, { ep := ep 1 1, fenced := true, fepoch := 3 }, { ep := ep 2 0 }]
    repl := [{ kind := 0, live := 1, target := ep 1 0 }, { kind := 0, live := 1, target := ep 2 0 }] }

/-- A policy: 64 bytes in one chunk, FP32 in and out, SUM, EXACT, contributed and delivered by all. -/
def pol : BitVec 1024 := BitVec.ofNat 1024 (put 1 922 + put 1 918 + put 64 816)

/-- A running context of the group on Sett 0. -/
def ctx0 : Ctx :=
  { key := ck, st := .running, valid := true, pol, epoch := 3, expect := [.rank 0, .rank 2], nin := 2, grant := 1, sram := 4, repl := grp.repl }

/-- An ACTIVE window of one unit, number 5. -/
def win0 : Window := { size := 4096, units := 1 }

/-- A module of variant M20 in OPERATIONAL with its host links up, one group, one running context, one window. -/
def bench : State := { State.reset with
  fuses := [0, 0, 0, 0, 1#8192 <<< 7644, 0]
  power := { phase := 5, state := .operational }
  lantern := { partno := 1, fittedHbm := 0xFFFFF, fittedOe := 0xFF, stepping := 0xFFFF1F }
  hifA := { linkUp := true, dbBase := 1, cqs := [(0, { enable := true, state := .enabled, base := 1 })] }
  hifB := { linkUp := true, dbBase := 1 }
  tables := { group := { a := { store := [(0, groupEntry gAddr 0)] }, b := { store := [(0, groupEntry gAddr 0)] } } }
  coll := { groups := [(0, grp)], ctxs := [ctx0] }
  mss := { windows := [(5, win0)], partGB := [1440, 0, 0, 0, 0, 0], fmemUnits := 1000 } }

/-- The descriptor named by the witnesses: interface A, ring 0, index 0. -/
def r0 : CmdRef := ⟨0, 0, 0⟩

/-- Words of a descriptor: CLASS, OP, and (bit, value) pairs counted from bit 0 of word 0. -/
def dw (cls op : Nat) (l : List (Nat × Nat)) : BitVec 512 :=
  BitVec.ofNat 512 (put 3 60 + put cls 56 + put op 48 + (l.map fun x => put x.2 x.1).sum)

/-- A state with that descriptor QUEUED in ring 0 of interface A, the ring's session of role `role`. -/
def hostS (role : Role) (s : State) (w : BitVec 512) : State :=
  { s with
    hifA := { s.hifA with rings := [(0, { base := 1, enable := true, state := .enabled, session := 1, fetch := 1, descs := [{ idx := 0, w }] }), (1, { base := 2 })] }
    sec := { s.sec with sessions := [⟨1, role, 1, role, none⟩] } }

/-- Bytes of 0. -/
def zeros (n : Nat) : List Byte := List.replicate n 0

/-- A proof block for a role with key 1, over the challenge of 64 zero bytes. -/
def proof (role : Nat) : List Byte := zeros 64 ++ [BitVec.ofNat 8 role, 0, 1, 0] ++ zeros 3373

/-- The bench with keys enrolled and a challenge outstanding on ring 0 and on the mailbox. -/
def asked : State := { bench with sec := { bench.sec with
  operKeys := [⟨1, []⟩], instKeys := [⟨1, []⟩], challenges := [⟨.hif 0, some 0, zeros 64⟩, ⟨.hif 0, none, zeros 64⟩] } }

/-- Host commands of one access, each with a state in which it is carried out. -/
def hostCases : List (Instr × State) :=
  let i := Role.installer
  let o := Role.operator
  [ (.tableWrite r0 (zeros 72), hostS i bench (dw 0 1 [(128, 2), (160, 8191), (256, 72)]))
  , (.tableFlip r0, hostS i bench (dw 0 3 [(128, 0x1202)]))
  , (.groupCreate r0 (zeros 4 ++ [1, 0, 8, 0] ++ zeros 8), hostS o bench (dw 1 1 [(128, 0x80000008), (160, 9), (256, 1)]))
  , (.groupExtend r0 [], hostS o bench (dw 1 2 [(128, gAddr.toNat), (160, 4)]))
  , (.groupFence r0 [2, 0, 0, 0], hostS o bench (dw 1 3 [(128, gAddr.toNat), (160, 4), (256, 1)]))
  , (.groupUnfence r0 [1, 0, 0, 0], hostS o bench (dw 1 4 [(128, gAddr.toNat), (160, 4), (256, 1)]))
  , (.groupDestroy r0, hostS o bench (dw 1 5 [(128, gAddr.toNat)]))
  , (.ctxPolicySlot r0 (zeros 128), hostS o bench (dw 2 1 [(128, gAddr.toNat), (160, 15)]))
  , (.ctxPolicyOpen r0, hostS o bench (dw 2 2 [(128, gAddr.toNat), (192, ck.opseq.toNat), (224, 7), (300, 100)]))
  , (.ctxAbort r0, hostS o bench (dw 2 3 [(128, gAddr.toNat), (192, ck.opseq.toNat)]))
  , (.fmemCreate r0, hostS o bench (dw 3 1 [(128, 6), (192, 4096), (281, 510)]))
  , (.fmemMirror r0 (.serves {}), hostS o bench (dw 3 2 [(128, 5), (142, 9), (155, 17)]))
  , (.fmemDestroy r0, hostS o bench (dw 3 3 [(128, 5)]))
  , (.portMode r0, hostS i bench (dw 4 1 [(128, 511), (138, 1)]))
  , (.portAdmin r0, hostS i bench (dw 4 2 [(128, 2044), (144, 1)]))
  , (.portBypassSet r0 (zeros 8 ++ [0x01, 0x32, 0x54, 0x76] ++ zeros 4), hostS i bench (dw 4 3 [(256, 1)]))
  , (.portHold r0 [0, 0], hostS i bench (dw 4 5 [(256, 1)]))
  , (.portRelease r0 [0, 0], hostS i bench (dw 4 6 [(256, 1)]))
  , (.powerSetCap r0, hostS i bench (dw 5 1 [(128, 3400)]))
  , (.teleStream r0 (zeros 8), hostS o bench (dw 6 3 [(128, 10), (256, 1)]))
  , (.secChallenge r0, hostS .none bench (dw 7 1 [(192, 4096)]))
  , (.secOpen r0 (proof 1) true, hostS .none asked (dw 7 2 [(128, 1), (256, 3441)]))
  , (.secBind r0, hostS o bench (dw 7 3 [(128, 1), (160, 63)]))
  , (.secElevate r0 (proof 2) true, hostS o asked (dw 7 4 [(128, 2), (160, 1), (256, 3441)]))
  , (.secClose r0, hostS o bench (dw 7 5 [(128, 1)]))
  , (.secTakeover r0, hostS i { bench with hifB := { bench.hifB with linkUp := false, rings := [(3, { base := 1, enable := true, state := .enabled })] } } (dw 7 6 [(128, 1), (129, 3), (135, 1), (141, 0)]))
  , (.secRelease r0, hostS o bench (dw 7 7 []))
  , (.fwActivate r0 true, hostS i { bench with sec := { bench.sec with fw := [{ slotB := { filled := true, release := 1, bodyOk := true } }, {}, {}, {}] } } (dw 8 2 [(132, 1)]))
  , (.diagRestartDataplane r0, hostS i bench (dw 9 2 [])) ]

/-- The command answered a next state. -/
def goesB : Ans → Bool
  | .next _ => true
  | _ => false

/-! ### Well-formed commands: each check refuses something -/

def someHdr : Hdr := { dst := 0, src := 0, opc := 0, vl := 3, ext := true, len := 0, tag := 0, hcrc := 0 }

def someUdp : Udp :=
  { v4 := true, srcMac := 0, srcIp := 0, dstIp := 0, dstPort := 0, fragOrOptions := false, csumOk := true, ecnCe := false, sver := 1
    hall := 0, bytes := 100, hdr := someHdr, ext := 0, rest := { payload := [], crc := 0 } }

def someEth : Eth := { dstMac := 0, srcMac := 0, vid := 0, pcp := none, ecn := none, bytes := 64, data := [] }

theorem test_wf_tail : Instr.wf (.frameTailArrival ⟨0, 0⟩ { payload := List.replicate 2048 0, crc := 0 }) = false
    ∧ Instr.wf (.frameTailArrival ⟨0, 0⟩ { payload := List.replicate 2047 0, crc := 0 }) = true := by decide +kernel

theorem test_wf_udp : Instr.wf (.alpOverUdpDatagram 0 { someUdp with bytes := 9217 }) = false
    ∧ Instr.wf (.alpOverUdpDatagram 0 { someUdp with rest := { payload := List.replicate 2048 0, crc := 0 } }) = false
    ∧ Instr.wf (.alpOverUdpDatagram 0 someUdp) = true := by decide +kernel

theorem test_wf_eth : Instr.wf (.ethernetFrameArrival 0 { someEth with bytes := 9217 }) = false
    ∧ Instr.wf (.ethernetFrameArrival 0 { someEth with data := zeros 65 }) = false
    ∧ Instr.wf (.ethernetFrameArrival 0 someEth) = true := by decide +kernel

theorem test_wf_part : Instr.wf (.mgmtPortDatagram 0 0 ⟨0, 0, true, true, zeros 3841⟩) = false
    ∧ Instr.wf (.mgmtPortDatagram 0 0 ⟨0, 0, true, true, zeros 3840⟩) = true := by decide +kernel

theorem test_wf_view :
    (∀ v ∈ ([{ pi := List.replicate 65 (0, 0) }, { descs := List.replicate 65 (0, []) }, { cplCi := List.replicate 65 (0, 0) }
        , { ringFail := List.replicate 65 0 }] : List DbView), Instr.wf (.nudge 0 0 v) = false ∧ Instr.wf (.doorbellPoll 0 v) = false)
    ∧ Instr.wf (.nudge 0 0 { pi := List.replicate 64 (0, 0) }) = true := by decide +kernel

theorem test_wf_write : Instr.wf (.registerWrite 0 0 0x100000000 true) = false ∧ Instr.wf (.registerWrite 0 0 0x100000000 false) = true := by
  decide +kernel

theorem test_wf_unit : Instr.wf (.dmaUnitComplete 0 (zeros 4097)) = false ∧ Instr.wf (.dmaUnitComplete 0 (zeros 4096)) = true := by
  decide +kernel

theorem test_wf_words : Instr.wf (.timeResp 0 [0, 0, 0, 0, 0, 0] 0 0) = false ∧ Instr.wf (.timeResp 0 [0, 0, 0, 0, 0] 0 0) = true := by
  decide +kernel

theorem test_wf_survivor : Instr.wf (.fmemMirror r0 (.serves { nregion := 131073 })) = false ∧ Instr.wf (.fmemMirror r0 (.serves {})) = true := by
  decide +kernel

theorem test_wf_steps : Instr.wf (.joinCopyComplete ⟨0, 0, List.replicate 0xFFFFFF 0⟩) = false ∧ Instr.wf (.joinCopyComplete ⟨0, 0, [0]⟩) = true :=
  ⟨by rw [Instr.wf, List.length_replicate]; decide, by decide +kernel⟩

theorem test_wf_underrun : Instr.wf (.cutUnderrun ⟨0, List.replicate 2048 0⟩) = false ∧ Instr.wf (.cutUnderrun ⟨0, [0]⟩) = true := by decide +kernel

/-! ### Host commands (11) -/

/-- The descriptor `r0` names. -/
def descOf (s : State) : Desc := (s.toBody.desc r0).getD { idx := 0, w := 0 }

/-- What `Starts` asks of descriptor `r0`, as one decision. -/
def startsB (sp : CmdSpec) (s : State) : Bool :=
  let d := descOf s
  s.toBody.desc r0 == some d && d.cls == sp.cls && d.op == sp.op && s.toBody.startable r0
    && d.headerOk ((s.toBody.ifc r0.iface).cq d.cqn).format && !sp.bad0 s.toBody r0 (s.toBody.begun r0 d)
    && d.allowed (s.toBody.roleOf (s.toBody.ringOf r0).session)
    && (!sp.needsEngine (s.toBody.begun r0 d) || s.toBody.engineFree r0) && d.buf.isEmpty && d.done == 0
    && (!sp.control || !s.planes.controlRestart)

theorem starts_of_startsB {sp : CmdSpec} {s : State} (h : startsB sp s = true) : Starts sp s.toBody r0 (descOf s) := by
  simp only [startsB, Bool.and_eq_true, beq_iff_eq, List.isEmpty_iff, Bool.not_eq_true', Bool.or_eq_true] at h
  obtain ⟨⟨⟨⟨⟨⟨⟨⟨⟨⟨h0, h1⟩, h2⟩, h3⟩, h4⟩, h5⟩, h6⟩, h7⟩, h8⟩, h9⟩, h10⟩ := h
  exact ⟨h0, h1, h2, h3, h4, h5, h6, h7, h8, h9, fun k => h10.resolve_left (by simp [k])⟩

/-- What is left of `Ready` and `Refused`: the data are enough and pass, and the checks that remain answer `st`. -/
def restB (sp : CmdSpec) (s : State) (data : List Byte) (st : Nat) : Bool :=
  let b := s.toBody
  let e := b.runDesc sp r0 (descOf s) data
  sp.need (b.startDesc sp r0 (descOf s)) ≤ data.length && !sp.bad1 (b.putDesc r0 (b.startDesc sp r0 (descOf s))) e e.buf
    && (b.atRun sp r0 (descOf s) data).preStatus sp r0 e == st

def readyB (sp : CmdSpec) (s : State) (data : List Byte) : Bool :=
  startsB sp s && restB sp s data 0 && !sp.wait (s.toBody.atRun sp r0 (descOf s) data) (s.toBody.runDesc sp r0 (descOf s) data)

def refusedB (sp : CmdSpec) (s : State) (data : List Byte) (st : Nat) : Bool := startsB sp s && restB sp s data st && st != 0

def streamsB (sp : CmdSpec) (s : State) : Bool :=
  let b := s.toBody.putDesc r0 (s.toBody.startDesc sp r0 (descOf s))
  startsB sp s && b.preStatus sp r0 (s.toBody.startDesc sp r0 (descOf s)) == 0 && !sp.wait b (s.toBody.startDesc sp r0 (descOf s))

theorem ready_of_readyB {sp : CmdSpec} {s : State} {data : List Byte} (h : readyB sp s data = true) :
    Ready sp s.toBody r0 (descOf s) data := by
  simp only [readyB, restB, Bool.and_eq_true, beq_iff_eq, decide_eq_true_eq, Bool.not_eq_true'] at h
  exact ⟨starts_of_startsB h.1.1, h.1.2.1.1, h.1.2.1.2, h.1.2.2, h.2⟩

theorem refused_of_refusedB {sp : CmdSpec} {s : State} {data : List Byte} {st : Nat} (h : refusedB sp s data st = true) :
    Refused sp s.toBody r0 (descOf s) data st := by
  simp only [refusedB, restB, Bool.and_eq_true, beq_iff_eq, decide_eq_true_eq, Bool.not_eq_true', bne_iff_ne] at h
  exact ⟨starts_of_startsB h.1.1, h.1.2.1.1, h.1.2.1.2, h.1.2.2, h.2⟩

theorem streams_of_streamsB {sp : CmdSpec} {s : State} (h : streamsB sp s = true) : Streams sp s.toBody r0 (descOf s) := by
  simp only [streamsB, Bool.and_eq_true, beq_iff_eq, Bool.not_eq_true'] at h
  exact ⟨starts_of_startsB h.1.1, h.1.2, h.2⟩

/-- A command of `hostSpec` is ready in a state with nothing waiting for a table. -/
def readyHere (c : Instr) (s : State) : Bool :=
  s.tables.waiting.isEmpty && match hostSpec c with | some (sp, r, data) => r == r0 && readyB sp s data | none => false

theorem witness_ReadyHostCommandsRun : ∀ x ∈ hostCases, readyHere x.1 x.2 = true := by decide +kernel

def cartS : State := hostS .installer bench (dw 4 4 [(128, 1), (132, 15)])
def moduleS : State := hostS .installer { bench with mss := {} } (dw 4 4 [])

theorem witness_PrepareRemoveRuns : readyB specPrepare cartS [] = true ∧ removeScope (descOf cartS) = 1
    ∧ readyB specPrepare moduleS [] = true ∧ removeScope (descOf moduleS) = 0 := by decide +kernel

/-- Streamed commands, each with its data or units and a state in which it begins. -/
def streamCases : List (Instr × State) :=
  [ (.tableBulkLoad r0 (zeros 4 ++ [1, 0, 0, 0]), hostS .installer bench (dw 0 2 [(128, 18), (256, 1)]))
  , (.tableBulkLoad r0 [0xFF, 0x0F, 0, 0], hostS .installer bench (dw 0 2 [(128, 18), (256, 2)]))
  , (.fmemRestore r0 [1, 2, 3, 4, 5, 6, 7, 8], hostS .operator bench (dw 3 4 [(128, 5), (256, 4088), (320, 8)]))
  , (.fwStage r0 (zeros 16), hostS .installer bench (dw 8 1 [(132, 1), (256, 16)]))
  , (.fmemSave r0 1, hostS .operator bench (dw 3 5 [(128, 5), (320, 4096)]))
  , (.fmemSave r0 1, hostS .operator bench (dw 3 5 [(128, 5), (192, 8), (320, 4096)]))
  , (.teleCounters r0 1, hostS .operator bench (dw 6 1 [(160, 512)]))
  , (.teleHwm r0 1, hostS .operator bench (dw 6 2 [(129, 1), (160, 16383), (256, 1)]))
  , (.diagRead r0 1, hostS .installer bench (dw 9 1 [(128, 1), (256, 256)])) ]

def streamsHere (c : Instr) (s : State) : Bool :=
  match streamSpec c with
  | some (sp, r, data, u) => r == r0 && streamsB sp s && (sp.moves s.toBody r0 (descOf s) data u).tables.waiting.isEmpty
  | none => false

theorem witness_StreamedHostCommandsRun : ∀ x ∈ streamCases, streamsHere x.1 x.2 = true := by decide +kernel

/-- One unit holds all that the command writes. -/
def allIn1 (s : State) (n : Nat) : Bool := 0 < n && unitsEnd ((descOf s).word 3) 0 1 n == n

theorem witness_ReadsWriteHostMemory :
    (let s := hostS .operator bench (dw 3 5 [(128, 5), (320, 4096)])
     streamsB specFmemSave s = true ∧ s.toBody.win (fmWid (descOf s)) = some win0 ∧ allIn1 s (fmLen (descOf s)) = true)
    ∧ (let s := hostS .operator bench (dw 6 1 [(160, 512)])
       streamsB specTeleCounters s = true ∧ allIn1 s (8 * teleCount (descOf s)) = true)
    ∧ (let s := hostS .operator bench (dw 6 2 [(129, 1), (160, 16256), (256, 128)])
       streamsB specTeleHwm s = true ∧ hwmClear (descOf s) = true ∧ allIn1 s (32 * hwmCount (descOf s)) = true)
    ∧ (let s := hostS .operator bench (dw 6 2 [(128, 1), (256, 1)])
       streamsB specTeleHwm s = true ∧ hwmClear (descOf s) = false ∧ allIn1 s (32 * hwmCount (descOf s)) = true)
    ∧ (let s := hostS .installer bench (dw 9 1 [(128, 1), (256, 256)])
       streamsB specDiagRead s = true ∧ allIn1 s (diagBytes (diagObj (descOf s)) * diagCount (descOf s)) = true) := by decide +kernel

theorem witness_RefusedHostCommandsDoNothing :
    (let s := hostS .installer bench (dw 5 1 [(128, 3401)])
     startsB { specSetCap with bad0 := fun _ _ _ => false } s = true
       ∧ specSetCap.bad0 s.toBody r0 (s.toBody.begun r0 (descOf s)) = true)
    ∧ (let s := hostS .operator bench (dw 5 1 [(128, 1800)])
       specSetCap.bad0 s.toBody r0 (s.toBody.begun r0 (descOf s)) = false
         ∧ (descOf s).allowed (s.toBody.roleOf (s.toBody.ringOf r0).session) = false ∧ s.toBody.startable r0 = true)
    ∧ refusedB specGroupDestroy (hostS .operator bench (dw 1 5 [(128, 0x80000008)])) [] 1 = true
    ∧ refusedB (specFence 3 true) (hostS .operator bench (dw 1 3 [(128, gAddr.toNat), (160, 3), (256, 1)])) (zeros 4) 8 = true
    ∧ refusedB (specFmemMirror (.lost 7)) (hostS .operator bench (dw 3 2 [(128, 6), (138, 1), (142, 9), (155, 17)])) [] 10 = true := by
  decide +kernel

theorem witness_TableFlipChangesNamedBanks : readyB specTableFlip (hostS .installer bench (dw 0 3 [(128, 0x1202)])) [] = true := by
  decide +kernel

/-- TABLE WRITE of a table's last entry. -/
def writeS (t idx n : Nat) : State := hostS .installer bench (dw 0 1 [(128, t), (160, idx), (256, n)])

theorem witness_TableWriteStaysInTheShadow : readyB specTableWrite (writeS 2 8191 72) (zeros 72) = true
    ∧ readyB specTableWrite (writeS 0x12 4095 4) (zeros 4) = true ∧ readyB specTableWrite (writeS 0x13 4095 32) (leBytes 32 (nodeDefault 0 1 0).toNat) = true := by
  decide +kernel

theorem witness_GroupUnfenceClearsFences :
    let s := hostS .operator bench (dw 1 4 [(128, gAddr.toNat), (160, 4), (256, 2)])
    readyB (specFence 4 false) s [1, 0, 0, 0, 0, 0, 0, 0] = true ∧ s.toBody.groupIndex (grpAddr (descOf s)) = some 0
      ∧ mget s.coll.groups 0 = some grp ∧ grp.addr = grpAddr (descOf s) := by decide +kernel

def policyS (l : List (Nat × Nat)) : State := hostS .operator bench (dw 2 1 ([(128, gAddr.toNat)] ++ l))

theorem witness_CtxPolicyWritesItsSlot :
    (let s := policyS [(160, 15)]
     readyB specPolicySlot s (zeros 128) = true ∧ s.toBody.groupIndex (grpAddr (descOf s)) = some 0 ∧ grp.addr = grpAddr (descOf s)
       ∧ s.variant.hasFmem = true
       ∧ s.toBody.room 0 0 (polOf (s.toBody.startDesc specPolicySlot r0 (descOf s)) (zeros 128)).bytes false = .fits)
    ∧ (let s := { policyS [] with lantern := { bench.lantern with partno := 4 } }
       readyB specPolicySlot s (zeros 128) = true ∧ s.variant.hasFmem = false)
    ∧ readyB specPolicySlot (policyS [(164, 1)]) [] = true ∧ polClear (descOf (policyS [(164, 1)])) = true := by decide +kernel

theorem witness_SmallHostCommands : readyB specSetCap (hostS .installer bench (dw 5 1 [(128, 1800)])) [] = true
    ∧ readyB specClose (hostS .operator bench (dw 7 5 [(128, 1)])) [] = true
    ∧ readyB specFmemDestroy (hostS .operator bench (dw 3 3 [(128, 5)])) [] = true
    ∧ readyB specChallenge (hostS .none bench (dw 7 1 [(192, 4096)])) [] = true := by decide +kernel

theorem witness_FmemCreateFillsWithZeros :
    let s := hostS .operator bench (dw 3 1 [(128, 6), (192, 4096), (281, 510)])
    readyB specFmemCreate s [] = true ∧ s.toBody.findRun (ceilDiv (fmSize (descOf s)) unitBytes) = some 1 := by decide +kernel

/-- A command of the statement answers a next state from a state with canonical memory. -/
theorem witness_MemoryStaysCanonical : Memory.wf bench.mss.mem = true
    ∧ goesB (exec (.fmemCreate r0) (hostS .operator bench (dw 3 1 [(128, 6), (192, 4096), (281, 510)]))) = true := by decide +kernel

/-! ### Mailboxes, registers, rings (11, 13, 16) -/

/-- The bench with the mailbox of interface A as given. -/
def boxS (s : State) (m : Mailbox) : State := { s with hifA := { s.hifA with mailbox := m } }

/-- The bench with operation `op` running on `req` in the mailbox of interface A, its session 1 an operator's. -/
def mbS (s : State) (op : Nat) (req : List Byte) (role : Role := .installer) : State :=
  { boxS s { state := .running, reqOp := BitVec.ofNat 8 op, req, reqRole := role, reqContact := true, reqSession := 1, session := 1 } with
    sec := { s.sec with sessions := [⟨1, .operator, 1, .operator, some (.hif 0)⟩] } }

/-- What `MbReady` asks, as one decision. -/
def mbB (s : State) (op : Nat) : Bool :=
  let b := s.toBody.mbox (.hif 0)
  s.toBody.serves && b.state == .running && b.reqOp.toNat == op && !s.planes.mgmtRestart && !b.dropAnswer && mbAllowed op b.reqRole b.reqContact

theorem mbReady_of_mbB {s : State} {op : Nat} (h : mbB s op = true) : MbReady s (.hif 0) op := by
  simp only [mbB, Bool.and_eq_true, beq_iff_eq, Bool.not_eq_true'] at h
  obtain ⟨⟨⟨⟨⟨h1, h2⟩, h3⟩, h4⟩, h5⟩, h6⟩ := h
  exact ⟨h1, h2, h3, h4, h5, h6⟩

theorem witness_MailboxDoorbells :
    (let s := boxS bench { first := true, last := true, op := 1, partLen := 0 }
     s.toBody.serves = true ∧ (s.toBody.ifc 0).mailbox.goRefused true = none ∧ fld (1 : W64) 2 0 ||| 1 = 1)
    ∧ (boxS bench { state := .answer, ans := zeros 3841 }).toBody.serves = true ∧ fld (2 : W64) 2 0 ||| 2 = 2
    ∧ fld (4 : W64) 2 0 ||| 4 = 4 ∧ (zeros partMax).length ≤ partMax ∧ (bench.toBody.mbox (.mgmt 7 9)).goRefused true = none := by
  decide +kernel

theorem witness_MailboxPartsGather : ({} : Mailbox).tooLong = false ∧ (zeros partMax).length ≤ 1048576
    ∧ mbOps.contains 0x21 = true ∧ mbOps.contains 0 = false := by decide +kernel

theorem witness_MailboxSessions :
    mbB (mbS bench 1 []) 1 = true
    ∧ (let s := mbS asked 2 (proof 1)
       mbB s 2 = true ∧ (proof 1).length = proofBytes ∧ s.toBody.proofOk (.hif 0) none (proof 1) true = true
         ∧ s.toBody.lockedOut (.hif 0) = false ∧ s.sec.sessions.length < 256)
    ∧ (let s := mbS asked 3 ([1, 0, 0, 0] ++ proof 2)
       mbB s 3 = true ∧ mbOwn (s.toBody.mbox (.hif 0)) = true ∧ s.toBody.proofOk (.hif 0) none (proof 2) true = true
         ∧ s.toBody.lockedOut (.hif 0) = false
         ∧ (s.toBody.session 1).any (fun y => roleRank y.role < roleRank (roleOfCode (proofRole (proof 2)))) = true)
    ∧ (let s := mbS bench 4 [1, 0, 0, 0]
       mbB s 4 = true ∧ mbOwn (s.toBody.mbox (.hif 0)) = true) := by decide +kernel

theorem witness_MailboxReads : mbB (mbS bench 0x10 (zeros 32)) 0x10 = true ∧ mbB (mbS bench 0x11 []) 0x11 = true
    ∧ mbB (mbS bench 0x12 (zeros 8)) 0x12 = true
    ∧ mbB (mbS bench 0x13 (zeros 12)) 0x13 = true ∧ leAt ([0, 0, 0, 0, 0, 0, 0, 0, 0, 0x20, 0, 0] : List Byte) 8 4 ≤ 8192
    ∧ mbB (mbS bench 0x24 []) 0x24 = true ∧ mbB (mbS bench 0x31 [1, 0] .maker) 0x31 = true := by decide +kernel

theorem witness_MailboxWrites :
    (let s := mbS bench 0x20 ([1, 0] ++ zeros keyBytes) .maker
     mbB s 0x20 = true ∧ s.sec.instKeys = [])
    ∧ (∀ k ∈ ([1, 2] : List Byte), let s := mbS asked 0x21 ([k, 0, 2, 0] ++ zeros keyBytes)
       mbB s 0x21 = true ∧ keyHeadBad (s.toBody.mbox (.hif 0)).req = false ∧ keyRoom asked.sec.operKeys 2 = true ∧ keyRoom asked.sec.instKeys 2 = true)
    ∧ (∀ k ∈ ([0, 1] : List Byte), let s := mbS asked 0x21 ([4, 0, k, 0] ++ zeros 48)
       mbB s 0x21 = true ∧ keyHeadBad (s.toBody.mbox (.hif 0)).req = false ∧ keyKind (s.toBody.mbox (.hif 0)).req = 4)
    ∧ (let s := mbS asked 0x22 [1, 0, 1, 0]
       mbB s 0x22 = true ∧ keyHeadBad [1, 0, 1, 0] = false ∧ (s.sec.operKeys.any fun k => k.id == 1) = true)
    ∧ (let s := mbS { asked with sec := { asked.sec with instKeys := [⟨1, []⟩, ⟨2, []⟩] } } 0x22 [2, 0, 1, 0]
       mbB s 0x22 = true ∧ (s.sec.instKeys.any fun k => k.id == 1) = true ∧ s.sec.instKeys.length ≠ 1)
    ∧ (mbB (mbS bench 0x23 (factoryBytes 1)) 0x23 = true ∧ (parseProfile 1 (factoryBytes 1)).isSome = true)
    ∧ (let r := ascii "HLMFWAP1" ++ zeros 48 ++ [1, 0] ++ zeros 3373
       mbB (mbS asked 0x25 r) 0x25 = true ∧ r.length = 58 + 3373 ∧ r.take 8 = ascii "HLMFWAP1"
         ∧ (asked.sec.instKeys.any fun k => k.id.toNat == leAt r 56 2) = true)
    ∧ mbB (mbS bench 0x26 [3]) 0x26 = true
    ∧ (let s := mbS { bench with mram := { bench.mram with quarantine := [19] } } 0x32 [19] .maker
       mbB s 0x32 = true ∧ leAt [19] 0 1 ∈ s.mram.quarantine) := by decide +kernel

theorem witness_FuseWritesRepairEntries :
    (∀ r ∈ [(5 : Byte) :: 1 :: zeros 1023, 5 :: zeros 1023 ++ [1]], mbB (mbS bench 0x30 r .maker) 0x30 = true ∧ r.length = 1025 ∧ fuseTarget r < 6)
    ∧ bench.fuses.length = 6 ∧ repairFits (nth bench.fuses 5 0) (fuseImage (5 :: 1 :: zeros 1023)) = true
    ∧ repairFits (nth bench.fuses 5 0) (fuseImage (5 :: zeros 1023 ++ [1])) = false := by decide +kernel

/-- The bench with interface A changed. -/
def onA (f : Iface → Iface) : State := { bench with hifA := f bench.hifA }

/-- An enabled command ring. -/
def ringOn : CmdRing := { base := 1, enable := true, state := .enabled }

theorem witness_RingsEnable :
    bench.toBody.serves = true ∧ bench.hifA.linkUp = true ∧ bench.hifA.dbBase ≠ 0 ∧ 31 < bench.toBody.nRings
    ∧ within 6 16 (fld (withBit63 0x306 true) 4 0) = true ∧ within 6 16 (fld (withBit63 0x310 true) 4 0) = true
    ∧ (∀ g ∈ [0, 31], (bench.hifA.ring g).enable = false ∧ (bench.hifA.ring g).state = .disabled)
    ∧ (∀ c ∈ [CqSel.cq 31, .evt, .tel], (bench.hifA.sel c).enable = false ∧ (bench.hifA.sel c).state = .disabled)
    ∧ within 10 16 (fld (withBit63 0xA true) 4 0) = true := by decide +kernel

theorem witness_RingsDisable :
    (let f := (onA fun f => { f with rings := [(0, ringOn), (31, { ringOn with log2 := 16, descs := [{ idx := 0, w := 0 }] })] }).hifA
     (f.ring 0).log2 = BitVec.ofNat 5 (fld (withBit63 6 false) 4 0) ∧ (f.ring 31).log2 = BitVec.ofNat 5 (fld (withBit63 16 false) 4 0)
       ∧ ∀ g ∈ [0, 31], (f.ring g).enable = true ∧ (f.ring g).state = .enabled)
    ∧ (let s := onA fun f => { f with cqs := [(3, { enable := true, state := .enabled })] }
       (s.hifA.cq 3).log2 = BitVec.ofNat 5 (fld (withBit63 6 false) 4 0) ∧ (s.hifA.cq 3).format = bit (withBit63 6 false) 8
         ∧ (s.hifA.cq 3).enable = true ∧ s.toBody.namedCq 0 3 = false)
    ∧ (let f := (onA fun f => { f with evt := { f.evt with enable := true }, tel := { f.tel with enable := true, log2 := 16 } }).hifA
       f.evt.log2 = BitVec.ofNat 5 (fld (withBit63 10 false) 4 0) ∧ f.tel.log2 = BitVec.ofNat 5 (fld (withBit63 16 false) 4 0)
         ∧ f.evt.format = false ∧ f.tel.format = false) := by decide +kernel

theorem witness_RegisterWrites : within 250 100000 (fld (250 : W64) 16 0) = true ∧ within 250 100000 (fld (100000 : W64) 16 0) = true
    ∧ within 1 10000 (fld (10000 : W64) 13 0) = true ∧ within 250 100000 (fld (249 : W64) 16 0) = false
    ∧ (onA fun f => { f with errMask := 0x20 }).hifA.errMask.getLsbD 5 = true ∧ bench.hifA.regReject = false
    ∧ fld (0x800 : W64) 10 0 = 0 ∧ (onA fun f => { f with cqs := [] }).hifA.anyEnabled = false ∧ State.reset.toBody.serves = false
    ∧ (0x1001 : BitVec 26).toNat % 8 ≠ 0 ∧ (0xFF8 : BitVec 26).toNat % 8 = 0 ∧ (0xFF8 : BitVec 26).toNat < 0x1000 := by decide +kernel

theorem witness_DoorbellsAreRead :
    let s := onA fun f => { f with rings := [(31, { ringOn with log2 := 16, fetch := 65535, descs := [{ idx := 65534, w := dw 5 1 [] }] })] }
    let x := s.hifA.ring 31
    s.toBody.readsDoorbells 0 = true ∧ x.state = .enabled ∧ x.descs.length < 2 ^ x.log2.toNat ∧ 31 < s.toBody.nRings
      ∧ (x.fetch + 1 - x.oldest).toNat ≤ 2 ^ x.log2.toNat ∧ ({ idx := x.fetch, w := dw 5 1 [] } : Desc).cqn = 0
      ∧ (s.hifA.cq 0).state = .enabled := by decide +kernel

/-- A streamed descriptor in a state, the engine with a descriptor or with none, and rings beside it. -/
def engS (st : DState) (run : Option CmdRef) (f : Desc → Desc := id) (more : Map CmdRing := []) : State :=
  onA fun i => { i with running := run, rings := [(0, { ringOn with fetch := 1, session := 1, descs := [f { idx := 0, w := dw 6 1 [(160, 3)], st }] })] ++ more }

/-- A ring of higher priority with a READY descriptor. -/
def higher : Map CmdRing := [(1, { ringOn with prio := 2, fetch := 1, descs := [{ idx := 0, w := dw 6 1 [(160, 3)], st := .ready }] })]

theorem witness_EngineMoves :
    (let s := engS .running (some r0) id higher
     s.toBody.ringsRun = true ∧ s.hifA.running = some r0 ∧ s.toBody.readyPrio 0 = some 2 ∧ (s.toBody.ringOf r0).prio.toNat < 2)
    ∧ (∀ st ∈ [DState.ready, .preempted], (engS st none).toBody.engineNext 0 = some r0
        ∧ ∀ p, (engS st none).toBody.readyPrio 0 = some p → p ≤ ((engS st none).toBody.ringOf r0).prio.toNat)
    ∧ (let s := engS .running (some r0)
       s.hifA.priEnabled = true ∧ (descOf s).retried = false ∧ s.tables.waiting = [] ∧ (specOf (descOf s)).isSome = true)
    ∧ (let s := engS .parked none fun d => { d with reqSent := true }
       (descOf s).st = .parked ∧ (descOf s).reqSent = true ∧ s.toBody.desc r0 = some (descOf s))
    ∧ (let s := engS .running (some r0)
       let page := s.toBody.nextIova (descOf s) / 4096
       page ∉ [page + 1] ∧ (Iface.cachePage s.hifA page).running = some r0 ∧ page ∈ (Iface.cachePage s.hifA page).tcache) := by
  refine ⟨?_, ?_, ?_, ?_, ?_⟩
  · decide +kernel
  · intro st h
    refine ⟨by revert st; decide +kernel, fun p hp => ?_⟩
    have : ∀ st ∈ [DState.ready, .preempted], ∀ q ∈ ((engS st none).toBody.readyPrio 0).toList, q ≤ ((engS st none).toBody.ringOf r0).prio.toNat := by
      decide +kernel
    exact this st h p (by simp [hp])
  · decide +kernel
  · decide +kernel
  · decide +kernel

theorem witness_InterfaceLinks :
    bench.hifA.linkUp = true ∧ bench.toBody.serves = true ∧ ((onA fun f => { f with rings := [(63, ringOn)] }).hifA.ring 63).state = .enabled
    ∧ bench.power.linksUp = true ∧ (∀ x ∈ (onA fun f => { f with rings := [(0, ringOn)] }).hifA.rings, x.2.descs = [])
    ∧ bench.tables.waiting = [] := by decide +kernel

/-! ### Links (02, 06) -/

/-- The bench with logical ports 0 and 2,044 lit and as given, and port group 8 of gateway kind. -/
def lk (x : LPort) : State :=
  { bench with
    lports := [(0, x), (2044, x)], carts := [(0, { state := .atPower }), (15, { state := .atPower })]
    tables := { bench.tables with portA := { lp := [(0, { enable := true }), (2044, { enable := true })], phys := [(64, { gkind := 1 })] } }
    clock := { ns := 100000, frac := 7, cands := [(0, 3)] } }

/-- What `LinkReady` asks, as one decision. -/
def linkB (s : State) (l : Nat) : Bool := physOf l < s.hw.ports && s.toBody.linksRun && s.fwc.origWait.isEmpty

theorem linkReady_of_linkB {s : State} {l : Nat} (h : linkB s l = true) : LinkReady s l := by
  simp only [linkB, Bool.and_eq_true, decide_eq_true_eq, List.isEmpty_iff] at h
  exact ⟨h.1.1, h.1.2, h.2⟩

/-- Word 0 of a VERSION message. -/
def versionWord (hi lo g : Nat) : W64 := BitVec.ofNat 64 (put 1 56 + put 3 52 + put hi 48 + put lo 44 + put g 32)

theorem witness_LinksNegotiate :
    (∀ l ∈ [0, 2044], linkB (lk { state := .training }) l = true ∧ (lk {}).toBody.isGateway (physOf l) = false)
    ∧ linkB (lk {}) 256 = true ∧ (lk {}).toBody.isGateway (physOf 256) = true
    ∧ ((lk { state := .training }).toBody.lp 2044).lock = false
    ∧ bit (0x12345678 : W32) 31 = false ∧ bench.toBody.own.toNat < (0x12345678 : W32).toNat ∧ (1 : W32).toNat < bench.toBody.own.toNat
    ∧ fld (versionWord 2 1 64) 55 52 = 3
    ∧ (let hi := min (fld (versionWord 2 1 64) 51 48) bench.toBody.hiMinor
       fld (versionWord 2 1 64) 47 44 ≤ hi ∧ bench.toBody.loMinor ≤ hi)
    ∧ min (fld (versionWord 5 3 0) 51 48) bench.toBody.hiMinor < fld (versionWord 5 3 0) 47 44
    ∧ min (fld (versionWord 0 0 0) 51 48) bench.toBody.hiMinor < bench.toBody.loMinor
    ∧ bit bench.toBody.own 31 = false
    ∧ bench.toBody.loMinor ≤ fld (versionWord 2 1 64) 51 48 ∧ fld (versionWord 2 1 64) 51 48 ≤ bench.toBody.hiMinor
    ∧ bit (0x80000001 : W32) 31 = true ∧ (0x80000001 : W32) ≠ 0xFFFFFFFF
    ∧ ((lk { state := .up, chosen := some 2 }).toBody.lp 0).chosen = some 2 := by decide +kernel

/-- A group in a replay buffer. -/
def heldGroup (n : Nat) : TxGroup := { gseq := BitVec.ofNat 12 n, heads := [⟨n, none, false, 0⟩], tails := [n] }

/-- A control word that asks for group 3 again and acknowledges group 2. -/
def askWord : BitVec 144 := controlWord { ackSeq := 2, retry := some 3 } 0

theorem witness_LinksKeepGroups :
    (∀ n ∈ ({ limitOut := [0, 1, 2, 3, 4, 5, 6, 0xFFFFFF] } : LPort).limitOut, n < 2 ^ 24)
    ∧ linkB (lk { state := .up, lock := true }) 0 = true ∧ (lk {}).toBody.isGateway (physOf 0) = false
    ∧ (let x := (lk { state := .up, lock := true, replay := (List.range 50).map heldGroup }).toBody
       x.replayGroups 0 ≤ ((x.grantPort 0).lp 0).replay.length)
    ∧ (let x := (lk { state := .up, lock := true, replay := [heldGroup 3] }).toBody
       ((x.grantPort 0).lp 0).replay.length < x.replayGroups 0)
    ∧ (let f := fillGroup (some 1) 5120 [{ copy := some ⟨1, none, false, 0⟩, bytes := 600 }]
       f.left ≠ 0 ∧ f.tx ≠ []) ∧ (fillGroup none 5120 [{ copy := some ⟨1, none, false, 0⟩, bytes := 6000 }]).left = 0
    ∧ (fillGroup none 5120 []).tx = [] ∧ ({ rxNext := 9 } : LPort).rxNext ≠ 8
    ∧ crc8 (beBytes 17 (fld (askWord + 1) 143 8)) ≠ fld (askWord + 1) 7 0
    ∧ crc8 (beBytes 17 (fld askWord 143 8)) = fld askWord 7 0 ∧ bit askWord 119 = true
    ∧ (let w := controlWord {} 0
       crc8 (beBytes 17 (fld w 143 8)) = fld w 7 0 ∧ bit w 119 = false)
    ∧ (let g := BitVec.ofNat 12 (fld askWord 118 107)
       let ack := BitVec.ofNat 12 (fld askWord 131 120)
       (0 : BitVec 12) ≠ g ∧ (([heldGroup 2, heldGroup 3, heldGroup 4].filter fun r => !decide ((ack - r.gseq).toNat < 2048)).any fun r => r.gseq == g) = true) := by
  decide +kernel

theorem witness_LinksFail :
    linkB (lk { state := .up, lock := true }) 0 = true ∧ ({ state := .up } : LPort).hold = none ∧ ({ state := .up } : LPort).drain = none
    ∧ ({ peerDraining := true, replay := [heldGroup 1] } : LPort).replay ≠ []
    ∧ (lk { state := .failed }).toBody.mayTrain 0 = true ∧ (lk { state := .disabled }).toBody.mayTrain 2044 = true := by decide +kernel

theorem witness_TimeRequestsAreAnswered :
    (let s := lk { state := .up, timeOut := some (7, 89990, 7), peerId := 0x0FF80000 }
     linkB s 0 = true ∧ s.toBody.timed = true ∧ s.clock.parent ≠ some 0)
    ∧ fld (nth [(0x0407000000000000 : W64)] 0 0) 55 48 = (7 : Byte).toNat ∧ fld (nth [(0x0408000000000000 : W64)] 0 0) 55 48 ≠ (7 : Byte).toNat
    ∧ 89990 * 65536 + 7 + 10000 * 65536 < 99990 * 65536 + 8 ∧ 99990 * 65536 + 7 ≤ 89990 * 65536 + 7 + 10000 * 65536 := by decide +kernel

/-! ### Frames (02-05) -/

/-- A port in UP. -/
def up : LPort := { state := .up, lock := true }

/-- The bench with ports 0, 4, 512 and 2,044 of kind ALP and 256 of kind gateway up, cells free. -/
def fw (p0 : LPort := up) : State :=
  { bench with
    fwc := { pools := List.replicate 4 { shared := 100000 }, nextFid := 9 }
    lports := [(0, p0), (4, up), (256, up), (512, up), (2044, up)]
    profiles := { inForce := { gateway := [(8, BitVec.ofNat 512 (put 0x0100000A 224 + put 0x5A47 304))] } }
    tables := { bench.tables with
      portA := { lp := [0, 4, 256, 512, 2044].map fun l => (l, { enable := true }), phys := [(64, { gkind := 1 })] }
      pod := { a := [(1, peSetMember 0 64 true 1 ||| BitVec.ofNat 2624 (put 2 2622 + put 1 2621 + put 8 2615 + put 0x0B000000 2560))] } } }

/-- What `DataReady` asks, as one decision. -/
def dataB (s : State) : Bool := s.toBody.dataRuns && s.fwc.origWait.isEmpty

theorem dataReady_of_dataB {s : State} (h : dataB s = true) : DataReady s := by
  simp only [dataB, Bool.and_eq_true, List.isEmpty_iff] at h
  exact ⟨h.1, h.2⟩

theorem witness_SprayPicks :
    (let live := fun e => (List.range 512).filter fun p => peHas e p && bit (BitVec.allOnes 512) p && (fw).toBody.live p
     live 0 = [] ∧ live (peSetMember (peSetMember 0 0 true 0) 511 true 15) = [0, 511]) ∧ 3 < (fw).fwc.drawIdx.length := by decide +kernel

/-- A header of a PUT of two words to this module's memory. -/
def putHdr : Hdr := ownHdr (ep 1 0) 0x0FF80000 0 3 2 5 true false

theorem witness_HeadersArrive :
    dataB fw = true ∧ physOf 2044 < (fw).hw.ports ∧ (fw).toBody.lportExists 2044 = true ∧ (fw).toBody.isGateway (physOf 2044) = false
    ∧ ((fw).toBody.lp 2044).state = .up
    ∧ putHdr.hcrc = hcrcOf putHdr ∧ ({ putHdr with hcrc := putHdr.hcrc + 1 } : Hdr).hcrc ≠ hcrcOf putHdr ∧ hdrBars putHdr = none
    ∧ (fw { up with rxSeen := [some 3, some 4] }).toBody.lp 0 = { up with rxSeen := some 3 :: [some 4] } ∧ up.rxSeen.head?.join = none
    ∧ [none, some 3].head?.join = none ∧ ({ putHdr with src := 0xFFFFFFFF } : Hdr).src = 0xFFFFFFFF ∧ putHdr.src ≠ 0xFFFFFFFF ∧ up.badGroup = false
    ∧ shapeOk { putHdr with vl := 1 } = false ∧ (match (fw).toBody.destOf putHdr 0 with | .loc w => w == .fmem | _ => false) = true := by
  decide +kernel

/-- A buffered frame, number 3, that came on port 0. -/
def bf (h : Hdr) (x : BitVec 128) (r : Option Rest) (w : Option Local := none) : BufFrame :=
  { fid := 3, origin := .alp 0 h.vl.toNat, die := 0, hdr := h, ext := x, rest := r, cells := frameCells h, copies := 1, here := w }

/-- `fw` with that frame in the buffer. -/
def fr (f : BufFrame) (p0 : LPort := up) : State := { fw p0 with fwc := { (fw p0).fwc with frames := [f] } }

theorem witness_TailsSettleFrames :
    let s := fr (bf putHdr 0 none (some .fmem)) { up with rxFid := some 3 }
    dataB s = true ∧ (s.toBody.lp 0).rxFid = some 3 ∧ (∀ x ∈ s.lports, x.2.launch ≠ some 3)
      ∧ (s.toBody.frame 3).map (·.under) = some 0 ∧ ((0 : BitVec 12) = (s.toBody.lp 0).rxNext ∧ (1 : BitVec 12) ≠ (s.toBody.lp 0).rxNext)
      ∧ Rest.crcGood (fitRest putHdr (mkRest putHdr 0 [1, 2] 0 0 3)) putHdr 0 = true
      ∧ Rest.crcGood (fitRest putHdr (mkRest putHdr 0 [1, 2] 0 0 4)) putHdr 0 = true ∧ 3 < (mkRest putHdr 0 [1, 2] 0 0 4).status.toNat
      ∧ Rest.crcGood (fitRest putHdr { payload := [1, 2], crc := 0, status := 2 }) putHdr 0 = false
      ∧ Rest.crcGood (fitRest putHdr (mkRest putHdr 0 [1] 0 0 0)) putHdr 0 = false := by decide +kernel

/-- A queued copy of frame 3 on port 0. -/
def waitsAt (f : BufFrame) : State :=
  let s := fr f { up with limitIn := List.replicate 8 1000 }
  { s with tms := { s.tms with streams := [⟨0, 3, 0, 0, {}, 0, {}⟩], nextSeq := 5
                               queue := [{ copy := ⟨3, none, true, 1⟩, lport := 0, cls := 3, stream := 0, seq := 4 }] } }

theorem witness_FramesLaunch :
    (∀ r ∈ [none, some (mkRest putHdr 0 [1, 2] 0 0 0)], let s := waitsAt (bf putHdr 0 r)
     dataB s = true ∧ ((s.toBody.countWaits 0).pickFrame 0).map (fun x => x.1.copy.fid) = some 3 ∧ (s.toBody.frame 3).map (·.eth) = some none)
    ∧ (let s := fr (bf putHdr 0 none) { up with launch := some 3, launchCopy := some ⟨3, none, false, 0⟩ }
       (s.toBody.lp 0).launch = some 3 ∧ (s.toBody.lp 0).launchHop = none ∧ (s.toBody.frame 3).map (·.rest) = some none) := by decide +kernel

theorem witness_LimitersAndLoads : (nodeOf (BitVec.ofNat 256 (put 1 254))).mode = 1 ∧ (nodeOf (BitVec.ofNat 256 (put 2 254))).mode = 2
    ∧ dataB fw = true ∧ ((fw).tables.portNode.act.map Prod.fst).Nodup := by decide +kernel

/-- A datagram for port group 8 from the pod behind it. -/
def gram : Udp :=
  { someUdp with srcIp := 0x0B000000, dstIp := 0x0A000001, dstPort := 0x5A47, bytes := frameBytes putHdr, hdr := putHdr
                 rest := mkRest putHdr 0 [1, 2] 0 0 0 }

theorem witness_DatagramsArrive :
    let b := (fw).toBody
    dataB fw = true ∧ b.isGateway (physOf 256) = true ∧ (b.lp 256).state = .up ∧ gram.dstPort.toNat = b.udpPort 8
      ∧ b.udpBars 8 { gram with sver := 2 } = some .udpBadShim ∧ b.udpBars 8 gram = none ∧ hdrBars gram.hdr = none ∧ gram.bytes ≤ b.alpMtu 8
      ∧ (let h := ownHdr (ep 1 0) 0x0FF80000 0 3 256 5 true false
         let c := { fw with profiles := { inForce := { gateway := [(8, BitVec.ofNat 512 (put 0x0100000A 224 + put 0x5A47 304 + put 6 328))] } } }.toBody
         let u := { gram with hdr := h, bytes := frameBytes h }
         c.udpBars 8 u = none ∧ hdrBars h = none ∧ u.hdr.hcrc = hcrcOf u.hdr ∧ c.alpMtu 8 < u.bytes)
      ∧ b.srcMatches 8 { gram with srcIp := 9 } = false ∧ b.srcMatches 8 gram = true ∧ b.poolOk 256 3 (frameCells gram.hdr) = true
      ∧ Rest.crcGood (fitRest gram.hdr gram.rest) gram.hdr 0 = true := by decide +kernel

/-- A native frame, and the Gateway entry of its destination on port 256. -/
def nativeFrame : Eth := { someEth with dstMac := 0x0200000000AA, srcMac := 0x020000000001, vid := 5 }
def nativeEntry : BitVec 512 := setFld (macvEntry 8 5 0x0200000000AA) 175 165 256

/-- `fw` with a Gateway entry in each bank. -/
def gwS (x y : BitVec 512) (f : List BufFrame := []) : State :=
  { fw with
    tables := { (fw).tables with gw := { a := { store := [(0, x)] }, b := { store := [(3, y)] } } }
    fwc := { (fw).fwc with frames := f } }

/-- What `Calm` asks, as one decision. -/
def calmB (s : Body) (l c : Nat) : Bool :=
  s.tms.queue.isEmpty && mgetD s.tms.avg (8 * l + c) 0 == 0
    && (List.range 3).all (fun k => decide (0 < (s.congProfile l c k).minTh) && decide (36 ≤ (s.congProfile l c k).qmax))
    && (nodeOf (s.classNode l c)).mode == 0 && (nodeOf (s.streamProfile 0)).mode == 0 && (s.lp l).hold.isNone

/-- An ENCAP frame of 60 bytes, and what follows its header. -/
def encapHdr : Hdr := ownHdr (ep 1 0) 0x0FF80000 9 0 10 5 false false
def encapRest : Rest := mkRest encapHdr 0 (BitVec.ofNat 64 (put 60 50) :: List.replicate 9 0) 0 0 0

theorem witness_EthernetFramesForward :
    (let s := gwS nativeEntry nativeEntry
     let b1 := s.toBody.learn (dieOf 256) (setFld (macvEntry 8 5 0x020000000001) 175 165 256)
     dataB s = true ∧ (s.toBody.lp 256).state = .up ∧ (0xFFFFFFFFFFFF : BitVec 48).getLsbD 40 = true
       ∧ (b1.gwLookup (macvEntry 8 5 0x0200000000AB)).1 = none
       ∧ ((b1.gwLookup (macvEntry 8 5 0x0200000000AA)).1.map gwLport) = some 256 ∧ calmB s.toBody 256 (s.toBody.ethClass 8 none) = true
       ∧ s.toBody.poolOk 256 (s.toBody.ethClass 8 none) 36 = true)
    ∧ (let s := gwS 0 0 [bf encapHdr 0 (some encapRest) (some (.encap 256))]
       dataB s = true ∧ (s.toBody.frame 3).map (·.rest) = some (some encapRest) ∧ Rest.crcGood encapRest encapHdr 0 = true
         ∧ calmB s.toBody 256 (s.toBody.ethClass 8 none) = true) := by decide +kernel

theorem witness_AgingVisitsBothBanks :
    let found := fun (x y : BitVec 512) =>
      let t := (gwS x y).tables.gw
      ((t.a.find gwB (gwKey nativeEntry) (gwSame nativeEntry)).map (·.2), (t.b.find gwB (gwKey nativeEntry) (gwSame nativeEntry)).map (·.2))
    let static := nativeEntry ||| BitVec.ofNat 512 (put 1 503)
    found (gwSetHit nativeEntry true) nativeEntry = (some (gwSetHit nativeEntry true), some nativeEntry) ∧ gwHit (gwSetHit nativeEntry true) = true
      ∧ gwHit nativeEntry = false ∧ gwStatic nativeEntry = false ∧ gwHit static = false ∧ gwStatic static = true ∧ (gwS static static).toBody.dataRuns = true := by decide +kernel

/-! ### Collectives (08, 07, 03, 10, 12) -/

/-- A reduce extension of the running context. -/
def rx (chunk fmt rank : Nat) : BitVec 128 := redX { group := 7, epoch := 3, opseq := ck.opseq.toNat, chunk, fmt, rop := 0, rank, clast := true }

/-- A header of a reduce frame of `n` words. -/
def redHdr (src : W32) (opc vl n : Nat) : Hdr :=
  sealHdr { dst := gAddr, src, opc := BitVec.ofNat 4 opc, vl := BitVec.ofNat 3 vl, ext := true, len := BitVec.ofNat 11 n, tag := 0, hcrc := 0 }

/-- Sixteen ones, with S and A = 16.0. -/
def ones : List W64 := List.replicate 8 0x3F8000003F800000

/-- A frame of the context with a payload, S, A and a tail status. -/
def ctxFrame (h : Hdr) (x : BitVec 128) (ws : List W64) (s : W64) (status : Nat := 0) : BufFrame :=
  bf h x (some (mkRest h x ws s s status)) (some (.sett ck))

/-- A context record: KIND, CODE, CHUNKLOG, DEPTH and epoch 3 in word 0. -/
def record (opc vl : Nat) (src : W32) (kind chunklog depth : Nat) : BufFrame :=
  let ws := [BitVec.ofNat 64 (put kind 56 + put chunklog 43 + put depth 38 + 3), 0, 0]
  ctxFrame (redHdr src opc vl 3) (rx recordChunk 9 0) ws (sumWords ws)

/-- `fr` with the group's contexts and stages as given. -/
def cs (f : BufFrame) (cs : List Ctx) (us : List Stage := []) (g : Group := grp) : State :=
  { fr f with coll := { bench.coll with groups := [(0, g)], ctxs := cs, stages := us } }

/-- What `ForSett` asks of frame 3, as one decision. -/
def forSettB (s : State) : Bool :=
  match s.toBody.frame 3 with
  | some f => f.here == some (.sett ck) && f.rest.any fun r => Rest.crcGood r f.hdr f.ext
  | none => false

/-- Contributions of ranks 0 and 2, the second LATE. -/
def rput0 : BufFrame := ctxFrame (redHdr (ep 1 0) 5 1 8) (rx 0 1 0) ones 0x4030000000000000
def rput2 : BufFrame := ctxFrame (redHdr (ep 2 0) 5 1 8) (rx 0 1 2) ones 0x4030000000000000 3

theorem witness_ContributionsReachTheirStage :
    (∀ f ∈ [rput0, rput2], let s := cs f [ctx0]
     dataB s = true ∧ forSettB s = true ∧ f.hdr.opc.toNat = 5 ∧ rxChunk f.ext = 0 ∧ s.toBody.group gAddr = some grp ∧ s.toBody.ctx ck = some ctx0
       ∧ s.toBody.settBlocked (s.toBody.settFor ctx0) = false ∧ ctx0.formBars grp f.hdr f.ext = none ∧ s.toBody.rputBars ctx0 grp f.ext = none
       ∧ s.toBody.holdsResult ctx0 0 = false ∧ s.toBody.heldEarly ctx0 0 = none ∧ rxAlias f.ext = false
       ∧ (ctx0.frameIdx grp f.hdr f.ext).any (fun i => (ctx0.wanted grp 0).1.contains i && 32 * f.hdr.tag.toNat < ctx0.inElems i 0) = true)
    ∧ (∀ m ∈ grp.members, m.suspect = false ∧ m.aliasv = false)
    ∧ { cs rput0 [ctx0] with setts := [(0, { log := 131072 })] }.toBody.settBlocked 0 = true
    ∧ ctx0.formBars grp rput0.hdr (rx 0 2 0) ≠ none
    ∧ (cs rput0 [{ ctx0 with st := .admitting }]).toBody.ctx ck = some { ctx0 with st := .admitting }
    ∧ (cs rput0 []).toBody.ctx ck = none ∧ (cs rput0 []).toBody.openFails grp ck (rxEpoch rput0.ext) = some .rputNoPolicy := by decide +kernel

/-- A context rooted at module 9, of two chunks. -/
def below : Ctx := { ctx0 with rootmod := 9, nchunk := 2 }

/-- A stage whose input of rank 2 is LATE and awaits its CONF. -/
def lateStage : Stage :=
  { key := ⟨ck, 0⟩
    inputs := [{ idx := .rank 2, src := ep 2 0, complete := true, last := some 0
                 frames := [{ k := 0, off := 0, hdr := rput2.hdr, ext := rput2.ext, payload := ones, s := 0, a := 0, status := 3 }] }] }

/-- A CONF with verdict `v` from rank 2's sender. -/
def confOf (v : Nat) : BufFrame := ctxFrame (redHdr (ep 2 0) 7 2 1) (rx 0 1 2) [BitVec.ofNat 64 (put v 56)] (BitVec.ofNat 64 (put v 56))

/-- The group with modules 9 and 10 in its replication list. -/
def grpM : Group := { grp with repl := grp.repl ++ [{ kind := 2, target := 9 }, { kind := 2, target := 10 }] }

/-- The infrastructure address of module 9. -/
def spine9 : W32 := infraAddr 0 9 0

theorem witness_ResultsAndRecordsTakeEffect :
    (let s := cs (ctxFrame (redHdr spine9 6 2 8) (rx 0 1 0) ones 0x4030000000000000) [below]
     dataB s = true ∧ forSettB s = true ∧ s.toBody.isRoot below = false ∧ 1 < below.nchunk ∧ s.toBody.noResult below grp 1 = false)
    ∧ (let j := 32 * 64 / max 1 (fullElems below.ar.ofmt below.ar.scaledOut below.ar.pair (polFrameb below.pol))
       0 < j ∧ below.downOf 0 = none
         ∧ forSettB (cs (ctxFrame (sealHdr { redHdr spine9 6 2 8 with tag := 64 }) (rx 0 1 0) ones 0x4030000000000000) [below]) = true)
    ∧ (∀ v ∈ [0, 1], forSettB (cs (confOf v) [ctx0] [lateStage]) = true
        ∧ fld (nth [(BitVec.ofNat 64 (put v 56) : W64)] 0 0) 63 56 = v ∧ (confOf v).hdr.opc.toNat = 7)
    ∧ lateStage.inputs.any (awaits (ep 2 0)) = true ∧ (∀ x ∈ lateStage.inputs, ∀ y ∈ x.frames, y.added = false)
    ∧ recordOk { payload := [5], redS := 6, crc := 0 } = false
    ∧ (let f := record 5 1 spine9 2 12 4
       let s := cs f [{ ctx0 with st := .waitOpen, repl := grpM.repl }] [] grpM
       forSettB s = true ∧ f.rest.any recordOk = true ∧ rxChunk f.ext = recordChunk ∧ s.toBody.isRoot ctx0 = true ∧ 10 ∈ s.toBody.moduleSet ({ ctx0 with repl := grpM.repl }.view grpM)
         ∧ 10 ≠ s.toBody.moduleIndex ∧ adIndex spine9 = 9 ∧ ctx0.chunklog = 12)
    ∧ (let f := record 6 2 spine9 1 0 4
       forSettB (cs f [{ below with st := .waitOpen }]) = true ∧ f.rest.any recordOk = true)
    ∧ forSettB (cs (record 6 2 spine9 3 0 4) [below]) = true := by decide +kernel

/-- A stage with both ranks' contributions, of which nothing has been added yet. -/
def fullStage : Stage :=
  let frame := fun (f : BufFrame) (st n : Nat) =>
    ({ k := 0, off := 0, hdr := f.hdr, ext := f.ext, payload := ones, s := 0x4030000000000000, a := 0x4030000000000000, status := st, order := n } : InFrame)
  { key := ⟨ck, 0⟩, nextOrder := 2
    inputs := [{ idx := .rank 0, src := ep 1 0, complete := true, confirmed := true, last := some 0, frames := [frame rput0 0 0] }
             , { idx := .rank 2, src := ep 2 0, complete := true, last := some 0, frames := [frame rput2 3 1] }] }

/-- That stage at Sett 0 with energy for a pass. -/
def atSett : State := { cs rput0 [{ ctx0 with started := [0] }] [fullStage] with setts := [(0, { energy := 20000000 })] }

theorem witness_DispatchRunsTheFirstUnit :
    (atSett.toBody.sett 0).state ≠ .quarantined ∧ (match (atSett.toBody.markAll 0).choice 0 with
      | some (c, g, u, w) => g == grp && u.key == fullStage.key && w.1 == .pass && c.started.contains u.key.chunk
      | none => false) = true
    ∧ slotsCount ((cs rput0 []).toBody.sett 0) = true ∧ slotsCount ((cs rput0 []).toBody.sett 4) = false ∧ (cs rput0 []).coll.ctxs = [] ∧ (cs rput0 []).toBody.dataRuns = true := by decide +kernel

/-- The stage once its pass has run, and once its result has been made, the CLAST frame not yet handed on. -/
def summed : Stage :=
  { (fullStage.pass ctx0 (fullStage.nextPass ctx0)).1 with nextOrder := 2 }
def made : Stage :=
  { summed with out := [{ k := 0, off := 0, payload := List.replicate 8 0x4000000040000000, s := 0x4040000000000000, a := 0x4040000000000000 }] }

theorem witness_ChecksDecideTheResult :
    (let s := cs rput0 [ctx0] [made]
     let b := s.toBody
     b.stage ⟨ck, 0⟩ = some made ∧ b.settFor ctx0 = 0 ∧ made.clastSent = false ∧ made.verdict = .pending ∧ ctx0.inputsDone grp made = true
       ∧ ctx0.allIn made = true ∧ made.acc ≠ [] ∧ (b.sett 0).state ≠ .duplicate ∧ (b.helper 0).1 = some 4
       ∧ made.out.length = b.outFrames ctx0 0 ∧ ctx0.accOk made = true ∧ b.outsPass ctx0 made = true)
    ∧ ctx0.accOk { summed with acc := summed.acc.map fun _ => some (.num .nan) } = false
    ∧ ({ made with arb := some 4 } : Stage).arb = some 4
    ∧ (let s := { cs rput0 [ctx0] [made] with setts := [(0, { state := .duplicate }), (4, { state := .spare, use := .partner 0 })] }
       (s.toBody.sett 4).use = .partner 0 ∧ (s.toBody.sett (s.toBody.settFor ctx0)).state = .duplicate ∧ ctx0.inputsConfirmed made = false
         ∧ ctx0.inputsConfirmed { made with inputs := made.inputs.map fun x => { x with confirmed := true } } = true) := by decide +kernel

theorem witness_CollectiveTimers :
    (let s := cs (bf putHdr 0 none) [ctx0] [lateStage]
     s.toBody.dataRuns = true ∧ s.toBody.stage ⟨ck, 0⟩ = some lateStage ∧ (ctx0.downOf 0).any (·.last.isSome) = false ∧ ∀ f ∈ s.fwc.frames, s.toBody.heldFor ⟨ck, 0⟩ f = false)
    ∧ (let u : Stage := { key := ⟨ck, 0⟩, clastSent := true, out := [{ k := 0, off := 0, payload := ones, s := 0, a := 0 }] }
       let s := cs rput0 [below] [u]
       s.toBody.stage ⟨ck, 0⟩ = some u ∧ s.toBody.isRoot below = false ∧ below.st = .running)
    ∧ (∀ c ∈ [{ ctx0 with st := .admitting }, { below with st := .admitting, levelc := true }], let s := cs rput0 [c]
       s.coll.ctxs.filter (fun d => d.st == .admitting) = [c] ∧ (s.toBody.fit c).isSome = true
         ∧ (s.toBody.isRoot c = false ∨ c.levelc = false) ∧ c.waiting = [])
    ∧ (cs rput0 [{ ctx0 with st := .waitOpen }]).toBody.isRoot ctx0 = true ∧ ctx0.grant ≠ 0
    ∧ bench.planes.controlRestart = false ∧ bench.coll.createWait = [] := by decide +kernel

/-! ### Fabric memory (09) -/

/-- A header of a memory command of `n` words to this module. -/
def memHdr (src : W32) (opc n : Nat) : Hdr := ownHdr src 0x0FF80000 opc 3 n 7 true true

/-- `fr` with frame 3 a memory command on window 5. -/
def memS (h : Hdr) (x : BitVec 128) (ws : List W64) (w : Window) : State :=
  { fr (bf h x (some (mkRest h x ws 0 0 0)) (some .fmem)) with mss := { bench.mss with windows := [(5, w)] } }

/-- No check of the memory functions refuses frame 3, whole and good. -/
def servedB (s : State) : Bool :=
  dataB s && match s.toBody.frame 3 with
    | some f => f.here == some .fmem && (s.toBody.fmemRefusal f.hdr f.ext).isNone && f.rest.any fun r => Rest.crcGood r f.hdr f.ext && r.status == 0
    | none => false

/-- One copy of an updated window of two regions of one value, its buddy module 9. -/
def copyW (st : WState) : Window :=
  { win0 with update := true, rule := 1, rp := 1, nregion := 2, size := 8, state := st, buddy := 9, witness := 17 }

theorem witness_MemoryRequestsTakeEffect :
    (memS (memHdr (ep 1 0) 0 2) (memX 0 6 0) [1, 2] win0).toBody.fmemRefusal (memHdr (ep 1 0) 0 2) (memX 0 6 0) = some (nkNoWindow, 6)
    ∧ servedB (memS (memHdr (ep 1 0) 0 2) (memX 4080 5 0) [1, 2] win0) = true ∧ win0.areaOf 4080 = .state
    ∧ servedB (memS (memHdr (ep 1 0) 1 0) (memX 3072 5 1024) [] win0) = true
    ∧ servedB (memS (memHdr (ep 1 0) 3 1) (memX 4088 5 (put 1 58)) [5] win0) = true
    ∧ servedB (memS (memHdr (ep 1 0) 3 1) (memX 4092 5 (put 1 60 + put 1 56)) [5] win0) = true
    ∧ bench.toBody.dupFind (ep 1 0) 7 5 8 = none
    ∧ ({ bench with mss := { bench.mss with dup := [{ src := ep 1 0, tag := 7, wid := 5, off := 8, atomic := false }] } }).toBody.dupFind (ep 1 0) 7 5 8 ≠ none
    ∧ servedB (memS (memHdr spine9 0 1) (memX gradArea 5 0) [0] (copyW .secondary)) = true ∧ (copyW .secondary).areaOf gradArea = .gradient
    ∧ (∀ s ∈ [memS (memHdr (ep 1 0) 0 2) (memX 4080 5 0) [1, 2] win0], ∀ f ∈ s.fwc.frames,
        s.toBody.earlierOp f = false ∧ { s with fwc := { s.fwc with frames := { f with fid := 2 } :: s.fwc.frames } }.toBody.earlierOp f = true)
    ∧ (let w := { copyW .shadow with joining := some { peer := 9, matches_ := 7, seen := [1], full := some 4, step := 5 } }
       servedB (memS (memHdr spine9 0 6) (memX digestArea 5 0) (List.replicate 6 0) w) = true ∧ w.areaOf digestArea = .digest
         ∧ (Join.match_ { peer := 9, matches_ := 7, seen := [1], full := some 4, step := 5 } 0 5 w.nregion bench.toBody.joinK).2 = true) := by decide +kernel

/-- The digest of a region of zeros, as a PUT carries it. -/
theorem witness_DigestMatches :
    digestBytes (sha384 (bench.toBody.winRead (copyW .shadow) 0 (copyW .shadow).regionBytes)) = digestBytes (sha384 (zeros 4)) := by decide +kernel

/-- A message from module 9 under the plane key of 48 zero bytes, accepted when `good`. -/
def mgmtS (w0 : Nat) (w : Window) (good : Bool := true) : State :=
  let h := ownHdr spine9 (infraAddr 0 0 1) 10 7 4 0 false false
  let a := BitVec.ofNat 64 w0
  let ws := a :: 0 :: (if good then wordsOf (mgmtMac (zeros 48) h a 0) else [0, 0])
  { fr (bf h 0 (some (mkRest h 0 ws 0 0 0)) (some .mgmt)) with
    mss := { bench.mss with windows := [(5, w)] }, sec := { bench.sec with plane0 := some (zeros 48) } }

def mgmtB (s : State) : Bool := match s.toBody.frame 3 with
  | some f => f.rest.any fun r => (s.toBody.mgmtOk f r).1
  | none => false

theorem witness_CopiesAndWitness :
    dataB (mgmtS 0 win0) = true ∧ bench.power.state = .operational
    ∧ mgmtB (mgmtS (put 0x42 56 + put 5 40) { copyW .secondary with soloAsked := true }) = true
    ∧ mgmtB (mgmtS (put 0x44 56 + put 5 40) win0 false) = false
    ∧ (copyW .primary).beats = true ∧ (copyW .primary).damaged = false ∧ (copyW .primary).soloAsked = false
    ∧ ({ copyW .syncing with joining := some { peer := 9 } } : Window).state = .syncing
    ∧ (let w := { copyW .primary with joining := some { peer := 9 } }
       w.serves = true ∧ w.nregion ≠ 0 ∧ ({ peer := 9 } : Join).shadow = false ∧ ({ peer := 9 } : Join).dirty = [])
    ∧ (let f := bf (ownHdr spine9 (infraAddr 0 0 0) 8 4 0 4 false false) 0 none
       usable f (mkRest f.hdr 0 [] 0 0 0) = true ∧ usable f (mkRest f.hdr 0 [] 0 0 1) = false)
    ∧ (({ bench with mss := { bench.mss with sent := [(4, .mirror 5 8 8 (ep 1 0) 7 1 0)] } }).mss.sent.find? fun x => x.1 == (4 : W16))
        = some (4, .mirror 5 8 8 (ep 1 0) 7 1 0)
    ∧ (bench.mss.sent.any fun x => x.1 == (4 : W16)) = false := by decide +kernel

/-! ### Drains, cells, optics, express circuits (02, 06, 10) -/

theorem witness_DrainsEnd :
    (let s := lk { state := .draining, drain := some .admin, lock := true }
     linkB s 0 = true ∧ (s.toBody.lp 0).drain = some .admin ∧ mget s.portage.trans 0 = none ∧ s.portage.portCmds = []
       ∧ (s.toBody.cart 0).spare = [] ∧ s.toBody.isGateway 0 = false ∧ (s.toBody.lp 0).launch = none
       ∧ (s.toBody.lp 0).tx = [] ∧ (s.toBody.lp 0).replay = [])
    ∧ ((lk { state := .draining, drain := some .hold, hold := some { allot := 5, used := 3 } }).toBody.lp 2044).hold ≠ none := by
  decide +kernel

/-- A first cell to close, and one to open after it. -/
def cellA : CellWrite := { tx := true, row := 7, col := 7, on := true }
def cellB : CellWrite := { tx := false, row := 0, col := 0, on := false }

/-- Port group 63 in a transition with those cells to write. -/
def trS (todo : List CellWrite) : State :=
  { bench with portage := { trans := [(63, { target := 0x76543201, before := 0, draining := [], todo, src := .clp, changing := [] })] } }

theorem witness_PortageWritesCells :
    63 < bench.hw.groups ∧ (64 + 8 * 7 + 7 < 128)
    ∧ ((mget (trS [cellA, cellB]).portage.trans 63).any fun t => t.draining.isEmpty && t.todo == [cellA, cellB] && t.tries < 2) = true
    ∧ ((mget (trS [cellB]).portage.trans 63).any fun t => t.draining.isEmpty && t.todo == [cellB] && !t.back) = true := by decide +kernel

theorem witness_OpticsChange :
    15 < bench.hw.cartridges ∧ 63 < bench.hw.groups ∧ bench.toBody.linksRun = true ∧ bench.portage.portCmds = []
    ∧ (∀ x ∈ [{ state := .atPower, spare := [(3, 1)] }, ({ state := .atPower } : Cart)], mgetD x.lasers 15 .ok = .ok) ∧ bench.portage.trans = []
    ∧ (let x : Cart := { state := .atPower, lasers := [(15, .degraded)], spare := [(3, 3)] }
       mgetD x.lasers 15 .ok = .degraded ∧ mget x.spare 3 = some 3)
    ∧ (({ bench with carts := [(15, { state := .inserted })] }).toBody.cart 15).state = .inserted
    ∧ (({ bench with carts := [(15, { state := .absent })] }).toBody.cart 15).state = .absent
    ∧ bench.portage.deferred.find? (fun x => x.1 == 63) = none := by decide +kernel

/-- The bench with two candidates for peer 20, through modules 9 and 17, and port group 3 owned. -/
def exS (s : State) : State :=
  { s with profiles := { s.profiles with inForce := { s.profiles.inForce with
    expressPlan := [BitVec.ofNat 64 (put 1 63 + put 20 53 + put 9 34 + put 3 28 + put 1 25 + put 2 22), BitVec.ofNat 64 (put 1 63 + put 20 53 + put 17 34 + put 4 28 + put 1 25 + put 2 22)]
    portageOwner := 0x8 } } }

/-- Word 0 of a message about port group `g`, ports 1 and 2, for the peer 20. -/
def exWord (t g : Nat) : Nat := put t 56 + put 20 36 + put g 30 + put 1 27 + put 2 24

theorem witness_ExpressCircuits :
    (let s := exS { bench with budget := { bench.budget with levelC := [(20, 100000000)], above := [(20, 99)] } }
     s.planes.controlRestart = false ∧ s.toBody.serves = true ∧ (0 : Nat) ≤ s.toBody.moduleIndex ∧ s.toBody.moduleIndex < 20
       ∧ mgetD s.budget.tried 20 0 = 0 ∧ mgetD s.budget.expWait 20 0 - 1 = 0 ∧ (s.toBody.expressCands 20).length = 2
       ∧ s.profiles.inForce.expressRate * 1000000 < 100000000 * 8 ∧ s.profiles.inForce.expressHold ≤ 99 + 1) := by decide +kernel

theorem witness_ExpressAnswers :
    (let s := exS (mgmtS (exWord 0x51 3) win0)
     dataB s = true ∧ mgmtB s = true ∧ ((s.toBody.expressCands 20)[0]?.map fun c => fld c 43 34) = some 9 ∧ adIndex spine9 = 9
       ∧ fld (BitVec.ofNat 64 (exWord 0x51 3)) 55 46 = s.toBody.moduleIndex)
    ∧ (exS bench).profiles.inForce.portageOwner.getLsbD 3 = true ∧ (exS bench).profiles.inForce.portageOwner.getLsbD 5 = false
    ∧ (let map := (exS bench).toBody.bypass 3 |>.partner
       let target := setFld (setFld map 6 4 2) 10 8 1
       partnerOf map 1 = 1 ∧ partnerOf map 2 = 2 ∧ mapValid target = true ∧ 3 < (exS bench).toBody.variant.groups
         ∧ (exS bench).toBody.ocbRefused true { g := 3, gen := ((exS bench).toBody.bypass 3).gen, target } = false) := by decide +kernel

/-! ### Live test, faults, budget, heat (10, 12, 14) -/

/-- The bench with these Sett records. -/
def settS (m : Map Sett) : State := { bench with setts := m }

/-- The bench with this state of live test and faults. -/
def inS (f : Integ → Integ) : State := { bench with integ := f bench.integ }

theorem witness_LiveTestsRun :
    bench.serves = true ∧ bench.toBody.dataRuns = true
    ∧ (∀ die ∈ [0, 3], bench.toBody.testing die = false ∧ (bench.toBody.rotationSpare die (bench.toBody.nextSubject die)).isSome = true ∧ (bench.toBody.nextSubject die).isSome = true)
    ∧ (settS ([4, 9, 14, 19].map fun n => (n, { state := .spare, use := .arbiter }))).toBody.rotationSpare 0 (some 0) = none
    ∧ (settS [(4, { state := .quarantined })]).toBody.rotationSpare 0 (some 0) = some (9, true)
    ∧ ((settS [(4, { state := .spare, degraded := [1, 2, 3] })]).toBody.sett 4).degraded.length = 3
    ∧ (settS [(4, { state := .spare, degraded := [1, 2, 3] })]).toBody.rotationSpare 0 (some 0) = some (4, false)
    ∧ (let s := { settS [(19, { test := .waiting })] with coll := {} }
       (s.toBody.sett 19).test = .waiting ∧ s.coll.ctxs = [])
    ∧ ((settS [(19, { test := .running })]).toBody.sett 19).test = .running := by decide +kernel

theorem witness_DenAndStacksTest :
    bench.integ.denA = .active ∧ bench.integ.denB = .standby
    ∧ (inS fun i => { i with denA := .standby, denB := .active }).integ.denB = .active
    ∧ (inS fun i => { i with denB := .testing }).integ.denB = .testing
    ∧ (inS fun i => { i with denA := .testing, denB := .active }).integ.denA = .testing
    ∧ bench.hw.fittedHbm.getLsbD 19 = true ∧ bench.profiles.inForce.headroom ≠ 0 ∧ bench.integ.headroomUsed = false
    ∧ bench.toBody.stackSt 19 = .service
    ∧ (∀ x ∈ [StackState.draining, .testing, .copyBack], (inS fun i => { i with stackSt := [(19, x)] }).toBody.stackSt 19 = x) := by decide +kernel

theorem witness_FaultsAreContained :
    bench.serves = true ∧ bench.integ.blockDown = [] ∧ (mgetD bench.integ.blockLanes 767 []).length < 4
    ∧ 4 ≤ (mgetD (inS fun i => { i with blockLanes := [(767, [0, 1, 2, 3])] }).integ.blockLanes 767 []).length
    ∧ dataB bench = true ∧ 511 < bench.hw.ports ∧ mget bench.integ.probeFails 2047 = none
    ∧ (let s := { inS fun i => { i with probeFails := [(2047, 5)], xbarBad := [384, 385, 386, 387, 388, 389, 390] } with clock := { ns := 10000005 } }
       mget s.integ.probeFails 2047 = some 5 ∧ s.clock.ns.toNat ≤ 5 + 10000000
         ∧ ((s.integ.xbarBad ++ [511]).filter fun p => dieOfPort p == dieOfPort 511).length ≥ 8)
    ∧ (bench.toBody.group gAddr).isSome = true ∧ (grp.members[2]?.any fun m => !m.fenced && !m.suspect && !preRank grp m && !bench.toBody.podLive m.ep) = true
    ∧ (let s := { bench with coll := { bench.coll with stages := [{ key := ⟨ck, 0⟩, inputs := [{ idx := .rank 0, complete := true }] }] } }
       s.toBody.inputMissing gAddr grp 2 = true)
    ∧ 7 < bench.hw.engines ∧ (bench.coll.groups.map fun x => x.1).Nodup ∧ (∀ c ∈ bench.coll.ctxs, (bench.toBody.group c.key.g).isSome = true)
    ∧ bench.planes.dataRestart = false ∧ bench.planes.ctlQueue = [] ∧ bench.tables.clpOwed = [] ∧ (∀ x ∈ bench.lports, x.2.express = none) ∧ (∀ c ∈ bench.coll.ctxs, c.st ≠ .admitting) := by decide +kernel

/-- The bench with every Sett at 900 MHz, granted 1,200 MHz. -/
def budS : State := settS ((List.range 20).map fun k => (k, { sclk := 900, next := some ⟨1200, 50000⟩ }))

theorem witness_BudgetAndHeat :
    budS.serves = true ∧ (budS.toBody.sett 19).next = some ⟨1200, 50000⟩ ∧ budS.toBody.settLaunching 19 = false ∧ ([(3, (⟨40, 88⟩ : Grant))].map fun x => x.1).Nodup ∧ budS.planes.controlRestart = false ∧ budS.planes.mgmtRestart = false
    ∧ 19 ∈ budS.toBody.units ∧ 39 ∈ budS.toBody.units ∧ budS.hw.fittedHbm.getLsbD 19 = true
    ∧ (∀ i ∈ budS.toBody.units, budS.toBody.unitPower i (unitFloor i) ≤ budS.toBody.unitPower i (budS.toBody.unitNow i))
    ∧ 7 < budS.hw.engines ∧ 7 ∉ budS.budget.emergency
    ∧ 7 ∈ ({ budS with budget := { budS.budget with emergency := [7] } }).budget.emergency := by decide +kernel

/-! ### Power, bring-up, clocks, keys (13, 14, 15) -/

/-- The bench with this power state. -/
def pwS (p : Power) : State := { bench with power := p }

theorem witness_PowerEvents :
    (pwS { state := .precharge, inputMv := 43000 }).power.state = .precharge
    ∧ (∀ x ∈ [PowerState.operational, .removing], x.saves = true ∧ (pwS { phase := 5, state := x }).power.resets = true)
    ∧ (let p : Power := { state := .unpowered, fetWait := .overvoltage }
       p.present = true ∧ p.fetLatched = false ∧ p.fetWait ≠ .none)
    ∧ ({ state := .unpowered } : Power).fetWait = .none ∧ ({ phase := 5, state := .operational } : Power).lowLine ≠ true
    ∧ (pwS { phase := 5, state := .saving }).power.state = .saving ∧ (pwS { phase := 5, state := .ready }).power.state = .ready
    ∧ (pwS { phase := 5, state := .inReset }).power.state = .inReset ∧ bench.toBody.sensed = true
    ∧ { pwS { phase := 5, state := .removing, removeCmd := some r0 } with coll := {} }.toBody.drainable = true
    ∧ ({ pwS { phase := 5, state := .removing, draining := true, removeCmd := some r0 } with coll := {}, mss := {} }).toBody.removable = true := by
  decide +kernel

/-- A module of fixed configuration in phase `n` of bring-up. -/
def upS (n : Nat) : State :=
  { bench with toBody := { power := { phase := n }, lantern := { partno := 1, fittedHbm := 0xFFFFF, fittedOe := 0xFF } }, fuses := resetFuses }

theorem witness_BringupPhases :
    (∀ n ∈ [0, 1, 2, 3, 4], (upS n).power.state = .bringup ∧ (upS n).power.phase = n)
    ∧ (let step := fuStep (nth resetFuses 4 0)
       (∀ k, k < 4 → bootSlot ((upS 1).toBody.image k) (slotBad {} k) step ≠ none)
         ∧ bootSlot ((upS 1).toBody.image 0) (slotBad { sigBad := [(0, 0), (0, 1)] } 0) step = none)
    ∧ stackIds [7, 19] (setBits 20 (upS 3).lantern.fittedHbm) = [7, 19] ∧ stackIds [] (setBits 20 (upS 3).lantern.fittedHbm) = []
    ∧ (upS 3).profiles.inForce.partsOk (upS 3).toBody.variant = true ∧ (upS 3).profiles.inForce.headroom = 72
    ∧ { (upS 3).profiles.inForce with contextStore := 60000 }.partsOk (upS 3).toBody.variant = false := by decide +kernel

theorem witness_BringupFuses :
    fuseCause resetFuses [] = none ∧ (fuseCause [0, 0, 0, 0, 0, 0] []).isSome = true := by decide +kernel

/-- An audit record not signed yet. -/
def rec0 : AuditRec := { body := 7, chain := 8 }

theorem witness_ClocksAndKeys :
    (lk {}).toBody.timed = true ∧ (lk {}).clock.best.isSome = true ∧ (lk {}).clock.held = false
    ∧ ({ (lk {}).clock with parent := some 0, dist := 9 } : Clock).held = true
    ∧ (let c : Clock := { parent := some 3 }
       c.best = none ∧ ({ bench with clock := c } : State).toBody.timed = true)
    ∧ (5 : Byte).toNat ≤ 255 ∧ linkB (lk up) 256 = true ∧ (lk up).toBody.isGateway (physOf 256) = true
    ∧ ((hostS .maker bench 0).toBody.session 1).isSome = true ∧ bench.power.state.runs = true
    ∧ ({ since := 3, unsigned := [rec0] } : Audit).since ≠ 0 ∧ bench.toBody.ringsRun = true
    ∧ (let s := { bench with hifA := { bench.hifA with stream := some { period := 10, list := [1, 2] }, tel := { enable := true, state := .enabled, base := 3 } } }
       (s.toBody.ifc 0).stream.isSome = true ∧ (s.toBody.ifc 0).tel.hasRoom = true ∧ (s.toBody.ifc 0).linkUp = true)
    ∧ bench.toBody.atLast { image := 1, slot := true, step := 1, cmd := r0 } = some true ∧ bench.toBody.atLast { image := 1, slot := true, cmd := r0 } = some false
    ∧ 2 < bench.sec.fw.length := by decide +kernel

theorem witness_IdleCountsHallTime : bench.toBody.dataRuns = true ∧ bench.power.state ≠ .unpowered ∧ bench.power.state ≠ .precharge
    ∧ bench.pending = [] ∧ bench.clock.ns.toNat + 2 < 2 ^ 64 := by decide +kernel

theorem witness_FusesOnlyGrow :
    fusesGrow bench.fuses bench.fuses ∧ sameButRepair bench.fuses bench.fuses
    ∧ (match Machine.step bench with | .next _ => true | _ => false) = true :=
  ⟨by simp [bench, fusesGrow], by simp [bench, sameButRepair], by decide +kernel⟩

theorem witness_EveryCommandGoesOn : bench.hw = .m20 := by decide +kernel

theorem witness_RolesRankForTakeoverAlone :
    roleRank .operator < roleRank ((hostS .installer bench 0).toBody.roleOf ((hostS .installer bench 0).toBody.ringOf r0).session) := by decide +kernel

/-! ### Known answers -/

/-- CRC-32C of the nine digits, the check value of that polynomial (04 "HCRC"). -/
theorem test_crc32c_of_nine_digits : crc32c (ascii "123456789") = 0xE3069283 := by decide +kernel

/-- SHA-384 of "abc" (FIPS 180-4's own example). -/
theorem test_sha384_of_abc :
    sha384 (ascii "abc") = 0xcb00753f45a35e8bb5a03d699ac65007272c32ab0eded1631a8b605a43ff5bed8086072ba1e7cc2358baeca134c825a7 := by decide +kernel

end Sys2Proof.Tests
end

section
/-! SUPPORT. The block as a whole (00 "Scope"): what the outcome of any command can be, and what the machine holds at reset. -/
namespace Sys2Proof.Machine

/-! ### The outcome of any command -/

/-- A GRN-SH512-M20 has every part that some variant has (00 Table 0-2; 17 R417). -/
theorem not_lacks_of_m20 {s : State} {f : Fault} (h : s.hw = .m20) (hn : f.numbered) : ¬ s.lacks f := by
  cases f with
  | absentPort l => rw [State.lacks, h, Nat.not_le]; exact Nat.div_lt_of_lt_mul hn
  | absentCartridge k => rw [State.lacks, h, Nat.not_le]; exact hn
  | absentEngine e => rw [State.lacks, h, Nat.not_le]; exact hn
  | absentStack n =>
    have fitted : ∀ i < 20, Variant.m20.fittedHbm.getLsbD i = true := by decide
    simp [State.lacks, h, fitted n hn]
  | absentGroup g => rw [State.lacks, h, Nat.not_le]; exact hn

/-- Any command, FUSE with it, goes on with the queue as it was, or stops on hardware that is absent. -/
theorem exec_next_or_lacks (c : Instr) (s : State) :
    (∃ t, exec c s = .next t ∧ t.pending = s.pending) ∨ ∃ f, exec c s = .fault f ∧ s.lacks f ∧ f.numbered := by
  by_cases hc : ∃ m, c = .fuse m
  · obtain ⟨m, rfl⟩ := hc
    obtain ⟨b, hb⟩ := fuse_shape m s
    exact .inl ⟨_, hb, rfl⟩
  · rcases exec_shape c s fun m e => hc ⟨m, e⟩ with ⟨b, hb⟩ | hf
    · exact .inl ⟨_, hb, rfl⟩
    · exact .inr hf

/-- Settles O3: a command goes on or stops on an absent part, and a GRN-SH512-M20 has them all. -/
theorem everyCommandGoesOn : Obligations.EveryCommandGoesOn := by
  intro c s
  rcases exec_next_or_lacks c s with ⟨t, ht, hq⟩ | ⟨f, hf, hl, hn⟩
  · refine ⟨fun r => ?_, fun f => ?_, fun _ => ⟨t, ht⟩, fun u hu => ?_⟩
    · simp [ht]
    · simp [ht]
    · obtain rfl : t = u := by simpa [ht] using hu
      exact hq
  · refine ⟨fun r => ?_, fun g hg => ?_, fun h => absurd hl (not_lacks_of_m20 h hn), fun u => ?_⟩
    · simp [hf]
    · obtain rfl : f = g := by simpa [hf] using hg
      exact hl
    · simp [hf]

/-! ### Reset -/

theorem fusesGrow_refl : ∀ fs : List (BitVec 8192), fusesGrow fs fs
  | [] => trivial
  | _ :: fs => ⟨BitVec.and_self, fusesGrow_refl fs⟩

theorem sameButRepair_refl : ∀ fs : List (BitVec 8192), sameButRepair fs fs
  | [] => trivial
  | _ :: fs => ⟨rfl, sameButRepair_refl fs⟩

/-- The IOD fuses at reset name the GRN-SH512-M20 (entry 1). -/
theorem reset_hw : State.reset.hw = .m20 := by decide +kernel

/-- At reset every fuse block carries SEALED, its FORMAT and its CRC (15 R386). -/
theorem resetFuses_sealed : resetFuses.all fuSealed = true := by decide +kernel

theorem bit_of_fuSealed {b : BitVec 8192} (h : fuSealed b = true) : bit b 8159 = true := by
  simp only [fuSealed, Bool.and_eq_true] at h
  exact h.1.2

/-- At reset both host interfaces hold the reset values of 16 Tables 16-3 to 16-7. -/
theorem reset_ifc (i : Fin 2) : State.reset.toBody.ifc i = {} := ite_self _

/-- A map with no entry answers the default. -/
@[simp] theorem mgetD_nil {α : Type} (k : Nat) (d : α) : mgetD [] k d = d := rfl

/-- Settles O5: the fuse invariant is reflexive, the fuses are those of a sealed GRN-SH512-M20, and each field holds its reset value. -/
theorem resetState : Obligations.ResetState := by
  have hsealed : ∀ b ∈ resetFuses, bit b 8159 = true := fun b hb => bit_of_fuSealed (List.all_eq_true.mp resetFuses_sealed b hb)
  refine ⟨fusesGrow_refl _, sameButRepair_refl _, rfl, reset_hw, hsealed, rfl, rfl, ?lantern, ?interfaces, ?rest⟩
  case lantern => simp [State.reset]
  case interfaces => simp [reset_ifc, Iface.ring, Iface.cq]
  case rest => simp [State.reset]

end Sys2Proof.Machine
end

section
/-! SUPPORT. The power budget (01 R23, R24; 10 R262, R270-R273, R279; 14 R370, R371): what a period boundary, a round of grants, a lapse,
a measurement, an engine's emergency and a saturation evaluation each leave in the Setts and in the budget. -/
namespace Sys2Proof.Machine

/-! ### Folds and maps -/

/-- A fold that meets no element of key `k` keeps what only such an element's operation changes. -/
theorem foldl_of_key_not_mem {α β γ κ : Type} (v : β → γ) (f : β → α → β) (key : α → κ) (k : κ) {l : List α}
    (other : ∀ c x, key x ≠ k → v (f c x) = v c) (miss : k ∉ l.map key) (b : β) : v (l.foldl f b) = v b := by
  induction l generalizing b with
  | nil => rfl
  | cons x t ih =>
    obtain ⟨hx, ht⟩ : k ≠ key x ∧ k ∉ t.map key := by simpa using miss
    rw [List.foldl_cons, ih ht, other b x hx.symm]

/-- A fold that meets the key of `a` once: what `v` sees of it is the operation of `a` alone, done in some `c` that looks to `v` like
the start and has every property `P` that the operations keep. -/
theorem foldl_of_key_once {α β γ κ : Type} (v : β → γ) (P : β → Prop) (f : β → α → β) (key : α → κ) (a : α)
    {l : List α} {b : β} (keeps : ∀ c x, P c → P (f c x)) (other : ∀ c x, key x ≠ key a → v (f c x) = v c) (once : (l.map key).Nodup)
    (mem : a ∈ l) (hb : P b) : ∃ c, P c ∧ v c = v b ∧ v (l.foldl f b) = v (f c a) := by
  induction l generalizing b with
  | nil => cases mem
  | cons x t ih =>
    obtain ⟨hx, ht⟩ := List.nodup_cons.mp once
    rcases List.mem_cons.mp mem with rfl | mem
    · exact ⟨b, hb, rfl, foldl_of_key_not_mem v f key (key a) other hx _⟩
    · have ne : key x ≠ key a := fun e => hx (e ▸ List.mem_map_of_mem mem)
      obtain ⟨c, hc, hv, hf⟩ := ih ht mem (keeps b x hb)
      exact ⟨c, hc, hv.trans (other b x ne), hf⟩

theorem mem_of_mget {α : Type} {m : Map α} {k : Nat} {v : α} (h : mget m k = some v) : (k, v) ∈ m := by
  induction m with
  | nil => cases h
  | cons x t ih =>
    obtain ⟨i, w⟩ := x
    rw [mget_cons] at h
    split at h
    · subst_vars; cases h; exact List.mem_cons_self
    · exact List.mem_cons_of_mem _ (ih h)

theorem mdel_sublist {α : Type} (m : Map α) (k : Nat) : (mdel m k).Sublist m := by
  induction m with
  | nil => exact List.Sublist.refl _
  | cons x t ih =>
    obtain ⟨i, w⟩ := x
    unfold mdel; split
    · exact List.sublist_cons_self _ _
    · exact ih.cons_cons _

/-- Where no key stands twice, a deleted key is gone. -/
theorem mget_mdel_same {α : Type} {m : Map α} (h : (m.map fun x => x.1).Nodup) (k : Nat) : mget (mdel m k) k = none := by
  induction m with
  | nil => rfl
  | cons x t ih =>
    obtain ⟨i, w⟩ := x
    obtain ⟨hi, ht⟩ := List.nodup_cons.mp h
    unfold mdel; split
    · subst_vars
      exact Option.eq_none_iff_forall_ne_some.mpr fun v hv => hi (List.mem_map_of_mem (f := fun x => x.1) (mem_of_mget hv))
    · rw [mget_cons, if_neg ‹_›, ih ht]

variable (s : Body)

/-! ### Setts -/

theorem sett_modSett (n m : Nat) (g : Sett → Sett) : (s.modSett n g).sett m = if m = n then g (s.sett n) else s.sett m := by
  unfold Body.sett Body.modSett
  by_cases h : m = n
  · subst h; simp [Body.sett]
  · rw [if_neg h, Body.setSett_setts, mgetD_mset_other _ _ _ h]

@[simp] theorem sett_modSett_same (n : Nat) (g : Sett → Sett) : (s.modSett n g).sett n = g (s.sett n) := by rw [sett_modSett, if_pos rfl]

theorem sett_modSett_other {n m : Nat} (h : m ≠ n) (g : Sett → Sett) : (s.modSett n g).sett m = s.sett m := by rw [sett_modSett, if_neg h]

@[simp] theorem modSett_budget (n : Nat) (g : Sett → Sett) : (s.modSett n g).budget = s.budget := rfl

theorem sett_of_setts {a b : Body} (h : a.setts = b.setts) (n : Nat) : a.sett n = b.sett n := by unfold Body.sett; rw [h]

/-- One sweep over the Setts that gives each its own change gives Sett `n` its change, in a body with the same `P`. -/
theorem sett_sweep (P : Body → Prop) (f : Body → Nat → Body) (keeps : ∀ c k, P c → P (f c k))
    (other : ∀ c k m, m ≠ k → (f c k).sett m = c.sett m) {b : Body} (hb : P b) {n : Nat} (hn : n < 20) :
    ∃ c, P c ∧ c.sett n = b.sett n ∧ ((List.range 20).foldl f b).sett n = (f c n).sett n :=
  foldl_of_key_once (·.sett n) P f id n keeps (fun c k h => other c k n (Ne.symm h)) (by simpa using List.nodup_range)
    (List.mem_range.mpr hn) hb

/-- The body outside its Setts and its budget. -/
def Body.sansBudget (s : Body) : Body := { s with setts := [], budget := {} }

/-- The body with another budget. -/
def Body.withBudget (s : Body) (b : Budget) : Body := { s with budget := b }

@[simp] theorem withBudget_budget (b : Budget) : (s.withBudget b).budget = b := rfl

@[simp] theorem sett_withBudget (b : Budget) (n : Nat) : (s.withBudget b).sett n = s.sett n := rfl

@[simp] theorem sansBudget_withBudget (b : Budget) : (s.withBudget b).sansBudget = s.sansBudget := rfl

theorem quiet_withBudget_congr {a b : Body} (h : a.quiet = b.quiet) {x y : Budget} (e : x = y) :
    (a.withBudget x).quiet = (b.withBudget y).quiet := by
  show a.quiet.withBudget x = b.quiet.withBudget y; rw [h, e]

@[simp] theorem sansBudget_modSett (n : Nat) (g : Sett → Sett) : (s.modSett n g).sansBudget = s.sansBudget := rfl

theorem planes_of_sansBudget {a b : Body} (h : a.sansBudget = b.sansBudget) : a.planes = b.planes := by
  show a.sansBudget.planes = b.sansBudget.planes; rw [h]

theorem settLaunching_of_sansBudget {a b : Body} (h : a.sansBudget = b.sansBudget) (n : Nat) : a.settLaunching n = b.settLaunching n := by
  show a.sansBudget.settLaunching n = b.sansBudget.settLaunching n; rw [h]

theorem profiles_of_sansBudget {a b : Body} (h : a.sansBudget = b.sansBudget) : a.profiles = b.profiles := by
  show a.sansBudget.profiles = b.sansBudget.profiles; rw [h]

theorem marginClock_of_sansBudget {a b : Body} (h : a.sansBudget = b.sansBudget) : a.marginClock = b.marginClock := by
  show a.sansBudget.marginClock = b.sansBudget.marginClock; rw [h]

theorem unitTop_of_sansBudget {a b : Body} {n : Nat} (h : a.sansBudget = b.sansBudget) (hs : (a.sett n).state = (b.sett n).state) :
    a.unitTop n = b.unitTop n := by
  unfold Body.unitTop
  rw [hs, marginClock_of_sansBudget h, profiles_of_sansBudget h]

/-! ### Grants taking effect (01 R23; 03 R81) -/

/-- A Sett with a grant in force; one whose result frame is in launch keeps its higher SCLK until the tail. -/
def Sett.granted (x : Sett) (g : Grant) (launching : Bool) : Sett :=
  let wait := g.step < x.sclk && launching
  { x with sclk := if wait then x.sclk else g.step, lower := if wait then some g.step else none, energy := g.energy, next := none }

theorem Sett.granted_of_wait {x : Sett} {g : Grant} {launching : Bool} (h : g.step < x.sclk ∧ launching = true) :
    x.granted g launching = { x with lower := some g.step, energy := g.energy, next := none } := by
  simp [Sett.granted, h]

theorem Sett.granted_of_no_wait {x : Sett} {g : Grant} {launching : Bool} (h : ¬ (g.step < x.sclk ∧ launching = true)) :
    x.granted g launching = { x with sclk := g.step, lower := none, energy := g.energy, next := none } := by
  simp [Sett.granted, h]

theorem putGrant_sett {n : Nat} (h : n < 20) (g : Grant) :
    s.putGrant n g = s.modSett n fun x => x.granted g (s.settLaunching n) := by
  unfold Body.putGrant; rw [if_pos h]; rfl

theorem putGrant_hbm (k : Nat) (g : Grant) :
    s.putGrant (k + 20) g = s.withBudget { s.budget with
      hbmCap := mset s.budget.hbmCap k g.step, hbmEnergy := mset s.budget.hbmEnergy k g.energy, hbmNext := mdel s.budget.hbmNext k } := by
  unfold Body.putGrant; rw [if_neg (by omega), Nat.add_sub_cancel]; rfl

theorem sett_putGrant_hbm (k n : Nat) (g : Grant) : (s.putGrant (k + 20) g).sett n = s.sett n := by rw [putGrant_hbm, sett_withBudget]

@[simp] theorem sansBudget_putGrant (i : Nat) (g : Grant) : (s.putGrant i g).sansBudget = s.sansBudget := by
  unfold Body.putGrant; split <;> rfl

/-- What one Sett of the boundary's sweep does: a grant that has come is put in force. -/
def Body.takeNext (s : Body) (n : Nat) : Body := match (s.sett n).next with | some g => s.putGrant n g | none => s

theorem sett_takeNext_other (n m : Nat) (h : m ≠ n) : (s.takeNext n).sett m = s.sett m := by
  unfold Body.takeNext; split
  · unfold Body.putGrant; split
    · exact sett_modSett_other s h _
    · rfl
  · rfl

/-- A grant that has come takes effect at the boundary. -/
theorem sett_takeNext_same {n : Nat} (hn : n < 20) {g : Grant} (h : (s.sett n).next = some g) :
    (s.takeNext n).sett n = (s.sett n).granted g (s.settLaunching n) := by
  unfold Body.takeNext; rw [h]; dsimp only
  rw [putGrant_sett s hn, sett_modSett_same]

theorem takeNext_of_none {n : Nat} (h : (s.sett n).next = none) : s.takeNext n = s := by
  unfold Body.takeNext; rw [h]

@[simp] theorem sansBudget_takeNext (n : Nat) : (s.takeNext n).sansBudget = s.sansBudget := by
  unfold Body.takeNext; split
  · exact sansBudget_putGrant s n _
  · rfl

@[simp] theorem takeNext_budget {n : Nat} (hn : n < 20) : (s.takeNext n).budget = s.budget := by
  unfold Body.takeNext; split
  · rw [putGrant_sett s hn, modSett_budget]
  · rfl

/-- A grant that has come for an HBM controller is put in force. -/
def Body.takeHbm (s : Body) (x : Nat × Grant) : Body := s.putGrant (x.1 + 20) x.2

theorem takeGrants_eq : s.takeGrants =
    ((List.range 20).foldl Body.takeNext s).budget.hbmNext.foldl Body.takeHbm ((List.range 20).foldl Body.takeNext s) := by
  unfold Body.takeGrants; extract_lets t
  have e : t = (List.range 20).foldl Body.takeNext s := rfl
  rw [← e]
  clear_value t
  rfl

theorem budget_sweep_takeNext : ((List.range 20).foldl Body.takeNext s).budget = s.budget :=
  List.foldlRecOn (motive := fun c => c.budget = s.budget) _ _ rfl fun c h _ hn =>
    (takeNext_budget c (List.mem_range.mp hn)).trans h

theorem sansBudget_takeGrants : s.takeGrants.sansBudget = s.sansBudget := by
  rw [takeGrants_eq, foldl_keeps Body.sansBudget Body.takeHbm fun c x => sansBudget_putGrant c _ _,
    foldl_keeps Body.sansBudget _ sansBudget_takeNext]

/-- The grants of the HBM controllers leave the Setts alone. -/
theorem sett_takeGrants_sweep (n : Nat) : s.takeGrants.sett n = ((List.range 20).foldl Body.takeNext s).sett n := by
  rw [takeGrants_eq]; exact foldl_keeps (Body.sett · n) Body.takeHbm (fun c x => sett_putGrant_hbm c x.1 n x.2) _ _

theorem sett_takeGrants_of_some {n : Nat} (hn : n < 20) {g : Grant} (h : (s.sett n).next = some g) :
    s.takeGrants.sett n = (s.sett n).granted g (s.settLaunching n) := by
  obtain ⟨c, hc, same, took⟩ := sett_sweep (·.sansBudget = s.sansBudget) Body.takeNext
    (fun c k h => (sansBudget_takeNext c k).trans h) sett_takeNext_other (b := s) rfl hn
  rw [sett_takeGrants_sweep, took, sett_takeNext_same c hn (same ▸ h), same, settLaunching_of_sansBudget hc]

theorem sett_takeGrants_of_none {n : Nat} (hn : n < 20) (h : (s.sett n).next = none) : s.takeGrants.sett n = s.sett n := by
  obtain ⟨c, -, same, took⟩ := sett_sweep (fun _ => True) Body.takeNext (fun _ _ _ => trivial) sett_takeNext_other (b := s) trivial hn
  rw [sett_takeGrants_sweep, took, takeNext_of_none c (same ▸ h), same]

/-- Grants move a Sett's clock and energy, not its place, its heat, its ceiling or its inputs. -/
theorem sett_takeGrants_rest {n : Nat} (hn : n < 20) :
    (s.takeGrants.sett n).state = (s.sett n).state ∧ (s.takeGrants.sett n).tj = (s.sett n).tj
      ∧ (s.takeGrants.sett n).ceil = (s.sett n).ceil ∧ (s.takeGrants.sett n).recent = (s.sett n).recent := by
  cases h : (s.sett n).next with
  | none => rw [sett_takeGrants_of_none s hn h]; exact ⟨rfl, rfl, rfl, rfl⟩
  | some g => rw [sett_takeGrants_of_some s hn h]; exact ⟨rfl, rfl, rfl, rfl⟩

theorem settDemand_takeGrants : s.takeGrants.budget.settDemand = s.budget.settDemand := by
  rw [takeGrants_eq, ← congrArg Budget.settDemand (budget_sweep_takeNext s)]
  exact foldl_keeps (fun c : Body => c.budget.settDemand) Body.takeHbm (fun c x => by rw [Body.takeHbm, putGrant_hbm]; rfl) _ _

/-- What the grants in force and to come hold for HBM controller `k`. -/
def Budget.hbmView (b : Budget) (k : Nat) : Option Nat × Option Nat × Option Grant := (mget b.hbmCap k, mget b.hbmEnergy k, mget b.hbmNext k)

theorem hbmView_takeGrants (once : (s.budget.hbmNext.map fun x => x.1).Nodup) {k : Nat} {g : Grant} (h : mget s.budget.hbmNext k = some g) :
    s.takeGrants.budget.hbmView k = (some g.step, some g.energy, none) := by
  rw [takeGrants_eq, budget_sweep_takeNext]
  obtain ⟨c, hc, -, took⟩ := foldl_of_key_once (b := (List.range 20).foldl Body.takeNext s) (·.budget.hbmView k)
    (fun c => (c.budget.hbmNext.map fun x => x.1).Nodup) Body.takeHbm (·.1) (k, g)
    (fun c x hc => by rw [Body.takeHbm, putGrant_hbm]; exact ((mdel_sublist _ _).map _).nodup hc)
    (fun c x ne => by
      simp only [Body.takeHbm, putGrant_hbm, withBudget_budget, Budget.hbmView, mget_mset_other _ _ (Ne.symm ne),
        mget_mdel_other _ (Ne.symm ne)])
    once (mem_of_mget h) (by rw [budget_sweep_takeNext]; exact once)
  refine took.trans ?_
  rw [Body.takeHbm, putGrant_hbm]
  simp [Budget.hbmView, mget_mdel_same hc]

/-! ### Temperatures and ceilings (10 R279) -/

/-- A Sett without its temperature and its ceiling. -/
def Sett.sansHeat (x : Sett) : Sett := { x with tj := 0, ceil := 0 }

/-- The budget without temperatures and ceilings. -/
def Budget.sansHeat (b : Budget) : Budget := { b with hbmTemp := [], oeTemp := [], hbmCeil := [] }

theorem clock_of_sansHeat {x y : Sett} (h : x.sansHeat = y.sansHeat) :
    x.next = y.next ∧ x.energy = y.energy ∧ x.sclk = y.sclk ∧ x.lower = y.lower ∧ x.recent = y.recent := by
  simp only [Sett.sansHeat, Sett.mk.injEq] at h; simp [h]

theorem hbmView_of_sansHeat {a b : Budget} (h : a.sansHeat = b.sansHeat) (k : Nat) : a.hbmView k = b.hbmView k := by
  show a.sansHeat.hbmView k = b.sansHeat.hbmView k; rw [h]

theorem settDemand_of_sansHeat {a b : Budget} (h : a.sansHeat = b.sansHeat) : a.settDemand = b.settDemand := by
  show a.sansHeat.settDemand = b.sansHeat.settDemand; rw [h]

theorem sansHeat_modSett {g : Sett → Sett} (h : ∀ x, (g x).sansHeat = x.sansHeat) (n m : Nat) :
    ((s.modSett n g).sett m).sansHeat = (s.sett m).sansHeat := by
  rw [sett_modSett]; split
  · subst_vars; exact h _
  · rfl

theorem readTemps_nil : s.readTemps [] = s := rfl

theorem readTemps_keeps {γ : Type} (v : Body → γ) (sett : ∀ c n t, v (c.modSett n fun y => { y with tj := t }) = v c)
    (stack : ∀ c m, v { c with budget := { c.budget with hbmTemp := m } } = v c)
    (engine : ∀ c m, v { c with budget := { c.budget with oeTemp := m } } = v c) (l : List (HotUnit × Nat)) : v (s.readTemps l) = v s := by
  refine foldl_keeps v _ (fun c x => ?_) l s
  obtain ⟨u, t⟩ := x
  cases u with
  | sett n => exact sett c n.val t
  | stack n => exact stack c _
  | engine e => exact engine c _
  | die _ => rfl

/-- Sett `n`'s part of the sweep that moves the ceilings. -/
def Body.moveSettCeil (s : Body) (n : Nat) : Body :=
  s.modSett n fun x => { x with ceil := moveCeil x.ceil (s.unitTop n) x.tj 95 90 50 600 }

theorem moveCeils_eq : ∃ m, s.moveCeils = ((List.range 20).foldl Body.moveSettCeil s).withBudget
    { ((List.range 20).foldl Body.moveSettCeil s).budget with hbmCeil := m } := by
  unfold Body.moveCeils; extract_lets t
  have e : t = (List.range 20).foldl Body.moveSettCeil s := rfl
  rw [← e]
  exact ⟨_, rfl⟩

theorem sansBudget_moveCeils : s.moveCeils.sansBudget = s.sansBudget := by
  obtain ⟨m, h⟩ := moveCeils_eq s
  rw [h, sansBudget_withBudget, foldl_keeps Body.sansBudget Body.moveSettCeil fun c k => sansBudget_modSett c k _]

theorem budget_moveCeils : s.moveCeils.budget.sansHeat = s.budget.sansHeat := by
  obtain ⟨m, h⟩ := moveCeils_eq s
  rw [h, withBudget_budget, foldl_keeps Body.budget Body.moveSettCeil fun c k => modSett_budget c k _]; rfl

theorem sett_moveCeils {n : Nat} (hn : n < 20) :
    s.moveCeils.sett n = { s.sett n with ceil := moveCeil (s.sett n).ceil (s.unitTop n) (s.sett n).tj 95 90 50 600 } := by
  obtain ⟨m, h⟩ := moveCeils_eq s
  obtain ⟨c, hc, same, moved⟩ := sett_sweep (·.sansBudget = s.sansBudget) Body.moveSettCeil (fun _ _ h => h)
    (fun c k m h => sett_modSett_other c h _) (b := s) rfl hn
  have top : c.unitTop n = s.unitTop n := unitTop_of_sansBudget hc (by rw [same])
  rw [h, sett_withBudget, moved, Body.moveSettCeil, sett_modSett_same, same, top]

/-! ### Demands (10 R272) -/

/-- Sett `n`'s part of the sweep that ages the inputs accepted lately. -/
def Body.ageInputs (s : Body) (n : Nat) : Body :=
  if (s.sett n).recent > 0 then s.modSett n fun x => { x with recent := x.recent - 1 } else s

theorem sett_ageInputs_same (n : Nat) : (s.ageInputs n).sett n = { s.sett n with recent := (s.sett n).recent - 1 } := by
  unfold Body.ageInputs; split
  · rw [sett_modSett_same]
  · have h : (s.sett n).recent - 1 = (s.sett n).recent := by omega
    rw [h]

theorem sett_ageInputs_other (n m : Nat) (h : m ≠ n) : (s.ageInputs n).sett m = s.sett m := by
  unfold Body.ageInputs; split
  · exact sett_modSett_other s h _
  · rfl

theorem budget_ageInputs (n : Nat) : (s.ageInputs n).budget = s.budget := by
  unfold Body.ageInputs; split <;> rfl

/-- The demands of the Setts, each at most its ceiling. -/
def Body.settDemands (s : Body) : Map Nat :=
  (List.range 20).foldl (fun m n => mset m n (min (s.settWants n) (s.sett n).ceil)) s.budget.settDemand

theorem giveDemands_eq (asked : List (Fin 20 × Nat)) : ∃ hd, s.giveDemands asked =
    (List.range 20).foldl Body.ageInputs (s.withBudget { s.budget with settDemand := s.settDemands, hbmDemand := hd }) := by
  unfold Body.giveDemands; extract_lets ask b sd hd t
  have e : t = s.withBudget { s.budget with settDemand := s.settDemands, hbmDemand := hd } := rfl
  rw [e]
  exact ⟨hd, rfl⟩

theorem mgetD_settDemands {n : Nat} (hn : n < 20) : mgetD s.settDemands n 0 = min (s.settWants n) (s.sett n).ceil := by
  obtain ⟨m, -, -, h⟩ := foldl_of_key_once (b := s.budget.settDemand) (mgetD · n 0) (fun _ => True)
    (fun m k => mset m k (min (s.settWants k) (s.sett k).ceil)) id n (fun _ _ _ => trivial)
    (fun m k ne => mgetD_mset_other m _ 0 (Ne.symm ne)) (by simpa using List.nodup_range) (List.mem_range.mpr hn) trivial
  rw [Body.settDemands, h, mgetD_mset_same]

theorem budget_giveDemands (asked : List (Fin 20 × Nat)) :
    ∃ hd, (s.giveDemands asked).budget = { s.budget with settDemand := s.settDemands, hbmDemand := hd } := by
  obtain ⟨hd, h⟩ := giveDemands_eq s asked
  exact ⟨hd, by rw [h, foldl_keeps Body.budget _ budget_ageInputs, withBudget_budget]⟩

theorem sett_giveDemands (asked : List (Fin 20 × Nat)) {n : Nat} (hn : n < 20) :
    (s.giveDemands asked).sett n = { s.sett n with recent := (s.sett n).recent - 1 } := by
  obtain ⟨hd, h⟩ := giveDemands_eq s asked
  obtain ⟨c, -, same, aged⟩ := sett_sweep (fun _ => True) Body.ageInputs (fun _ _ _ => trivial) sett_ageInputs_other
    (b := s.withBudget { s.budget with settDemand := s.settDemands, hbmDemand := hd }) trivial hn
  rw [h, aged, sett_ageInputs_same, same, sett_withBudget]

/-! ### The period boundary (01 R23; 10 R272, R279) -/

/-- The body at a period boundary, before CLP's demands. -/
def Body.boundary (s : Body) (hot : List (HotUnit × Nat)) : Body := (s.takeGrants.readTemps hot).moveCeils

theorem demand_eq (v : PeriodView) :
    s.demand v = if (s.boundary v.hot).planes.controlRestart then s.boundary v.hot else (s.boundary v.hot).giveDemands v.asked := rfl

theorem sansBudget_boundary (hot : List (HotUnit × Nat)) : (s.boundary hot).sansBudget = s.sansBudget := by
  rw [Body.boundary, sansBudget_moveCeils, readTemps_keeps _ Body.sansBudget (fun _ _ _ => rfl) (fun _ _ => rfl) (fun _ _ => rfl),
    sansBudget_takeGrants]

theorem budget_boundary (hot : List (HotUnit × Nat)) : (s.boundary hot).budget.sansHeat = s.takeGrants.budget.sansHeat := by
  rw [Body.boundary, budget_moveCeils,
    readTemps_keeps _ (fun c : Body => c.budget.sansHeat) (fun _ _ _ => rfl) (fun _ _ => rfl) (fun _ _ => rfl)]

theorem sett_boundary (hot : List (HotUnit × Nat)) {n : Nat} (hn : n < 20) :
    ((s.boundary hot).sett n).sansHeat = (s.takeGrants.sett n).sansHeat := by
  rw [Body.boundary, sett_moveCeils _ hn]
  exact readTemps_keeps s.takeGrants (fun c => (c.sett n).sansHeat)
    (fun c m t => sansHeat_modSett c (g := fun y => { y with tj := t }) (fun _ => rfl) m n) (fun _ _ => rfl) (fun _ _ => rfl) hot

/-- Where no temperature changed, each ceiling moves by the temperature it had. -/
theorem ceil_boundary {n : Nat} (hn : n < 20) :
    ((s.boundary []).sett n).ceil = moveCeil (s.sett n).ceil (s.unitTop n) (s.sett n).tj 95 90 50 600 := by
  obtain ⟨hstate, htj, hceil, -⟩ := sett_takeGrants_rest s hn
  rw [Body.boundary, readTemps_nil, sett_moveCeils _ hn, hceil, htj, unitTop_of_sansBudget (sansBudget_takeGrants s) hstate]

/-- The boundary leaves the control plane's state. -/
theorem planes_boundary (hot : List (HotUnit × Nat)) : (s.boundary hot).planes = s.planes := planes_of_sansBudget (sansBudget_boundary s hot)

theorem demand_of_restart (h : s.planes.controlRestart = true) (v : PeriodView) : s.demand v = s.boundary v.hot := by
  rw [demand_eq, planes_boundary, if_pos h]

theorem demand_of_no_restart (h : s.planes.controlRestart = false) (v : PeriodView) :
    s.demand v = (s.boundary v.hot).giveDemands v.asked := by
  rw [demand_eq, planes_boundary, if_neg (by simp [h])]

/-- CLP's demands leave a Sett all but its count of periods with inputs. -/
theorem sett_demand (v : PeriodView) {n : Nat} (hn : n < 20) :
    ∃ r, (s.demand v).sett n = { (s.boundary v.hot).sett n with recent := r } := by
  cases h : s.planes.controlRestart
  · exact ⟨_, by rw [demand_of_no_restart s h, sett_giveDemands _ _ hn]⟩
  · exact ⟨_, by rw [demand_of_restart s h]⟩

/-- A Sett's clock, its energy and its next grant after the boundary are those its grant leaves. -/
theorem clock_demand (v : PeriodView) {n : Nat} (hn : n < 20) :
    ((s.demand v).sett n).next = (s.takeGrants.sett n).next ∧ ((s.demand v).sett n).energy = (s.takeGrants.sett n).energy
      ∧ ((s.demand v).sett n).sclk = (s.takeGrants.sett n).sclk ∧ ((s.demand v).sett n).lower = (s.takeGrants.sett n).lower := by
  obtain ⟨r, hr⟩ := sett_demand s v hn
  obtain ⟨hnext, henergy, hsclk, hlower, -⟩ := clock_of_sansHeat (sett_boundary s v.hot hn)
  simp only [hr, hnext, henergy, hsclk, hlower, and_self]

theorem ceil_demand (v : PeriodView) {n : Nat} (hn : n < 20) : ((s.demand v).sett n).ceil = ((s.boundary v.hot).sett n).ceil := by
  obtain ⟨r, hr⟩ := sett_demand s v hn
  rw [hr]

/-- The count of periods with inputs, before CLP's demands age it. -/
theorem recent_boundary (hot : List (HotUnit × Nat)) {n : Nat} (hn : n < 20) : ((s.boundary hot).sett n).recent = (s.sett n).recent := by
  obtain ⟨-, -, -, -, h⟩ := clock_of_sansHeat (sett_boundary s hot hn)
  obtain ⟨-, -, -, h'⟩ := sett_takeGrants_rest s hn
  rw [h, h']

theorem hbmView_demand (v : PeriodView) (k : Nat) : (s.demand v).budget.hbmView k = s.takeGrants.budget.hbmView k := by
  rw [← hbmView_of_sansHeat (budget_boundary s v.hot)]
  cases h : s.planes.controlRestart
  · obtain ⟨hd, e⟩ := budget_giveDemands (s.boundary v.hot) v.asked
    rw [demand_of_no_restart s h, e, Budget.hbmView, Budget.hbmView]
  · rw [demand_of_restart s h]

/-- A Sett's grant that has come is in force after the boundary, its lower SCLK deferred while a result frame is in launch. -/
theorem demand_takes_grant (v : PeriodView) {n : Nat} (hn : n < 20) {g : Grant} (h : (s.sett n).next = some g) :
    ((s.demand v).sett n).next = none ∧ ((s.demand v).sett n).energy = g.energy
      ∧ if g.step < (s.sett n).sclk ∧ s.settLaunching n = true
        then ((s.demand v).sett n).sclk = (s.sett n).sclk ∧ ((s.demand v).sett n).lower = some g.step
        else ((s.demand v).sett n).sclk = g.step ∧ ((s.demand v).sett n).lower = none := by
  obtain ⟨hnext, henergy, hsclk, hlower⟩ := clock_demand s v hn
  rw [hnext, henergy, hsclk, hlower, sett_takeGrants_of_some s hn h]
  split
  case isTrue hw => rw [Sett.granted_of_wait hw]; exact ⟨rfl, rfl, rfl, rfl⟩
  case isFalse hw => rw [Sett.granted_of_no_wait hw]; exact ⟨rfl, rfl, rfl, rfl⟩

/-- Demands that CLP gives are at most the ceilings, and the count of periods with inputs runs down. -/
theorem demand_given (h : s.planes.controlRestart = false) (v : PeriodView) {n : Nat} (hn : n < 20) :
    mgetD (s.demand v).budget.settDemand n 0 ≤ ((s.demand v).sett n).ceil ∧ ((s.demand v).sett n).recent = (s.sett n).recent - 1 := by
  obtain ⟨hd, hb⟩ := budget_giveDemands (s.boundary v.hot) v.asked
  rw [ceil_demand s v hn, ← recent_boundary s v.hot hn, demand_of_no_restart s h, sett_giveDemands _ _ hn, hb]
  dsimp only
  rw [mgetD_settDemands _ hn]
  exact ⟨Nat.min_le_right _ _, rfl⟩

/-- No demand is given while the control plane restarts. -/
theorem demand_kept (h : s.planes.controlRestart = true) (v : PeriodView) {n : Nat} (hn : n < 20) :
    ((s.demand v).sett n).recent = (s.sett n).recent ∧ (s.demand v).budget.settDemand = s.budget.settDemand := by
  rw [demand_of_restart s h, recent_boundary s v.hot hn, settDemand_of_sansHeat (budget_boundary s v.hot), settDemand_takeGrants]
  exact ⟨rfl, rfl⟩

/-! ### Units and their power (10 R270, R271) -/

/-- No unit stands twice: a Sett's number is below 20, an HBM controller's is not (14 R371). -/
theorem units_nodup : s.units.Nodup := by
  refine List.Nodup.append (List.nodup_range.filter _) ((List.nodup_range.filter _).map fun a b h => Nat.add_right_cancel h) ?_
  intro i hi hk
  have h1 : i < 20 := List.mem_range.mp (List.mem_of_mem_filter hi)
  obtain ⟨k, -, h2⟩ := List.mem_map.mp hk
  omega

theorem unitPower_congr {a b : Body} {i : Nat} (hs : (a.sett i).state = (b.sett i).state) (hp : a.profiles = b.profiles) (v : Nat) :
    a.unitPower i v = b.unitPower i v := by
  unfold Body.unitPower Body.marginClock; rw [hs, hp]

theorem unitPower_of_quiet {a b : Body} (h : a.quiet = b.quiet) (i v : Nat) : a.unitPower i v = b.unitPower i v :=
  unitPower_congr (by rw [sett_of_setts (setts_of_quiet h)]) (profiles_of_quiet h) v

theorem unitNow_congr {a b : Body} {i : Nat} (hc : (a.sett i).sclk = (b.sett i).sclk) (hl : (a.sett i).lower = (b.sett i).lower)
    (hb : a.budget.hbmCap = b.budget.hbmCap) : a.unitNow i = b.unitNow i := by
  unfold Body.unitNow; rw [hc, hl, hb]

/-! ### Sending grants (10 R270, R273) -/

theorem sendGrant_sett {x : Nat × Nat} (h : x.1 < 20) :
    s.sendGrant x = s.modSett x.1 fun y => { y with next := some (s.grantAt x.1 x.2) } := by
  unfold Body.sendGrant; rw [if_pos h]

theorem sendGrant_hbm {x : Nat × Nat} (h : ¬ x.1 < 20) :
    s.sendGrant x = s.withBudget { s.budget with hbmNext := mset s.budget.hbmNext (x.1 - 20) (s.grantAt x.1 x.2) } := by
  unfold Body.sendGrant; rw [if_neg h]; rfl

theorem sett_sendGrant_other {x : Nat × Nat} {n : Nat} (h : x.1 ≠ n) : (s.sendGrant x).sett n = s.sett n := by
  by_cases hx : x.1 < 20
  · rw [sendGrant_sett s hx, sett_modSett_other s h.symm]
  · rw [sendGrant_hbm s hx, sett_withBudget]

theorem sett_sendGrant_same {x : Nat × Nat} (h : x.1 < 20) :
    (s.sendGrant x).sett x.1 = { s.sett x.1 with next := some (s.grantAt x.1 x.2) } := by
  rw [sendGrant_sett s h, sett_modSett_same]

/-- A grant that is sent changes a Sett's next grant alone. -/
theorem sett_sendGrant (x : Nat × Nat) (n : Nat) : ∃ g, (s.sendGrant x).sett n = { s.sett n with next := g } := by
  by_cases h : x.1 = n
  · subst h
    by_cases hx : x.1 < 20
    · exact ⟨_, sett_sendGrant_same s hx⟩
    · exact ⟨_, by rw [sendGrant_hbm s hx, sett_withBudget]⟩
  · exact ⟨_, sett_sendGrant_other s h⟩

@[simp] theorem sansBudget_sendGrant (x : Nat × Nat) : (s.sendGrant x).sansBudget = s.sansBudget := by
  unfold Body.sendGrant; split <;> rfl

@[simp] theorem unitPower_sendGrant (x : Nat × Nat) (i v : Nat) : (s.sendGrant x).unitPower i v = s.unitPower i v := by
  obtain ⟨g, hg⟩ := sett_sendGrant s x i
  exact unitPower_congr (by rw [hg]) (profiles_of_sansBudget (sansBudget_sendGrant s x)) v

@[simp] theorem unitNow_sendGrant (x : Nat × Nat) (i : Nat) : (s.sendGrant x).unitNow i = s.unitNow i := by
  obtain ⟨g, hg⟩ := sett_sendGrant s x i
  refine unitNow_congr (by rw [hg]) (by rw [hg]) ?_
  unfold Body.sendGrant; split <;> rfl

/-- `b` is `a` after grants for the next period, of these steps, have gone to the units that take part in the budget. -/
structure GrantsSent (a b : Body) (gs : List (Nat × Nat)) : Prop where
  units : gs.map (·.1) = a.units
  setts : ∀ n < 20, ∀ v, (n, v) ∈ gs → b.sett n = { a.sett n with next := some (a.grantAt n v) }
  others : ∀ n, n ∉ a.units → b.sett n = a.sett n

theorem GrantsSent.exists_of_mem {a b : Body} {gs : List (Nat × Nat)} (h : GrantsSent a b gs) {n : Nat} (hn : n < 20) (hu : n ∈ a.units) :
    ∃ v, (n, v) ∈ gs ∧ b.sett n = { a.sett n with next := some (a.grantAt n v) } := by
  rw [← h.units] at hu
  obtain ⟨⟨i, v⟩, hv, rfl⟩ := List.mem_map.mp hu
  exact ⟨v, hv, h.setts i hn v hv⟩

theorem grantAt_congr {a b : Body} (h : ∀ i v, a.unitPower i v = b.unitPower i v) (i v : Nat) : a.grantAt i v = b.grantAt i v := by
  unfold Body.grantAt; rw [h]

/-- Grants sent one by one, from a body with the Setts and the powers of `s`, reach every unit. -/
theorem grantsSent_foldl {b : Body} (hsett : ∀ n, b.sett n = s.sett n) (hpow : ∀ i v, b.unitPower i v = s.unitPower i v)
    {gs : List (Nat × Nat)} (hu : gs.map (·.1) = s.units) : GrantsSent s (gs.foldl Body.sendGrant b) gs where
  units := hu
  setts n hn v hv := by
    obtain ⟨c, hc, same, sent⟩ := foldl_of_key_once (b := b) (Body.sett · n) (fun c => ∀ i v, c.unitPower i v = s.unitPower i v)
      Body.sendGrant (·.1) (n, v) (fun c x h i v => (unitPower_sendGrant c x i v).trans (h i v))
      (fun c x ne => sett_sendGrant_other c ne) (hu ▸ units_nodup s) hv hpow
    refine sent.trans ((sett_sendGrant_same c hn).trans ?_)
    rw [same, hsett, grantAt_congr hc]
  others n hn := by
    rw [foldl_of_key_not_mem (Body.sett · n) Body.sendGrant (·.1) n (fun c x ne => sett_sendGrant_other c ne) (hu ▸ hn), hsett]

/-- While PWR restarts, the grants in force are sent again. -/
theorem energyGrant_of_restart (h : s.planes.mgmtRestart = true) :
    s.energyGrant = (s.units.map fun i => (i, s.unitNow i)).foldl Body.sendGrant s := by
  have again : ∀ (l : List Nat) (c : Body), (∀ i, c.unitNow i = s.unitNow i) →
      l.foldl (fun c i => c.sendGrant (i, c.unitNow i)) c = (l.map fun i => (i, s.unitNow i)).foldl Body.sendGrant c := by
    intro l
    induction l with
    | nil => exact fun _ _ => rfl
    | cons i t ih =>
      intro c hc
      rw [List.foldl_cons, List.map_cons, List.foldl_cons, hc, ih _ fun j => (unitNow_sendGrant c _ j).trans (hc j)]
  unfold Body.energyGrant
  rw [if_pos h]
  exact again _ _ fun _ => rfl

/-! ### Computing grants (10 R270, R273; 14 R370, R371) -/

/-- An allotment of nothing leaves a unit at a step that draws no more than its floor. -/
theorem unitPower_stepWithin_zero (i want : Nat) : s.unitPower i (s.stepWithin i 0 1 want) ≤ s.unitPower i (unitFloor i) := by
  unfold Body.stepWithin; extract_lets fl
  cases h : (s.ladder i).reverse.find? fun v => (s.unitPower i v - fl) * 1 ≤ 0 * want with
  | none => exact Nat.le_refl _
  | some v =>
    have := List.find?_some h
    simp only [decide_eq_true_eq] at this
    show s.unitPower i v ≤ fl
    omega

/-- The ramp limit holds back a unit's raise; it leaves no unit out. -/
theorem map_fst_ramped (l : List (Nat × Nat)) : (s.ramped l).1.map (·.1) = l.map (·.1) := by
  unfold Body.ramped; extract_lets up rise key r
  split
  · rfl
  · rw [List.map_map]
    refine List.map_congr_left fun x _ => ?_
    rw [Function.comp_apply]; split <;> rfl

/-- Grants of which none draws more than the one in force meet no ramp limit. -/
theorem ramped_of_no_rise {l : List (Nat × Nat)} (h : ∀ x ∈ l, s.unitPower x.1 x.2 ≤ s.unitPower x.1 (s.unitNow x.1)) :
    (s.ramped l).1 = l := by
  unfold Body.ramped; extract_lets up rise
  have flat : rise = 0 := by
    refine List.foldlRecOn (motive := fun a => a = 0) up _ rfl fun a ha x hx => ?_
    have := h x (List.mem_of_mem_filter hx)
    omega
  rw [flat, if_pos (by decide)]

/-- The budget with BUDGET_BELOW_FLOOR brought up to date. -/
def Budget.flagged (b : Budget) (below : Bool) : Budget := { b with belowFloor := below }

theorem quiet_markFloor (below : Bool) (floors : Nat) :
    (s.markFloor below floors).quiet = (s.withBudget (s.budget.flagged below)).quiet := by
  have emitted : ∀ (c : Bool) k p, (if c then s.emit k p else s).quiet = s.quiet := fun c k p => by split <;> simp
  have counted : ∀ (c : Bool) (t : Body), (if c then t.bump .budgetFloorPeriods 0 else t).quiet = t.quiet := fun c t => by split <;> simp
  unfold Body.markFloor; extract_lets pf low t u
  have hu : u.quiet = s.quiet := (counted _ t).trans (emitted _ _ _)
  exact quiet_withBudget_congr hu (congrArg (Budget.flagged · below) (budget_of_quiet hu))

/-- What is left of a measured excess and of the periods at the floor (14 R370). -/
def Budget.limits (b : Budget) : Nat × Nat := (b.excess, b.maxLeft)

theorem limits_sendGrant (x : Nat × Nat) : (s.sendGrant x).budget.limits = s.budget.limits := by
  by_cases h : x.1 < 20
  · rw [sendGrant_sett s h, modSett_budget]
  · rw [sendGrant_hbm s h, withBudget_budget]; rfl

/-- The grants of a budget: each unit's step within its share `k.1 / k.2` of what it wants, then the ramp limit. -/
def Body.allotted (s : Body) (us : List Nat) (k : Nat × Nat) (want : Nat → Nat) : List (Nat × Nat) :=
  (s.ramped (us.map fun i => (i, s.stepWithin i k.1 k.2 (want i)))).1

theorem map_fst_allotted (us : List Nat) (k : Nat × Nat) (want : Nat → Nat) : (s.allotted us k want).map (·.1) = us := by
  rw [Body.allotted, map_fst_ramped, List.map_map]; exact List.map_id _

/-- Units that are allotted nothing, and draw their floor's power or more, get steps that draw no more than their floors. -/
theorem allotted_at_floor {us : List Nat} (h : ∀ i ∈ us, s.unitPower i (unitFloor i) ≤ s.unitPower i (s.unitNow i)) (want : Nat → Nat) :
    ∀ x ∈ s.allotted us (0, 1) want, s.unitPower x.1 x.2 ≤ s.unitPower x.1 (unitFloor x.1) := by
  have low : ∀ x ∈ us.map fun i => (i, s.stepWithin i 0 1 (want i)),
      x.1 ∈ us ∧ s.unitPower x.1 x.2 ≤ s.unitPower x.1 (unitFloor x.1) := by
    intro x hx
    obtain ⟨i, hi, rfl⟩ := List.mem_map.mp hx
    exact ⟨hi, unitPower_stepWithin_zero s i _⟩
  rw [Body.allotted, ramped_of_no_rise s fun x hx => (low x hx).2.trans (h _ (low x hx).1)]
  exact fun x hx => (low x hx).2

/-- The budget after a round of grants. -/
def Budget.spent (b : Budget) (last : Nat) : Budget := { b with lastRaised := last, excess := 0, maxLeft := b.maxLeft - 1 }

/-- PWR's round of grants: BUDGET_BELOW_FLOOR is brought up to date, the steps are sent, and the limits of R370 run down. -/
theorem energyGrant_of_no_restart (h : s.planes.mgmtRestart = false) :
    ∃ c : Body, ∃ below k want last, c.quiet = (s.withBudget (s.budget.flagged below)).quiet
      ∧ (0 < s.budget.maxLeft → k = (0, 1))
      ∧ s.energyGrant = ((c.allotted s.units k want).foldl Body.sendGrant c).withBudget
          (((c.allotted s.units k want).foldl Body.sendGrant c).budget.spent last) := by
  unfold Body.energyGrant
  rw [if_neg (by simp [h])]
  extract_lets us floors base pool wants sum k c
  let want := fun i => s.unitPower i (s.unitDemand i) - s.unitPower i (unitFloor i)
  have e : wants.map (fun x => (x.1, c.stepWithin x.1 k.1 k.2 x.2)) = s.units.map fun i => (i, c.stepWithin i k.1 k.2 (want i)) :=
    List.map_map
  rw [e]
  refine ⟨c, decide (base < 0), k, want, (c.ramped (s.units.map fun i => (i, c.stepWithin i k.1 k.2 (want i)))).2,
    quiet_markFloor s _ _, fun hm => if_pos (.inr hm), ?_⟩
  rw [Body.allotted]
  generalize c.ramped _ = r
  rfl

/-- Every unit of the budget gets a grant: the one in force while PWR restarts, and one at its floor's power while R370 holds it there. -/
theorem energyGrant_sent : ∃ gs, GrantsSent s s.energyGrant gs
    ∧ (s.planes.mgmtRestart = true → ∀ x ∈ gs, x.2 = s.unitNow x.1)
    ∧ (s.planes.mgmtRestart = false → 0 < s.budget.maxLeft →
        (∀ i ∈ s.units, s.unitPower i (unitFloor i) ≤ s.unitPower i (s.unitNow i)) →
        ∀ x ∈ gs, s.unitPower x.1 x.2 ≤ s.unitPower x.1 (unitFloor x.1)) := by
  cases h : s.planes.mgmtRestart
  case true =>
    refine ⟨s.units.map fun i => (i, s.unitNow i), ?_, fun _ x hx => ?_, nofun⟩
    · rw [energyGrant_of_restart s h]
      exact grantsSent_foldl s (fun _ => rfl) (fun _ _ => rfl) (by rw [List.map_map]; exact List.map_id _)
    · obtain ⟨i, -, rfl⟩ := List.mem_map.mp hx
      rfl
  case false =>
    obtain ⟨c, below, k, want, last, hc, hk, he⟩ := energyGrant_of_no_restart s h
    have hpow : ∀ i v, c.unitPower i v = s.unitPower i v := fun i v => unitPower_of_quiet hc i v
    have hsett : ∀ n, c.sett n = s.sett n := fun n => (sett_of_setts (setts_of_quiet hc) n).trans (sett_withBudget s _ n)
    have hcap : c.budget.hbmCap = s.budget.hbmCap := by rw [budget_of_quiet hc]; rfl
    have hnow : ∀ i, c.unitNow i = s.unitNow i := fun i => unitNow_congr (by rw [hsett]) (by rw [hsett]) hcap
    obtain ⟨hu, hs, ho⟩ := grantsSent_foldl s hsett hpow (map_fst_allotted c s.units k want)
    refine ⟨c.allotted s.units k want, ⟨hu, ?_, ?_⟩, nofun, fun _ hm hfloor x hx => ?_⟩
    · intro n hn v hv; rw [he, sett_withBudget, hs n hn v hv]
    · intro n hn; rw [he, sett_withBudget, ho n hn]
    · rw [hk hm] at hx
      have := allotted_at_floor c (fun i hi => by rw [hpow, hpow, hnow]; exact hfloor i hi) want x hx
      rwa [hpow, hpow] at this

theorem limits_energyGrant_of_restart (h : s.planes.mgmtRestart = true) : s.energyGrant.budget.limits = s.budget.limits := by
  rw [energyGrant_of_restart s h, foldl_keeps (fun c : Body => c.budget.limits) Body.sendGrant fun c x => limits_sendGrant c x]

theorem limits_energyGrant_of_no_restart (h : s.planes.mgmtRestart = false) :
    s.energyGrant.budget.limits = (0, s.budget.maxLeft - 1) := by
  obtain ⟨c, below, k, want, last, hc, -, he⟩ := energyGrant_of_no_restart s h
  have sent := foldl_keeps (fun c : Body => c.budget.limits) Body.sendGrant (fun c x => limits_sendGrant c x) (c.allotted s.units k want) c
  have left : ((c.allotted s.units k want).foldl Body.sendGrant c).budget.maxLeft = s.budget.maxLeft := by
    rw [show s.budget.maxLeft = c.budget.maxLeft by rw [budget_of_quiet hc]; rfl]
    exact congrArg Prod.snd sent
  rw [he, withBudget_budget, ← left]; rfl

/-! ### Lapses and measurements (01 R24; 14 R370) -/

/-- A unit of the budget whose grants have stopped has a grant of its floor put in force. -/
theorem quiet_lapse {i : Nat} (h : i ∈ s.units) : (s.lapse i).quiet = (s.putGrant i (s.grantAt i (unitFloor i))).quiet := by
  unfold Body.lapse; rw [if_pos (List.contains_iff_mem.mpr h), quiet_bump]

/-- The budget with the excess of a measurement of 100 µs over the cap. -/
def Budget.overCap (b : Budget) (watts : Nat) : Budget :=
  { b with excess := if b.cap < watts ∧ b.belowFloor = false then watts - b.cap else b.excess }

/-- The budget held at the floors for 10 ms once 1 ms of input exceeded 3,400 W. -/
def Budget.overMax (b : Budget) (tooHigh : Bool) : Budget := { b with maxLeft := if tooHigh then 1000 else b.maxLeft }

/-- A Sett whose grants have stopped falls to 600 MHz and its energy (entry 42). -/
theorem quiet_lapse_sett {n : Nat} (hn : n < 20) (h : n ∈ s.units) : (s.lapse n).quiet = (s.modSett n fun x =>
    let wait : Bool := 600 < x.sclk && s.settLaunching n
    { x with sclk := if wait then x.sclk else 600, lower := if wait then some 600 else none
             energy := 10 * s.unitPower n 600, next := none }).quiet := by
  rw [quiet_lapse s h, putGrant_sett s hn, unitFloor, if_pos hn, Nat.mul_comm]; rfl

/-- An HBM controller whose grants have stopped falls to a cap of 20 % and its energy (entry 42). -/
theorem quiet_lapse_hbm {k : Nat} (h : k + 20 ∈ s.units) : (s.lapse (k + 20)).quiet = (s.withBudget { s.budget with
    hbmCap := mset s.budget.hbmCap k 20, hbmEnergy := mset s.budget.hbmEnergy k (10 * hbmPower 20)
    hbmNext := mdel s.budget.hbmNext k }).quiet := by
  have hk : ¬ k + 20 < 20 := by omega
  rw [quiet_lapse s h, putGrant_hbm, unitFloor, if_neg hk, Body.grantAt, periodEnergy, Body.unitPower, if_neg hk, Nat.mul_comm]

theorem quiet_measurePower (watts : Nat) (tooHigh : Bool) :
    (s.measurePower watts tooHigh).quiet = (s.withBudget ((s.budget.overCap watts).overMax tooHigh)).quiet := by
  unfold Body.measurePower; extract_lets _ t
  have ht : t.quiet = (s.withBudget (s.budget.overCap watts)).quiet := by
    by_cases hc : s.budget.cap < watts ∧ s.budget.belowFloor = false
    · have hb : s.budget.overCap watts = { s.budget with excess := watts - s.budget.cap } := by rw [Budget.overCap, if_pos hc]
      have counted : t = (s.withBudget { s.budget with excess := watts - s.budget.cap }).bump .powerOverCap 0 := if_pos (by simpa using hc)
      rw [hb, counted, quiet_bump]
    · have hb : s.budget.overCap watts = s.budget := by rw [Budget.overCap, if_neg hc]
      have same : t = s := if_neg (by simpa using hc)
      rw [hb, same]; rfl
  cases tooHigh
  · exact ht
  · rw [if_pos rfl, quiet_bump]
    exact quiet_withBudget_congr ht (congrArg (Budget.overMax · true) (budget_of_quiet ht))

/-! ### Emergencies of engines (10 R279, R280) -/

theorem budget_clpApply (t : Nat) (c : ClpChange) : (s.clpApply t c).budget = s.budget := by
  have noted : ∀ (b : Body) key m, (clpNote b t key m c).budget = b.budget := fun b key m => by cases c <;> rfl
  unfold Body.clpApply; extract_lets x a b u y _ w
  rw [budget_of_quiet (quiet_auditModule _ _ _ _ _), budget_of_quiet (quiet_emit w _ _)]
  exact (noted _ _ _).trans (noted _ _ _)

theorem budget_clpChange (t : Nat) (c : ClpChange) : (s.clpChange t c).budget = s.budget := by
  unfold Body.clpChange; split
  · rfl
  · split
    · rfl
    · exact budget_clpApply s t c

theorem budget_thermalChange (e code tj : Nat) (l : List Nat) :
    (s.thermalChange e code tj l).budget = { s.budget with emergency := l, oeTemp := mset s.budget.oeTemp e tj } := by
  unfold Body.thermalChange
  rw [budget_clpChange, budget_clpChange, budget_of_quiet (quiet_emit _ _ _)]

theorem thermalOn_of_calm {e : Nat} (h : e ∉ s.budget.emergency) (tj : Nat) :
    s.thermalOn e tj = s.thermalChange e 0x601 tj (s.budget.emergency ++ [e]) := by
  unfold Body.thermalOn; rw [if_neg (by simpa using h)]

theorem thermalOff_of_emergency {e : Nat} (h : e ∈ s.budget.emergency) (tj : Nat) :
    s.thermalOff e tj = s.thermalChange e 0x602 tj (s.budget.emergency.filter (· != e)) := by
  unfold Body.thermalOff; rw [if_pos (by simpa using h)]

/-! ### Saturation (10 R262, R263) -/

/-- Sett `n`'s part of the sweep that takes the load figures. -/
def Body.takeLoad (s : Body) (n : Nat) : Body :=
  s.modSett n fun x => { x with loadAll := x.loadWork * loadOne / max 1 x.loadSlots, loadWork := 0, loadSlots := 0 }

theorem takeLoads_eq : s.takeLoads = (List.range 20).foldl Body.takeLoad s := rfl

theorem sansBudget_takeLoads : s.takeLoads.sansBudget = s.sansBudget := by
  rw [takeLoads_eq, foldl_keeps Body.sansBudget Body.takeLoad fun c k => sansBudget_modSett c k _]

theorem sett_takeLoads {n : Nat} (hn : n < 20) : s.takeLoads.sett n = { s.sett n with
    loadAll := (s.sett n).loadWork * loadOne / max 1 (s.sett n).loadSlots, loadWork := 0, loadSlots := 0 } := by
  obtain ⟨c, -, same, taken⟩ := sett_sweep (fun _ => True) Body.takeLoad (fun _ _ _ => trivial)
    (fun c k m h => sett_modSett_other c h _) (b := s) trivial hn
  rw [takeLoads_eq, taken, Body.takeLoad, sett_modSett_same, same]

/-- The body without reports and without the times of its hints. -/
def Body.sansHints (s : Body) : Body := (s.withBudget { s.budget with hintAt := [] }).quiet

theorem setts_of_sansHints {a b : Body} (h : a.sansHints = b.sansHints) : a.setts = b.setts := by
  show a.sansHints.setts = b.sansHints.setts; rw [h]

theorem profiles_of_sansHints {a b : Body} (h : a.sansHints = b.sansHints) : a.profiles = b.profiles := by
  show a.sansHints.profiles = b.sansHints.profiles; rw [h]

theorem satPeers_of_sansHints {a b : Body} (h : a.sansHints = b.sansHints) : a.budget.satPeers = b.budget.satPeers := by
  show a.sansHints.budget.satPeers = b.sansHints.budget.satPeers; rw [h]

theorem satDies_of_sansHints {a b : Body} (h : a.sansHints = b.sansHints) : a.budget.satDies = b.budget.satDies := by
  show a.sansHints.budget.satDies = b.sansHints.budget.satDies; rw [h]

theorem sansHints_of_quiet {a b : Body} (h : a.quiet = b.quiet) : a.sansHints = b.sansHints :=
  quiet_withBudget_congr h (by rw [budget_of_quiet h])

theorem sansHints_hint (a : W32) (pod : Nat) : (s.hint a pod).sansHints = s.sansHints := by
  have noted : ∀ m c p, ((s.withBudget { s.budget with hintAt := m }).emit c p).sansHints = s.sansHints :=
    fun _ _ _ => (sansHints_of_quiet (quiet_emit _ _ _)).trans rfl
  unfold Body.hint; extract_lets k now
  split
  · split
    · rfl
    · exact noted _ _ _
  · exact noted _ _ _

theorem sansHints_hints : s.hints.sansHints = s.sansHints := by
  unfold Body.hints
  refine foldl_keeps Body.sansHints _ (fun b c => ?_) _ s
  split
  · rfl
  · exact foldl_keeps Body.sansHints _ (fun b r => sansHints_hint b _ _) _ b

/-- A die counts as saturated when it has Setts in service and their mean load reaches SAT_LOAD (10 Table 10-3). -/
def Body.saturated (s : Body) (d : Nat) : Prop :=
  d < 4 ∧ s.inServiceOf d ≠ [] ∧ s.profiles.inForce.satLoad * (loadOne / 1000) ≤ s.dieLoad d

theorem saturated_of_setts {a b : Body} (hs : a.setts = b.setts) (hp : a.profiles = b.profiles) {d : Nat} (h : a.saturated d) :
    b.saturated d := by
  have hin : a.inServiceOf d = b.inServiceOf d := by unfold Body.inServiceOf Body.sett; rw [hs]
  have hload : a.dieLoad d = b.dieLoad d := by unfold Body.dieLoad Body.sett; rw [hin, hs]
  obtain ⟨hd, hne, hl⟩ := h
  exact ⟨hd, hin ▸ hne, hp ▸ hload ▸ hl⟩

@[simp] theorem saturated_withBudget (b : Budget) (d : Nat) : (s.withBudget b).saturated d ↔ s.saturated d := Iff.rfl

/-- An evaluation takes the loads, records what is saturated, and may send hints. -/
theorem saturation_records (v : SatView) : ∃ b : Budget, (s.saturation v).sansHints = (s.takeLoads.withBudget b).sansHints
    ∧ b.satPeers = (v.peerWait.filter fun x => x.2 ≥ 100).map (fun x => x.1.val)
    ∧ ∀ d ∈ b.satDies, (s.takeLoads.withBudget b).saturated d := by
  unfold Body.saturation; extract_lets u dies sat atCap own _ t
  have hu : s.takeLoads = u := rfl
  rw [hu]
  clear_value u
  refine ⟨t.budget, ?_, rfl, fun d hd => ?_⟩
  · split
    · exact sansHints_hints t
    · rfl
  · obtain ⟨hdies, hload⟩ := List.mem_filter.mp hd
    obtain ⟨hlt, hin⟩ := List.mem_filter.mp hdies
    rw [saturated_withBudget]
    exact ⟨List.mem_range.mp hlt, by simpa using hin, by simpa using hload⟩

theorem sett_saturation (v : SatView) (n : Nat) : (s.saturation v).sett n = s.takeLoads.sett n := by
  obtain ⟨b, hb, -, -⟩ := saturation_records s v
  rw [sett_of_setts (setts_of_sansHints hb), sett_withBudget]

theorem satPeers_saturation (v : SatView) :
    (s.saturation v).budget.satPeers = (v.peerWait.filter fun x => x.2 ≥ 100).map (fun x => x.1.val) := by
  obtain ⟨b, hb, hp, -⟩ := saturation_records s v
  rw [satPeers_of_sansHints hb, withBudget_budget, hp]

/-- A die recorded as saturated is so by the loads just taken. -/
theorem saturated_of_mem_satDies (v : SatView) {d : Nat} (h : d ∈ (s.saturation v).budget.satDies) : (s.saturation v).saturated d := by
  obtain ⟨b, hb, -, hd⟩ := saturation_records s v
  rw [satDies_of_sansHints hb, withBudget_budget] at h
  have hs := setts_of_sansHints hb
  have hp := profiles_of_sansHints hb
  exact saturated_of_setts hs.symm hp.symm (hd d h)

/-- Saturation looks at the Setts and at the profile in force, which an evaluation leaves. -/
theorem profiles_saturation (v : SatView) : (s.saturation v).profiles = s.profiles := by
  obtain ⟨b, hb, -, -⟩ := saturation_records s v
  rw [profiles_of_sansHints hb]
  exact profiles_of_sansBudget ((sansBudget_withBudget _ b).trans (sansBudget_takeLoads s))

/-! ### The commands -/

/-- A command that the serving states alone carry out is carried out in them. -/
theorem next_of_serves {c : Instr} {s : State} (h : s.serves = true) (f : Body → Body)
    (hc : exec c s = onBody s fun b => if b.serves then f b else b) : ∃ t, exec c s = .next t ∧ t.toBody = f s.toBody :=
  ⟨_, hc, if_pos h⟩

/-- Such a command runs to what it leaves beyond reports. -/
theorem runsTo_of_serves {c : Instr} {s : State} {b : Body} (h : s.serves = true) (f : Body → Body)
    (hc : exec c s = onBody s fun b => if b.serves then f b else b) (hq : (f s.toBody).quiet = b.quiet) : runsTo c s b :=
  ⟨_, hc, (congrArg Body.quiet (if_pos h)).trans hq, rfl, rfl⟩

theorem exec_tokenLapse_sett (n : Fin 20) (s : State) :
    exec (.tokenLapse (.sett n)) s = onBody s fun b => if b.serves then b.lapse n.val else b := rfl

theorem exec_tokenLapse_hbm {n : Fin 20} {s : State} (h : s.hw.fittedHbm.getLsbD n.val = true) :
    exec (.tokenLapse (.hbm n)) s = onBody s fun b => if b.serves then b.lapse (n.val + 20) else b := by
  rw [exec_tokenLapse, execTokenLapse, if_pos h]

theorem exec_thermalEmergency_of_fitted {e : Fin 8} {s : State} (h : e.val < s.hw.engines) (tj : Byte) :
    exec (.thermalEmergency e tj) s = onBody s fun b => if b.serves then b.thermalOn e.val tj.toNat else b := by
  rw [exec_thermalEmergency, execThermalEmergency, if_pos h]

theorem exec_thermalClear_of_fitted {e : Fin 8} {s : State} (h : e.val < s.hw.engines) (tj : Byte) :
    exec (.thermalClear e tj) s = onBody s fun b => if b.serves then b.thermalOff e.val tj.toNat else b := by
  rw [exec_thermalClear, execThermalClear, if_pos h]

theorem exec_saturationEvaluation_of_control {s : State} (h : s.planes.controlRestart = false) (v : SatView) :
    ∃ t, exec (.saturationEvaluation v) s = .next t ∧ t.toBody = if s.serves then s.saturation v else s.toBody :=
  ⟨_, rfl, by simp [h]⟩

/-- Settles O57: each clause is what the operation of its command leaves in the Setts and in the budget. -/
theorem budgetAndHeat : Obligations.BudgetAndHeat := by
  intro s hs b
  refine ⟨fun v => ?demand, ?grants, fun n => ⟨fun hn => ?lapse, fun hfit hn => ?lapseHbm⟩,
    fun watts tooHigh => runsTo_of_serves hs (·.measurePower watts tooHigh) rfl (quiet_measurePower b watts tooHigh),
    fun e tj he => ⟨fun hcalm => ?heats, fun hhot => ?cools⟩, fun v hrun => ?saturation⟩
  case demand =>
    obtain ⟨t, ht, hb⟩ := next_of_serves hs (·.demand v) (exec_demand s v)
    refine ⟨t, ht, fun n => ?setts, fun once k g hg => ?hbm⟩
    case setts =>
      rw [hb]
      refine ⟨fun g hg => demand_takes_grant b v n.isLt hg, fun h => ?_, fun h => ?_, fun h => demand_given b h v n.isLt,
        fun h => demand_kept b h v n.isLt⟩
      · obtain ⟨-, henergy, hsclk, -⟩ := clock_demand b v n.isLt
        rw [sett_takeGrants_of_none b n.isLt h] at henergy hsclk
        exact ⟨hsclk, henergy⟩
      · exact (ceil_demand b v n.isLt).trans (h ▸ ceil_boundary b n.isLt)
    case hbm =>
      have h := (hbmView_demand b v k).trans (hbmView_takeGrants b once hg)
      rw [hb]
      simpa only [Budget.hbmView, Prod.mk.injEq] using h
  case grants =>
    obtain ⟨t, ht, hb⟩ := next_of_serves hs (·.energyGrant) (exec_energyGrant s)
    obtain ⟨gs, sent, again, floor⟩ := energyGrant_sent b
    refine ⟨t, ht, fun n => ?setts, fun hr => ?spent, fun hr => ?kept⟩
    case setts =>
      rw [hb]
      by_cases hn : n.val ∈ b.units
      · obtain ⟨v, hv, hx⟩ := sent.exists_of_mem n.isLt hn
        have next : (b.energyGrant.sett n).next = some (b.grantAt n v) := by rw [hx]
        exact ⟨by rw [hx], by rw [hx], fun out => absurd hn out, fun _ => ⟨v, next⟩,
          fun _ hr => next.trans (congrArg (some <| b.grantAt n ·) (again hr _ hv)), fun _ hr hm hf => ⟨v, next, floor hr hm hf _ hv⟩⟩
      · rw [sent.others n hn]
        exact ⟨rfl, rfl, fun _ => rfl, fun h => absurd h hn, fun h => absurd h hn, fun h => absurd h hn⟩
    case spent => exact hb ▸ Prod.mk.inj (limits_energyGrant_of_no_restart b hr)
    case kept => exact hb ▸ Prod.mk.inj (limits_energyGrant_of_restart b hr)
  case lapse => exact runsTo_of_serves hs (·.lapse n.val) (exec_tokenLapse_sett n s) (quiet_lapse_sett b n.isLt hn)
  case lapseHbm => exact runsTo_of_serves hs (·.lapse (n.val + 20)) (exec_tokenLapse_hbm hfit) (quiet_lapse_hbm b hn)
  case heats =>
    obtain ⟨t, ht, hb⟩ := next_of_serves hs (·.thermalOn e.val tj.toNat) (exec_thermalEmergency_of_fitted he tj)
    exact ⟨t, ht, by rw [hb, thermalOn_of_calm _ hcalm, budget_thermalChange]⟩
  case cools =>
    obtain ⟨t, ht, hb⟩ := next_of_serves hs (·.thermalOff e.val tj.toNat) (exec_thermalClear_of_fitted he tj)
    exact ⟨t, ht, by rw [hb, thermalOff_of_emergency _ hhot, budget_thermalChange]⟩
  case saturation =>
    obtain ⟨t, ht, hb⟩ := exec_saturationEvaluation_of_control hrun v
    rw [if_pos hs] at hb
    refine ⟨t, ht, by rw [hb, satPeers_saturation], fun n => by rw [hb, sett_saturation, sett_takeLoads _ n.isLt], fun d hd => ?_⟩
    rw [hb] at hd ⊢
    have hsat := saturated_of_mem_satDies _ v hd
    rwa [Body.saturated, profiles_saturation] at hsat
end Sys2Proof.Machine
end

section
/-! SUPPORT. HCRC (02 R39): the CRC-16 step as a shift register of 16 bits, and the header's bytes as one number. -/
namespace Sys2Proof.Machine

/-! ### The shift register -/

/-- One bit of CRC-16: bit 15 leaves, and where it was 1 the polynomial is added. -/
def crc16Shift (c : Nat) : Nat := if c < 0x8000 then 2 * c else (2 * c) ^^^ 0x11021

/-- The polynomial's own bit 16 takes back the bit that leaves. -/
theorem xor_poly_eq_mod {c : Nat} (hc : c < 0x10000) (h : ¬ c < 0x8000) : (2 * c) ^^^ 0x11021 = ((2 * c) ^^^ 0x1021) % 2 ^ 16 := by
  have hdiv : ((2 * c) ^^^ 0x11021) / 2 ^ 16 = 0 := by
    rw [Nat.xor_div_two_pow, show 2 * c / 2 ^ 16 = 1 by omega]; rfl
  have hmod : ((2 * c) ^^^ 0x11021) % 2 ^ 16 = ((2 * c) ^^^ 0x1021) % 2 ^ 16 := by
    rw [Nat.xor_mod_two_pow, Nat.xor_mod_two_pow (b := 0x1021)]
  rw [← hmod, Nat.mod_eq_of_lt]
  exact Nat.lt_of_div_eq_zero (by decide) hdiv

theorem crc16Shift_lt {c : Nat} (hc : c < 0x10000) : crc16Shift c < 0x10000 := by
  unfold crc16Shift; split
  · omega
  · rw [xor_poly_eq_mod hc ‹_›]; exact Nat.mod_lt _ (by decide)

/-- On a register of 16 bits the model's masked step is the shift register's. -/
theorem maskedStep_eq_shift {c : Nat} (hc : c < 0x10000) :
    (if c &&& 0x8000 = 0 then (c <<< 1) &&& 0xFFFF else ((c <<< 1) ^^^ 0x1021) &&& 0xFFFF) = crc16Shift c := by
  have htop : c &&& 0x8000 = 0 ↔ c < 0x8000 := by
    rw [show (0x8000 : Nat) = 2 ^ 15 from rfl, Nat.and_two_pow, Nat.testBit_eq_decide_div_mod_eq]
    simp only [Nat.mul_eq_zero, Bool.toNat_eq_zero, decide_eq_false_iff_not]
    omega
  have hmask : ∀ x : Nat, x &&& 0xFFFF = x % 2 ^ 16 := fun x => Nat.and_two_pow_sub_one_eq_mod x 16
  rw [hmask, hmask, Nat.shiftLeft_eq, pow_one, mul_comm c 2]
  unfold crc16Shift
  by_cases h : c < 0x8000
  · rw [if_pos (htop.mpr h), if_pos h]; omega
  · rw [if_neg (mt htop.mp h), if_neg h, xor_poly_eq_mod hc h]

/-- Steps that agree below a bound which they keep agree when repeated. -/
theorem bitStep_congr {f g : Nat → Nat} {b : Nat} (h : ∀ c < b, f c = g c) (hg : ∀ c < b, g c < b) (n : Nat) {c : Nat} (hc : c < b) :
    bitStep f n c = bitStep g n c ∧ bitStep g n c < b := by
  induction n generalizing c with
  | zero => exact ⟨rfl, hc⟩
  | succ n ih => rw [bitStep, bitStep, h c hc]; exact ih (hg c hc)

/-- What a byte does to the register. -/
def crc16Byte (c : Nat) (b : Byte) : Nat := bitStep crc16Shift 8 (c ^^^ (b.toNat * 256))

theorem crc16Byte_eq_shifts (c : Nat) (b : Byte) : crc16Byte c b = crc16Shift (crc16Shift (crc16Shift (crc16Shift
    (crc16Shift (crc16Shift (crc16Shift (crc16Shift (c ^^^ (b.toNat * 256))))))))) := by
  simp only [crc16Byte, bitStep]

theorem xor_byte_lt {c : Nat} (hc : c < 0x10000) (b : Byte) : c ^^^ (b.toNat * 256) < 0x10000 :=
  Nat.xor_lt_two_pow (n := 16) hc (by have := b.isLt; omega)

theorem crc16Byte_lt {c : Nat} (hc : c < 0x10000) (b : Byte) : crc16Byte c b < 0x10000 :=
  (bitStep_congr (fun _ _ => rfl) (fun _ h => crc16Shift_lt h) 8 (xor_byte_lt hc b)).2

theorem crc16_append_of_lt {l : List Byte} (hl : crc16 l < 0x10000) (b : Byte) : crc16 (l ++ [b]) = crc16Byte (crc16 l) b := by
  rw [crc16, List.foldl_append, List.foldl_cons, List.foldl_nil, ← crc16, Nat.shiftLeft_eq]
  exact (bitStep_congr (fun _ h => maskedStep_eq_shift h) (fun _ h => crc16Shift_lt h) 8 (xor_byte_lt hl b)).1

/-- The register keeps to 16 bits. -/
theorem crc16_lt (l : List Byte) : crc16 l < 0x10000 := by
  induction l using List.reverseRecOn with
  | nil => decide
  | append_singleton l b ih => rw [crc16_append_of_lt ih]; exact crc16Byte_lt ih b

theorem crc16_append (l : List Byte) (b : Byte) : crc16 (l ++ [b]) = crc16Byte (crc16 l) b := crc16_append_of_lt (crc16_lt l) b

/-! ### Bytes as a number -/

@[simp] theorem length_leBytes (n v : Nat) : (leBytes n v).length = n := by
  induction n generalizing v with
  | zero => rfl
  | succ n ih => simp [leBytes, ih]

@[simp] theorem length_beBytes (n v : Nat) : (beBytes n v).length = n := by simp [beBytes]

theorem beNat_append_singleton (a : List Byte) (x : Byte) : beNat (a ++ [x]) = beNat a * 256 + x.toNat := by
  rw [beNat, List.foldl_append]; rfl

theorem beNat_append (a b : List Byte) : beNat (a ++ b) = beNat a * 256 ^ b.length + beNat b := by
  induction b using List.reverseRecOn with
  | nil => simp [beNat]
  | append_singleton b x ih =>
    rw [← List.append_assoc, beNat_append_singleton, beNat_append_singleton, ih, List.length_append, List.length_singleton]
    ring

theorem beNat_beBytes (n v : Nat) : beNat (beBytes n v) = v % 256 ^ n := by
  induction n generalizing v with
  | zero => simp [beBytes, leBytes, beNat, Nat.mod_one]
  | succ n ih =>
    rw [beBytes, leBytes, List.reverse_cons, beNat_append_singleton]
    change beNat (beBytes n (v / 256)) * 256 + _ = _
    rw [ih, BitVec.toNat_ofNat, pow_succ' 256, Nat.mod_mul]
    omega

/-! ### The header -/

theorem length_hdrBytes (h : Hdr) : (hdrBytes h).length = 14 := by simp [hdrBytes]

theorem toNat_hcrcOf (h : Hdr) : (hcrcOf h).toNat = crc16 (hdrBytes h) := by
  rw [hcrcOf, BitVec.toNat_ofNat]; exact Nat.mod_eq_of_lt (crc16_lt _)

theorem flag_le_one (x : Bool) : (if x then 1 else 0 : Nat) ≤ 1 := by cases x <;> decide

/-- Bytes 0 to 13 of the header, byte 0 first, as one number (02 Table 2-4). -/
theorem beNat_hdrBytes (h : Hdr) :
    (let n := fun (x : Bool) => if x then 1 else 0
     beNat (hdrBytes h) = h.dst.toNat * 2 ^ 80 + h.src.toNat * 2 ^ 48
      + (h.ver.toNat * 4096 + h.opc.toNat * 256 + h.vl.toNat * 32 + n h.spec * 16 + n h.ce * 8 + h.colour.toNat * 2 + n h.ext) * 2 ^ 32
      + (n h.ackreq * 32768 + n h.retx * 16384 + n h.first * 8192 + n h.last * 4096 + h.len.toNat) * 2 ^ 16 + h.tag.toNat) := by
  have hdst := h.dst.isLt
  have hsrc := h.src.isLt
  have hver := h.ver.isLt
  have hopc := h.opc.isLt
  have hvl := h.vl.isLt
  have hcolour := h.colour.isLt
  have hlen := h.len.isLt
  have htag := h.tag.isLt
  have := flag_le_one h.spec
  have := flag_le_one h.ce
  have := flag_le_one h.ext
  have := flag_le_one h.ackreq
  have := flag_le_one h.retx
  have := flag_le_one h.first
  have := flag_le_one h.last
  simp only [hdrBytes, beNat_append, beNat_beBytes, length_beBytes, put, Nat.shiftLeft_eq]
  omega

/-- Settles O6: the masked step of the model is the shift register's, so a byte at the end runs it eight times; the header's
bytes are its fields in the order of Table 2-4. -/
theorem hcrcIsThatOfTheManual : Obligations.HcrcIsThatOfTheManual := by
  unfold Obligations.HcrcIsThatOfTheManual
  intro shift
  have hshift : crc16Shift = shift := rfl
  refine ⟨rfl, fun l b => ⟨crc16_lt l, ?_⟩, by decide +kernel, fun h => ⟨toNat_hcrcOf h, length_hdrBytes h, beNat_hdrBytes h⟩⟩
  rw [crc16_append, crc16Byte_eq_shifts, hshift]

end Sys2Proof.Machine
end

section
/-! SUPPORT. Commands of links and of the data plane (01 Table 1-5; 03 R73): while no originated frame waits for cells, a command
that the module's state allows is its operation alone. -/
namespace Sys2Proof.Machine

/-- What `v` sees is the same after either branch. -/
theorem keeps_ite {β γ : Type} (v : β → γ) {p : Prop} [Decidable p] {a b : β} {c : γ} (ha : p → v a = c) (hb : ¬ p → v b = c) :
    v (if p then a else b) = c := by
  split
  · exact ha ‹_›
  · exact hb ‹_›

/-! ### Logical ports -/

theorem mset_mset_same {α : Type} (m : Map α) (k : Nat) (v w : α) : mset (mset m k v) k w = mset m k w := by
  induction m with
  | nil => simp [mset]
  | cons x t ih =>
    obtain ⟨i, u⟩ := x
    by_cases hi : i = k
    · simp [mset, hi]
    · by_cases hk : k < i
      · simp [mset, hi, hk]
      · simp [mset, hi, hk, ih]

variable (s : Body)

theorem lp_setLp (l m : Nat) (x : LPort) : (s.setLp l x).lp m = if m = l then x else s.lp m := by
  unfold Body.lp
  rw [Body.setLp_lports]
  split
  · subst_vars; exact mgetD_mset_same ..
  · exact mgetD_mset_other _ _ _ ‹_›

@[simp] theorem lp_setLp_same (l : Nat) (x : LPort) : (s.setLp l x).lp l = x := by rw [lp_setLp, if_pos rfl]

@[simp] theorem lp_modLp_same (l : Nat) (g : LPort → LPort) : (s.modLp l g).lp l = g (s.lp l) := lp_setLp_same ..

@[simp] theorem setLp_setLp (l : Nat) (x y : LPort) : (s.setLp l x).setLp l y = s.setLp l y :=
  congrArg (fun m => { s with lports := m }) (mset_mset_same ..)

theorem lp_of_quiet {a b : Body} (h : a.quiet = b.quiet) (l : Nat) : a.lp l = b.lp l := by
  unfold Body.lp; rw [lports_of_quiet h]

/-! ### When a command is its operation alone -/

theorem retryAll_of_none (h : s.fwc.origWait = []) : s.retryAll = s := by
  unfold Body.retryAll; rw [h]; rfl

variable {s : State} {l : Nat} {c : Instr} {f : Body → Body} {b : Body}

theorem becomes_of_body (hc : exec c s = onBody s f) (hb : f s.toBody = b) : becomes c s b := hb ▸ hc

/-- A link's command where links run. -/
theorem becomes_of_link (h : LinkReady s l) (hc : exec c s = onLink s l f) (hb : f s.toBody = b) (hw : b.fwc.origWait = []) :
    becomes c s b := by
  refine becomes_of_body (hc.trans (if_pos h.fitted)) ?_
  rw [if_pos h.lit, hb, retryAll_of_none b hw]

/-- A command of the data plane where it runs. -/
theorem becomes_of_data (h : DataReady s) (hc : exec c s = onData s f) (hb : f s.toBody = b) : becomes c s b.retryAll := by
  refine becomes_of_body hc ?_
  rw [if_pos h.runs, hb]

theorem becomes_of_dataPort (h : DataReady s) (hp : physOf l < s.hw.ports) (hc : exec c s = onDataPort s l f) (hb : f s.toBody = b) :
    becomes c s b.retryAll := becomes_of_data h (hc.trans (if_pos hp)) hb

theorem becomes_of_data_of_none (h : DataReady s) (hc : exec c s = onData s f) (hb : f s.toBody = b) (hw : b.fwc.origWait = []) :
    becomes c s b := retryAll_of_none b hw ▸ becomes_of_data h hc hb

theorem becomes_of_dataPort_of_none (h : DataReady s) (hp : physOf l < s.hw.ports) (hc : exec c s = onDataPort s l f) (hb : f s.toBody = b)
    (hw : b.fwc.origWait = []) : becomes c s b := becomes_of_data_of_none h (hc.trans (if_pos hp)) hb hw

/-- Where the data plane runs, links run (01 Table 1-5). -/
theorem DataReady.linkReady (h : DataReady s) (hp : physOf l < s.hw.ports) : LinkReady s l := by
  have hruns := h.runs
  simp only [Body.dataRuns, Bool.and_eq_true] at hruns
  exact ⟨hp, by simp [Body.linksRun, hruns.1], h.none_waits⟩

end Sys2Proof.Machine
end

section
/-! SUPPORT. Link messages and time requests (02 R66, R67; 13 R362). -/
namespace Sys2Proof.Machine

variable (s : Body) (l : Nat)

/-- A link message leaves in LCTRL from the module's own address, and its bytes join the port's frames. -/
theorem lctrl_sent (ws : List Nat) : Out.lctrl l s.own (ws.map (BitVec.ofNat 64)) ∈ (s.lctrl l ws).out
    ∧ ((s.lctrl l ws).lp l).tx = (s.lp l).tx ++ [{ copy := none, bytes := 24 + 8 * ws.length }] := by
  refine ⟨?_, congrArg LPort.tx (lp_modLp_same ..)⟩
  simp [Body.lctrl, Body.modLp]

variable {s l}

theorem timeReqOut_of_up (hg : s.isGateway (physOf l) = false) (hup : (s.lp l).state = .up) :
    s.timeReqOut l =
      (s.setLp l { s.lp l with timeId := (s.lp l).timeId + 1, timeOut := some ((s.lp l).timeId + 1, s.clock.ns, s.clock.frac) }).lctrl l
        [put 3 56 + put ((s.lp l).timeId + 1).toNat 48, s.clock.ns.toNat, put (fracOf (s.lp l) s.clock.frac) 48] := by
  simp [Body.timeReqOut, hg, hup]

theorem timeReqIn_of_talks (hg : s.isGateway (physOf l) = false) (ht : (s.lp l).talks = true) (w0 t1 : W64) (f1 : W16) (t2 : W64)
    (f2 : W16) :
    s.timeReqIn l w0 t1 f1 t2 f2 = s.lctrl l [put 4 56 + put (fld w0 55 48) 48, t1.toNat, t2.toNat, s.clock.ns.toNat,
      put (fracOf (s.lp l) f1) 48 + put (fracOf (s.lp l) f2) 32 + put (fracOf (s.lp l) s.clock.frac) 16 + put s.clock.dist.toNat 8
        + put (clkCode s.clock.state) 4] := by
  simp [Body.timeReqIn, hg, ht]

/-! ### Answers -/

/-- The body with other hall-time candidates. -/
def Body.setCands (s : Body) (m : Map Nat) : Body := { s with clock := { s.clock with cands := m } }

/-- A source that is not the parent changes the candidates alone (13 R362). -/
theorem offer_of_not_parent {p : Nat} (hp : s.clock.parent ≠ some p) (d : Option Nat) :
    s.offer p d = s.setCands (((d.filter (· ≤ s.profiles.inForce.maxDist)).map (mset s.clock.cands p)).getD (mdel s.clock.cands p)) := by
  unfold Body.offer
  cases d.filter (· ≤ s.profiles.inForce.maxDist) with
  | none => rfl
  | some d => simp only [if_neg hp]; rfl

theorem sampleFrom_of_not_parent {p : Nat} (hp : s.clock.parent ≠ some p) (offset : Int) : s.sampleFrom p offset = s :=
  if_neg fun h => hp h.1

/-- What an answer offers, its DIST at most MAX_DIST (02 Table 2-15; 13 R362). -/
theorem offered_filter {x : LPort} (hup : x.state = .up) (w : W64) (most : Nat) :
    (offered x (fld w 15 0)).filter (· ≤ most) =
      if isGroupAddr x.peerId = false ∧ adPod x.peerId = 511 ∧ fld w 7 4 = 1 ∧ fld w 15 8 + 1 ≤ most
      then some (fld w 15 8 + 1) else none := by
  have hlocked : fld w 15 0 / 16 % 16 = fld w 7 4 := by simp only [fld, Nat.shiftRight_eq_div_pow]; omega
  have hdist : fld w 15 0 / 256 % 256 = fld w 15 8 := by simp only [fld, Nat.shiftRight_eq_div_pow]; omega
  simp only [offered, hup, hlocked, hdist, true_and, Bool.not_eq_eq_eq_not]
  split <;> simp_all [Option.filter]

/-- The candidates after an answer: its DIST and one for its port, or no entry (13 R362). -/
theorem cands_offered {x : LPort} (hup : x.state = .up) (w : W64) (most : Nat) (m : Map Nat) :
    (((offered x (fld w 15 0)).filter (· ≤ most)).map (mset m l)).getD (mdel m l) =
      (let d := fld w 15 8 + 1
       if isGroupAddr x.peerId = false ∧ adPod x.peerId = 511 ∧ fld w 7 4 = 1 ∧ d ≤ most then mset m l d else mdel m l) := by
  rw [offered_filter hup]
  dsimp only
  split <;> rfl

section answer
variable {id : Byte} {t1 t4 : W64} {f1 f4 : W16} {w : List W64} (hout : (s.lp l).timeOut = some (id, t1, f1))
include hout

theorem timeRespIn_of_other (hid : fld (nth w 0 0) 55 48 ≠ id.toNat) : s.timeRespIn l w t4 f4 = s := by
  have hguard : (s.isGateway (physOf l) || (s.lp l).state != .up || fld (nth w 0 0) 55 48 != id.toNat) = true := by
    simp only [bne_iff_ne.mpr hid, Bool.or_true]
  unfold Body.timeRespIn
  simp only [hout]
  rw [if_pos hguard]

variable (hg : s.isGateway (physOf l) = false) (hup : (s.lp l).state = .up) (hid : fld (nth w 0 0) 55 48 = id.toNat)
include hg hup hid

theorem timeRespIn_of_late (hlate : t1.toNat * 65536 + fracOf (s.lp l) f1 + 10000 * 65536 < t4.toNat * 65536 + fracOf (s.lp l) f4) :
    s.timeRespIn l w t4 f4 = s.setLp l { s.lp l with timeOut := none } := by
  have hguard : ¬ (s.isGateway (physOf l) || (s.lp l).state != .up || fld (nth w 0 0) 55 48 != id.toNat) = true := by
    rw [hg, hup, hid]; simp
  have hd : stamp t4 (fracOf (s.lp l) f4) - stamp t1 (fracOf (s.lp l) f1) > 10000 * 65536 := by simp only [stamp]; omega
  unfold Body.timeRespIn
  simp only [hout]
  rw [if_neg hguard, if_pos hd]

/-- An answer in time from a port that is not the parent: what the far end offers is a candidate, or none. -/
theorem timeRespIn_of_in_time (hintime : t4.toNat * 65536 + fracOf (s.lp l) f4 ≤ t1.toNat * 65536 + fracOf (s.lp l) f1 + 10000 * 65536)
    (hp : s.clock.parent ≠ some l) :
    s.timeRespIn l w t4 f4 = (s.setLp l { s.lp l with timeOut := none }).offer l (offered (s.lp l) (fld (nth w 4 0) 15 0)) := by
  have hguard : ¬ (s.isGateway (physOf l) || (s.lp l).state != .up || fld (nth w 0 0) 55 48 != id.toNat) = true := by
    rw [hg, hup, hid]; simp
  have hd : ¬ stamp t4 (fracOf (s.lp l) f4) - stamp t1 (fracOf (s.lp l) f1) > 10000 * 65536 := by simp only [stamp]; omega
  have hoffer := offer_of_not_parent (s := s.setLp l { s.lp l with timeOut := none }) (p := l) hp
    (offered (s.lp l) (fld (nth w 4 0) 15 0))
  unfold Body.timeRespIn
  simp only [hout]
  rw [if_neg hguard, if_neg hd, sampleFrom_of_not_parent (by rw [hoffer]; exact hp), ite_self]

end answer

/-- Settles O34: each clause is what its operation does, where links run and no originated frame waits. -/
theorem timeRequestsAreAnswered : Obligations.TimeRequestsAreAnswered := by
  intro s l h hg b x frac
  have hw := h.none_waits
  refine ⟨fun k ws => ⟨_, rfl, lctrl_sent b k ws⟩, fun hup => ⟨?request, fun w0 t1 f1 t2 f2 => ?reply,
    fun id t1 f1 w t4 f4 hout ht => ⟨fun hid => ?other, fun hid => ⟨fun hlate => ?late, fun hintime hp => ?inTime⟩⟩⟩⟩
  case request => exact becomes_of_link h (exec_timeReqSend s l) (timeReqOut_of_up hg hup) hw
  case reply => exact becomes_of_link h (exec_timeReq s l ..) (timeReqIn_of_talks hg (by simp [LPort.talks, x, b, hup]) ..) hw
  case other => exact becomes_of_link h (exec_timeResp s l ..) ((if_pos ht).trans (timeRespIn_of_other hout hid)) hw
  case late => exact becomes_of_link h (exec_timeResp s l ..) ((if_pos ht).trans (timeRespIn_of_late hout hg hup hid hlate)) hw
  case inTime =>
    have hbody := (timeRespIn_of_in_time hout hg hup hid hintime hp).trans (offer_of_not_parent (s := b.setLp l { x with timeOut := none }) hp _)
    refine ⟨_, becomes_of_link h (exec_timeResp s l ..) ((if_pos ht).trans hbody) hw, lp_setLp_same ..,
      cands_offered hup .., rfl, rfl⟩

end Sys2Proof.Machine
end

section
/-! SUPPORT. Buffered frames (03 R72, R79): reading a frame after the buffer has changed, and what the end of a frame leaves alone. -/
namespace Sys2Proof.Machine

variable (s : Body)

/-! ### Reading a frame -/

theorem fid_of_frame {s : Body} {fid : Nat} {f : BufFrame} (h : s.frame fid = some f) : f.fid = fid := by
  simpa using List.find?_some h

theorem frame_of_frames {a b : Body} (h : a.fwc.frames = b.fwc.frames) (fid : Nat) : a.frame fid = b.frame fid := by
  unfold Body.frame; rw [h]

theorem frame_of_fwc {a b : Body} (h : a.fwc = b.fwc) (fid : Nat) : a.frame fid = b.frame fid := frame_of_frames (congrArg Fwc.frames h) fid

/-- A frame put back in its place is read there. -/
theorem frame_setFrame {s : Body} {fid : Nat} {f g : BufFrame} (h : s.frame fid = some f) (hg : g.fid = fid) :
    (s.setFrame g).frame fid = some g := by
  unfold Body.frame at h ⊢
  simp only [Body.setFrame]
  generalize s.fwc.frames = fs at h ⊢
  induction fs with
  | nil => cases h
  | cons x t ih =>
    rw [List.map_cons, List.find?_cons]
    by_cases hx : x.fid = fid
    · rw [if_pos (hx.trans hg.symm), show (g.fid == fid) = true from beq_iff_eq.mpr hg]
    · have hne : (x.fid == fid) = false := beq_eq_false_iff_ne.mpr hx
      rw [List.find?_cons, hne] at h
      rw [if_neg (fun e => hx (e.trans hg)), hne]
      exact ih h

/-- A frame put in place of one of its number stands in the buffer. -/
theorem mem_setFrame {s : Body} {f g : BufFrame} (h : f ∈ s.fwc.frames) (hg : f.fid = g.fid) : g ∈ (s.setFrame g).fwc.frames :=
  List.mem_map.mpr ⟨f, h, if_pos hg⟩

/-! ### Operations that leave the buffer alone -/

/-- A frame with copies still to launch stays in the buffer. -/
theorem collect_of_copies {s : Body} {fid : Nat} {f : BufFrame} (h : s.frame fid = some f) (hc : f.copies ≠ 0) : s.collect fid = s := by
  unfold Body.collect
  simp [h, hc]

theorem confSettles_of_not_conf {f : BufFrame} (h : f.hdr.opc.toNat ≠ 7) (r : Rest) : s.confSettles f r = s :=
  if_pos (by simp [opConf, h])

/-- Counting toward a pair's rate changes the budget alone (10 R265). -/
theorem countC_eq_withBudget (h : Hdr) (x : BitVec 128) (peer : W32) : ∃ b, s.countC h x peer = s.withBudget b := by
  unfold Body.countC
  dsimp only
  split
  · exact ⟨_, rfl⟩
  · exact ⟨s.budget, rfl⟩

theorem mem_mset {α : Type} {m : Map α} {k : Nat} {v : α} {x : Nat × α} (h : x ∈ mset m k v) : x = (k, v) ∨ x ∈ m := by
  induction m with
  | nil => exact .inl (List.mem_singleton.mp h)
  | cons y t ih =>
    obtain ⟨i, w⟩ := y
    unfold mset at h
    split at h
    · exact (List.mem_cons.mp h).imp_right (List.mem_cons_of_mem _)
    · split at h
      · exact List.mem_cons.mp h
      · rcases List.mem_cons.mp h with rfl | h
        · exact .inr List.mem_cons_self
        · exact (ih h).imp_right (List.mem_cons_of_mem _)

/-- A logical port is one that is kept, or one at its reset values. -/
theorem lp_mem_or_default (l : Nat) : (l, s.lp l) ∈ s.lports ∨ s.lp l = {} := by
  unfold Body.lp mgetD
  cases h : mget s.lports l with
  | none => exact .inr rfl
  | some x => exact .inl (mem_of_mget h)

/-- Where no port launches a frame, none does after a change that starts no launch. -/
theorem launch_ne_of_setLp {s : Body} {l fid : Nat} {x : LPort} (h : ∀ y ∈ s.lports, y.2.launch ≠ some fid)
    (hx : x.launch = (s.lp l).launch) : ∀ y ∈ (s.setLp l x).lports, y.2.launch ≠ some fid := by
  intro y hy
  rcases mem_mset hy with rfl | hy
  · rw [hx]
    rcases lp_mem_or_default s l with hm | hm
    · exact h _ hm
    · simp [hm]
  · exact h y hy

/-- The tail of a frame that no port launches, that no underrun has cut and that waits for no held port reaches the buffer alone. -/
theorem spreadTail_of_waiting {s : Body} {f : BufFrame} (hlaunch : ∀ x ∈ s.lports, x.2.launch ≠ some f.fid) (hunder : f.under = 0)
    (hheld : ∀ e ∈ s.tms.queue, e.copy.fid = f.fid → (s.lp e.lport).hold = none) (r : Rest) : s.spreadTail f r = s := by
  have hon : s.lports.filter (fun x => x.2.launch == some f.fid) = [] :=
    List.filter_eq_nil_iff.mpr fun x hx => by simpa using hlaunch x hx
  have hno : s.tms.queue.filter (fun e => e.copy.fid == f.fid && (s.lp e.lport).hold.isSome) = [] :=
    List.filter_eq_nil_iff.mpr fun e he => by
      simp only [Bool.and_eq_true, beq_iff_eq, not_and]
      intro hfid
      simp [hheld e he hfid]
  unfold Body.spreadTail
  simp only [hon, hunder, List.foldl_nil, List.range_zero, hno]
  rfl

end Sys2Proof.Machine
end

section
/-! SUPPORT. Tails (02 R48; 03 R83). -/
namespace Sys2Proof.Machine

variable {s : Body} {die : Nat} {h : Hdr} {x : BitVec 128} {r : Rest}

theorem length_payload_fitRest (h : Hdr) (r : Rest) : (fitRest h r).payload.length = h.len.toNat := by
  simp [fitRest]; omega

/-! ### The judgement of a tail -/

theorem judgeTail_of_good (hcrc : Rest.crcGood r h x = true) (hst : r.status.toNat ≤ 3) : s.judgeTail die h x r = (r, s) := by
  unfold Body.judgeTail
  simp [hcrc, Nat.not_lt.mpr hst]

theorem judgeTail_of_reserved (hcrc : Rest.crcGood r h x = true) (hst : 3 < r.status.toNat) :
    s.judgeTail die h x r = ({ r with status := 1 }, s) := by
  unfold Body.judgeTail
  have hnot : r.status.toNat ≠ tChkfail := by simp only [tChkfail]; omega
  simp [hcrc, hst, hnot]

theorem judgeTail_of_bad_crc (hcrc : Rest.crcGood r h x = false) :
    s.judgeTail die h x r = ({ r with status := if r.status = 2 then 2 else 1 }, s.bump .framePoisoned die) := by
  have hchk : r.status.toNat = tChkfail ↔ r.status = 2 := BitVec.toNat_inj (y := 2)
  unfold Body.judgeTail
  simp only [hcrc, hchk]
  by_cases hst : r.status = 2
  · obtain ⟨_, _, _, _, status⟩ := r
    obtain rfl : status = 2 := hst
    simp
  · simp only [if_neg hst]
    simp

/-- The judgement changes nothing but counters. -/
theorem judgeTail_keeps : ((s.judgeTail die h x r).2).quiet = s.quiet := by
  by_cases hcrc : Rest.crcGood r h x = true
  · by_cases hst : r.status.toNat ≤ 3
    · rw [judgeTail_of_good hcrc hst]
    · rw [judgeTail_of_reserved hcrc (Nat.lt_of_not_le hst)]
  · rw [judgeTail_of_bad_crc (Bool.eq_false_iff.mpr hcrc), quiet_bump]

/-! ### Counters -/

theorem countIn_bumpIn (m : List (Ctr × Nat × Nat)) (c : Ctr) (i n : Nat) : countIn (bumpIn m c i n) c i = (countIn m c i + n) % 2 ^ 64 := by
  induction m with
  | nil => simp [bumpIn, countIn]
  | cons y t ih =>
    obtain ⟨c', i', v⟩ := y
    by_cases hy : c' = c ∧ i' = i
    · simp [bumpIn, countIn, hy]
    · simp [bumpIn, countIn, hy, ih]

/-- A counter that no sample is taken of: its count rises by one (13 R357). -/
theorem count_bump {c : Ctr} (hc : c.perSett = false) (i : Nat) : (s.bump c i).count c i = (s.count c i + 1) % 2 ^ 64 := by
  unfold Body.bump Body.bumpBy
  rw [hc]
  exact countIn_bumpIn ..

/-! ### The tail of an arriving frame -/

section arriving
variable {l fid : Nat} {g : BitVec 12} {f : BufFrame}
variable (hrx : (s.lp l).rxFid = some fid)
include hrx

theorem tail_of_other_group (hg : g ≠ (s.lp l).rxNext ∨ (s.lp l).badGroup = true) : s.tail l g r = s := by
  have hguard : ((s.lp l).badGroup || g != (s.lp l).rxNext) = true := by
    rcases hg with hg | hg <;> simp [hg]
  unfold Body.tail
  simp only [hrx, hguard, if_true]

/-- The port after the tail: no frame is arriving on it. -/
def LPort.tailed (x : LPort) (fid : Nat) : LPort := { x with rxFid := none, rxTails := x.rxTails ++ [fid] }

variable (hf : s.frame fid = some f)
include hf

/-- What a tail leaves of a frame that waits whole in the module: it is kept as judged, and a record's or result's bytes count
toward its pair's rate. -/
theorem tail_keeps_judged (hg : g = (s.lp l).rxNext) (hgood : (s.lp l).badGroup = false) (hlctrl : f.hdr.opc.toNat ≠ 10)
    (hconf : f.hdr.opc.toNat ≠ 7) (hcopies : f.copies ≠ 0) (hunder : f.under = 0) (hlaunch : ∀ x ∈ s.lports, x.2.launch ≠ some fid)
    (hheld : ∀ e ∈ s.tms.queue, e.copy.fid = fid → (s.lp e.lport).hold = none) :
    ∃ m, s.tail l g r =
      (let j := (s.setLp l ((s.lp l).tailed fid)).judgeTail f.die f.hdr f.ext (fitRest f.hdr r)
       (j.2.setFrame { f with rest := some j.1 }).withBudget m) := by
  obtain rfl := fid_of_frame hf
  set j := (s.setLp l ((s.lp l).tailed f.fid)).judgeTail f.die f.hdr f.ext (fitRest f.hdr r) with hj
  have hquiet : j.2.quiet = (s.setLp l ((s.lp l).tailed f.fid)).quiet := judgeTail_keeps
  have hkept : (j.2.setFrame { f with rest := some j.1 }).frame f.fid = some { f with rest := some j.1 } :=
    frame_setFrame ((frame_of_fwc (fwc_of_quiet hquiet) f.fid).trans hf) rfl
  have hbudget : ∃ m, (if f.here.isSome then (j.2.setFrame { f with rest := some j.1 }).countC f.hdr f.ext f.hdr.src
      else j.2.setFrame { f with rest := some j.1 }) = (j.2.setFrame { f with rest := some j.1 }).withBudget m := by
    split
    · exact countC_eq_withBudget ..
    · exact ⟨_, rfl⟩
  obtain ⟨m, hm⟩ := hbudget
  have hspread := spreadTail_of_waiting (s := (j.2.setFrame { f with rest := some j.1 }).withBudget m) (f := f)
    (by
      show ∀ x ∈ j.2.lports, _
      rw [lports_of_quiet hquiet]
      exact launch_ne_of_setLp hlaunch rfl)
    hunder
    (by
      intro e he hfid
      have he : e ∈ s.tms.queue := by
        have : e ∈ j.2.tms.queue := he
        rwa [tms_of_quiet hquiet] at this
      show (j.2.lp e.lport).hold = none
      rw [lp_of_quiet hquiet, lp_setLp]
      split
      · rename_i hl; rw [← hl]; exact hheld e he hfid
      · exact hheld e he hfid) j.1
  refine ⟨m, ?_⟩
  have hguard : ((s.lp l).badGroup || g != (s.lp l).rxNext) = false := by simp [hg, hgood]
  have hwhole : ({ f with rest := some j.1, under := 0 } : BufFrame) = { f with rest := some j.1 } := by rw [← hunder]
  unfold Body.tail
  simp only [hrx, hguard, hf, if_neg hlctrl]
  show Body.collect (Body.confSettles (Body.spreadTail (if f.here.isSome then
    (j.2.setFrame { f with rest := some j.1, under := 0 }).countC f.hdr f.ext f.hdr.src
    else j.2.setFrame { f with rest := some j.1, under := 0 }) f j.1) f j.1) f.fid = _
  rw [hwhole, hm, hspread, confSettles_of_not_conf _ hconf]
  exact collect_of_copies hkept hcopies

end arriving

/-- Settles O37: the tail is judged once, and the frame keeps what the judgement leaves. -/
theorem tailsSettleFrames : Obligations.TailsSettleFrames := by
  intro s l g r fid f h hp b r1 hrx hf hlctrl hconf hcopies hunder hlaunch hheld
  refine ⟨fun hg => ?other, fun hg hgood => ?tail⟩
  case other => exact becomes_of_dataPort_of_none h hp (exec_frameTailArrival s ⟨l, g⟩ r) (tail_of_other_group hrx hg) h.none_waits
  case tail =>
    obtain ⟨m, hm⟩ := tail_keeps_judged (s := b) (r := r) hrx hf hg hgood hlctrl hconf hcopies hunder hlaunch hheld
    set b1 := b.setLp l ((b.lp l).tailed fid) with hb1
    have hquiet : (b1.judgeTail f.die f.hdr f.ext r1).2.quiet = b1.quiet := judgeTail_keeps
    have hfwc := fwc_of_quiet hquiet
    have hwait : (b1.judgeTail f.die f.hdr f.ext r1).2.fwc.origWait = [] := by rw [hfwc]; exact h.none_waits
    have htms : (b1.judgeTail f.die f.hdr f.ext r1).2.tms = b1.tms := tms_of_quiet hquiet
    have hport : (b1.judgeTail f.die f.hdr f.ext r1).2.lp l = (b.lp l).tailed fid := by rw [lp_of_quiet hquiet, lp_setLp_same]
    have hfid : f.fid = fid := fid_of_frame hf
    have hframe : ∀ r2 : Rest, ((b1.judgeTail f.die f.hdr f.ext r1).2.setFrame { f with rest := some r2 }).frame fid =
        some { f with rest := some r2 } := fun r2 =>
      frame_setFrame ((frame_of_fwc hfwc fid).trans hf) hfid
    refine ⟨_, becomes_of_dataPort_of_none h hp (exec_frameTailArrival s ⟨l, g⟩ r) hm hwait, congrArg LPort.rxFid hport, htms,
      length_payload_fitRest .., fun hcrc hst => ?good, fun hcrc hst => ?reserved, fun hcrc => ?bad⟩
    case good => exact ⟨(hframe _).trans (by rw [judgeTail_of_good hcrc hst]), congrArg (·.2.counters) (judgeTail_of_good hcrc hst)⟩
    case reserved => exact (hframe _).trans (by rw [judgeTail_of_reserved hcrc hst])
    case bad =>
      refine ⟨(hframe _).trans (by rw [judgeTail_of_bad_crc hcrc]), ?_⟩
      show Body.count (b1.judgeTail f.die f.hdr f.ext r1).2 .framePoisoned f.die = _
      rw [judgeTail_of_bad_crc hcrc]
      exact count_bump rfl _

end Sys2Proof.Machine
end

section
/-! SUPPORT. Gateway learning and lookup (04 R115-R119) touch the Gateway table and its own counts alone, and taking a frame without
credit (03 R77, R78) touches the buffer and its port's accounts alone. -/
namespace Sys2Proof.Machine

variable (s : Body)

/-! ### The Gateway table -/

/-- The body without its reports and without what learning and lookups write. -/
def Body.sansGw (s : Body) : Body := { s.quiet with tables := { s.tables with gw := {}, learned := [], rehashAt := [] } }

theorem sansGw_of_quiet {a b : Body} (h : a.quiet = b.quiet) : a.sansGw = b.sansGw := by
  unfold Body.sansGw; rw [h, tables_of_quiet h]

theorem sansGw_rehashRequest (table : Nat) (bank : Bool) : (s.rehashRequest table bank).2.sansGw = s.sansGw := by
  unfold Body.rehashRequest Body.rand32
  dsimp only
  exact keeps_ite (fun p : W32 × Body => p.2.sansGw) (fun _ => rfl) fun _ =>
    Eq.trans (sansGw_of_quiet (quiet_emit _ _ _)) rfl

theorem sansGw_learn (die : Nat) (e : BitVec 512) : (s.learn die e).sansGw = s.sansGw := by
  have hroom : ∀ (t : Body) (bank : Bool), ((t.bump .gwLearnNoRoom die).rehashRequest 5 bank).2.sansGw = t.sansGw := fun t _ =>
    (sansGw_rehashRequest ..).trans (sansGw_of_quiet (quiet_bump t _ _))
  unfold Body.learn
  dsimp only
  refine keeps_ite Body.sansGw (fun _ => sansGw_of_quiet (quiet_bump s _ _)) fun _ => ?_
  split
  · rfl
  · exact hroom ..
  · exact hroom ..

theorem sansGw_gwLookup (k : BitVec 512) : (s.gwLookup k).2.sansGw = s.sansGw := by
  unfold Body.gwLookup
  split <;> rfl

section view
variable {a b : Body} (h : a.sansGw = b.sansGw)
include h

theorem fwc_of_sansGw : a.fwc = b.fwc := by
  show a.sansGw.fwc = b.sansGw.fwc; rw [h]

theorem tms_of_sansGw : a.tms = b.tms := by
  show a.sansGw.tms = b.sansGw.tms; rw [h]

theorem lp_of_sansGw (l : Nat) : a.lp l = b.lp l := by
  show a.sansGw.lp l = b.sansGw.lp l; rw [h]

theorem isGateway_of_sansGw (p : Nat) : a.isGateway p = b.isGateway p := by
  show a.sansGw.isGateway p = b.sansGw.isGateway p; rw [h]

theorem ethClass_of_sansGw (g : Nat) (pcp : Option (BitVec 3)) : a.ethClass g pcp = b.ethClass g pcp := by
  show a.sansGw.ethClass g pcp = b.sansGw.ethClass g pcp; rw [h]

theorem poolOk_of_sansGw (l c n : Nat) : a.poolOk l c n = b.poolOk l c n := by
  show a.sansGw.poolOk l c n = b.sansGw.poolOk l c n; rw [h]

theorem destOf_of_sansGw (hd : Hdr) (x : BitVec 128) : a.destOf hd x = b.destOf hd x := by
  show a.sansGw.destOf hd x = b.sansGw.destOf hd x; rw [h]

end view

/-! ### Frames without credit -/

/-- The body with other accounts of a port's frames without credit, and more of what has left. -/
def Body.setUncred (s : Body) (l : Nat) (u off : List Nat) (o : List Out) : Body :=
  { s.setLp l { s.lp l with uncred := u, pfcOff := off } with out := o }

theorem uncredit_eq_setUncred (l c : Nat) (up : Bool) (n : Nat) : ∃ u off o, s.uncredit l c up n = s.setUncred l u off o := by
  unfold Body.uncredit Body.pfcCheck
  extract_lets x v x1 on k
  have hx : x1 = { s.lp l with uncred := setNth x.uncred c v } := lp_setLp_same ..
  rw [hx]
  split
  · exact ⟨_, _, _, rfl⟩
  · split
    · exact ⟨_, _, _, congrArg (fun b : Body => b.putOut _) (setLp_setLp ..)⟩
    · split
      · exact ⟨_, _, _, congrArg (fun b : Body => b.putOut _) (setLp_setLp ..)⟩
      · exact ⟨_, _, _, rfl⟩

/-- A frame taken without credit stands last in the buffer; its port's accounts and its die's pool pay for it. -/
theorem takeUncred_eq (l : Nat) (f : BufFrame) : ∃ pools u off o, s.takeUncred l f =
    ({ s with fwc := { s.fwc with pools, frames := s.fwc.frames ++ [f], nextFid := f.fid + 1 } } : Body).setUncred l u off o := by
  obtain ⟨u, off, o, h⟩ := uncredit_eq_setUncred
    ((s.setPool f.die { s.pool f.die with shared := (s.pool f.die).shared - f.cells }).addFrame f) l (uncredClass f) true f.cells
  exact ⟨_, u, off, o, h⟩

end Sys2Proof.Machine
end

section
/-! SUPPORT. ALP over UDP (02 R68-R70; 04 R116): what each check makes of a datagram for the group's port. -/
namespace Sys2Proof.Machine

variable {s : Body} {l : Nat} {u : Udp}

theorem sansGw_learnUdp : (s.learnUdp l u).sansGw = s.sansGw := sansGw_learn ..

section forPort
variable (hg : s.isGateway (physOf l) = true) (hup : (s.lp l).state = .up) (hport : u.dstPort.toNat = s.udpPort (physOf l / 8))
include hg hup hport

theorem datagram_guard : ¬ (!s.isGateway (physOf l) || (s.lp l).state != .up || u.dstPort.toNat != s.udpPort (physOf l / 8)) = true := by
  rw [hg, hup, hport]; simp

theorem datagram_of_bars {c : Ctr} (hbars : s.udpBars (physOf l / 8) u = some c) : s.datagram l u = s.bump c l := by
  unfold Body.datagram
  dsimp only
  rw [if_neg (datagram_guard hg hup hport), hbars]

variable (hbars : s.udpBars (physOf l / 8) u = none) (hcrc : u.hdr.hcrc = hcrcOf u.hdr) (hhdr : hdrBars u.hdr = none)
include hbars hcrc hhdr

theorem datagram_of_too_big (hbig : s.alpMtu (physOf l / 8) < u.bytes) :
    s.datagram l u = s.nack (dieOf l) u.hdr nkTooBig (s.alpMtu (physOf l / 8)) := by
  unfold Body.datagram
  dsimp only
  rw [if_neg (datagram_guard hg hup hport), hbars]
  dsimp only
  rw [if_neg (by simp [hcrc]), hhdr]
  exact if_pos hbig

variable (hfits : u.bytes ≤ s.alpMtu (physOf l / 8))
include hfits

theorem datagram_of_wrong_source (hsrc : s.srcMatches (physOf l / 8) u = false) :
    s.datagram l u = s.bump .gwSrcMismatch (physOf l / 8) := by
  unfold Body.datagram
  dsimp only
  rw [if_neg (datagram_guard hg hup hport), hbars]
  dsimp only
  rw [if_neg (by simp [hcrc]), hhdr]
  dsimp only
  rw [if_neg (Nat.not_lt.mpr hfits), if_pos (by simp [hsrc])]

/-- The frame that a datagram without marks brings, its tail good. -/
def udpFrame (u : Udp) (l fid : Nat) (w : Local) : BufFrame :=
  { fid, origin := .udp l, die := dieOf l, hdr := u.hdr, ext := if u.hdr.ext then u.ext else 0, rest := some (fitRest u.hdr u.rest)
    cells := frameCells u.hdr, copies := 1, here := some w }

/-- A frame for a local function of the module is taken into the buffer for it. -/
theorem datagram_of_local {w : Local} (hsrc : s.srcMatches (physOf l / 8) u = true) (hconf : u.hdr.opc.toNat ≠ 7)
    (hce : u.ecnCe = false) (hst : (fitRest u.hdr u.rest).status.toNat ≤ 3)
    (hgood : Rest.crcGood (fitRest u.hdr u.rest) u.hdr (if u.hdr.ext then u.ext else 0) = true)
    (hdest : s.destOf u.hdr (if u.hdr.ext then u.ext else 0) = .loc w)
    (hpool : s.poolOk l u.hdr.vl.toNat (frameCells u.hdr) = true) :
    s.datagram l u = (s.learnUdp l u).takeUncred l (udpFrame u l s.fwc.nextFid w) := by
  have hkept : (s.learnUdp l u).sansGw = s.sansGw := sansGw_learnUdp
  rw [← destOf_of_sansGw hkept] at hdest
  rw [← poolOk_of_sansGw hkept] at hpool
  rw [← fwc_of_sansGw hkept]
  have hhdr' : (if u.ecnCe = true ∧ (!u.hdr.ce) = true then sealHdr { u.hdr with ce := true } else u.hdr) = u.hdr :=
    if_neg fun h => by simp [hce] at h
  unfold Body.datagram
  dsimp only
  rw [if_neg (datagram_guard hg hup hport), hbars]
  dsimp only
  rw [if_neg (by simp [hcrc]), hhdr]
  dsimp only
  rw [if_neg (Nat.not_lt.mpr hfits), if_neg (by simp [hsrc]), hhdr', judgeTail_of_good hgood hst]
  dsimp only
  rw [confSettles_of_not_conf _ hconf, hdest]
  exact if_pos hpool

end forPort

/-- Settles O40: the checks in their order, then the frame for a local function in the buffer. -/
theorem datagramsArrive : Obligations.DatagramsArrive := by
  intro s l u h hp hg b g hup hport
  have hc := exec_alpOverUdpDatagram s l u
  have hwait : ∀ c i, (b.bump c i).fwc.origWait = [] := fun c i => by rw [fwc_of_quiet (quiet_bump b c i)]; exact h.none_waits
  refine ⟨fun c hbars => ?bars, fun hbars hcrc hhdr hbig => ?big, fun hbars hcrc hhdr hfits => ⟨fun hsrc => ?source,
    fun w hsrc hconf hce hst hgood hdest hpool => ?local_⟩⟩
  case bars => exact becomes_of_dataPort_of_none h hp hc (datagram_of_bars hg hup hport hbars) (hwait ..)
  case big => exact becomes_of_dataPort h hp hc (datagram_of_too_big hg hup hport hbars hcrc hhdr hbig)
  case source =>
    exact becomes_of_dataPort_of_none h hp hc (datagram_of_wrong_source hg hup hport hbars hcrc hhdr hfits hsrc) (hwait ..)
  case local_ =>
    have hkept : (b.learnUdp l u).sansGw = b.sansGw := sansGw_learnUdp
    have hfwc := fwc_of_sansGw hkept
    have htms := tms_of_sansGw hkept
    obtain ⟨pools, uncred, off, o, htake⟩ := takeUncred_eq (b.learnUdp l u) l (udpFrame u l b.fwc.nextFid w)
    have hbody := (datagram_of_local hg hup hport hbars hcrc hhdr hfits hsrc hconf hce hst hgood hdest hpool).trans htake
    refine ⟨_, becomes_of_dataPort_of_none h hp hc hbody ?_, rfl, htms, List.mem_append_right _ List.mem_cons_self⟩
    exact (congrArg Fwc.origWait hfwc).trans h.none_waits

end Sys2Proof.Machine
end

section
/-! SUPPORT. Queues (03 R91; 05 R127, R137, R139): choosing, metering and marking change the traffic manager's streams, averages, marks
and limiters alone (`Body.sansMarks`). -/
namespace Sys2Proof.Machine

variable (s : Body)

/-- The body without its reports, its stream descriptors and the marks, averages and limiters of its queues, and its draws. -/
def Body.sansMarks (s : Body) : Body :=
  { s.quiet with fwc := { s.fwc with drawIdx := [] }
                 tms := { s.tms with streams := [], profHwm := [], avg := [], classHwm := [], classLim := [], classDef := [] } }

theorem sansMarks_of_quiet {a b : Body} (h : a.quiet = b.quiet) : a.sansMarks = b.sansMarks := by
  unfold Body.sansMarks; rw [h, fwc_of_quiet h, tms_of_quiet h]

@[simp] theorem sansMarks_bump (c : Ctr) (i : Nat) : (s.bump c i).sansMarks = s.sansMarks := sansMarks_of_quiet (quiet_bump ..)

/-! ### Draws (04 R104) -/

@[simp] theorem sansMarks_spray (die : Nat) (e : PathEntry) (m : BitVec 512) : (s.spray die e m).2.sansMarks = s.sansMarks := by
  unfold Body.spray
  generalize s.candidates e m = p
  obtain ⟨cs, standby⟩ := p
  dsimp only
  have hstandby : (if standby then s.bump .sprayStandby die else s).sansMarks = s.sansMarks :=
    keeps_ite Body.sansMarks (fun _ => sansMarks_bump ..) fun _ => rfl
  generalize (if standby then s.bump .sprayStandby die else s) = s1 at hstandby ⊢
  split
  · exact (sansMarks_bump ..).trans hstandby
  · exact hstandby

/-! ### Streams (05 R126, R127) -/

@[simp] theorem sansMarks_freeStream (x : Stream) : (s.freeStream x).sansMarks = s.sansMarks := rfl

@[simp] theorem sansMarks_sweepStreams (die : Nat) : (s.sweepStreams die).sansMarks = s.sansMarks := by
  unfold Body.sweepStreams
  extract_lets idle done s1
  have hdone : s1.sansMarks = s.sansMarks := foldl_keeps Body.sansMarks _ (fun b x => sansMarks_freeStream b x) _ _
  refine keeps_ite Body.sansMarks (fun _ => hdone) fun _ => ?_
  exact (foldl_keeps Body.sansMarks _ (fun b x => (sansMarks_bump ..).trans (sansMarks_freeStream b x)) _ _).trans hdone

@[simp] theorem sansMarks_takeStream (l c key prof : Nat) : (s.takeStream l c key prof).2.2.sansMarks = s.sansMarks := by
  unfold Body.takeStream
  extract_lets new s1
  refine keeps_ite (fun p : Nat × Nat × Body => p.2.2.sansMarks) (fun _ => rfl) fun _ => ?_
  refine keeps_ite (fun p : Nat × Nat × Body => p.2.2.sansMarks) (fun _ => rfl) fun _ => ?_
  exact keeps_ite Body.sansMarks (fun _ => sansMarks_bump ..) fun _ => sansMarks_bump s ..

/-! ### Congestion and meters (03 R91; 05 R137) -/

@[simp] theorem sansMarks_congJudge (die l c colour avg : Nat) : (s.congJudge die l c colour avg).2.sansMarks = s.sansMarks := by
  let v := fun p : CongAct × Body => p.2.sansMarks
  unfold Body.congJudge
  dsimp only
  exact keeps_ite v (fun _ => rfl) fun _ => keeps_ite v (fun _ => rfl) fun _ => keeps_ite v (fun _ => rfl) fun _ => rfl

@[simp] theorem sansMarks_meterBy (l c : Nat) (n : Node) (x : Limiter) (bytes colour : Nat) :
    (s.meterBy l c n x bytes colour).2.2.2.sansMarks = s.sansMarks := by
  unfold Body.meterBy
  refine keeps_ite (fun p : Nat × Bool × Limiter × Body => p.2.2.2.sansMarks) (fun _ => ?_) fun _ => rfl
  exact keeps_ite Body.sansMarks (fun _ => sansMarks_bump ..) fun _ => rfl

@[simp] theorem sansMarks_meter (l c key prof bytes colour : Nat) : (s.meter l c key prof bytes colour).2.2.sansMarks = s.sansMarks := by
  unfold Body.meter
  dsimp only
  refine keeps_ite (fun p : Nat × Bool × Body => p.2.2.sansMarks) (fun _ => sansMarks_meterBy s ..) fun _ => ?_
  refine keeps_ite Body.sansMarks (fun _ => ?_) fun _ => ?_
  · exact (sansMarks_meterBy _ ..).trans (sansMarks_meterBy s ..)
  · exact (sansMarks_meterBy _ ..).trans (sansMarks_meterBy s ..)

@[simp] theorem sansMarks_markOcc (l c key : Nat) : (s.markOcc l c key).sansMarks = s.sansMarks := rfl

section view
variable {a b : Body} (h : a.sansMarks = b.sansMarks)
include h

theorem lp_of_sansMarks (l : Nat) : a.lp l = b.lp l := by
  show a.sansMarks.lp l = b.sansMarks.lp l; rw [h]

theorem frames_of_sansMarks : a.fwc.frames = b.fwc.frames := by
  show a.sansMarks.fwc.frames = b.sansMarks.fwc.frames; rw [h]

theorem origWait_of_sansMarks : a.fwc.origWait = b.fwc.origWait := by
  show a.sansMarks.fwc.origWait = b.sansMarks.fwc.origWait; rw [h]

theorem queue_of_sansMarks : a.tms.queue = b.tms.queue := by
  show a.sansMarks.tms.queue = b.sansMarks.tms.queue; rw [h]

theorem nextSeq_of_sansMarks : a.tms.nextSeq = b.tms.nextSeq := by
  show a.sansMarks.tms.nextSeq = b.sansMarks.tms.nextSeq; rw [h]

theorem tables_of_sansMarks : a.tables = b.tables := by
  show a.sansMarks.tables = b.sansMarks.tables; rw [h]

end view

end Sys2Proof.Machine
end

section
/-! SUPPORT. Native Ethernet frames (02 R53; 03 R77; 04 R117): a frame enters its class queue where nothing presses back. -/
namespace Sys2Proof.Machine

/-! ### A calm class queue (03 R91; 05 R137) -/

theorem Calm.of_eq {a b : Body} {l c : Nat} (h : Calm a l c) (htms : b.tms = a.tms) (hcong : ∀ k, b.congProfile l c k = a.congProfile l c k)
    (hclass : b.classNode l c = a.classNode l c) (hstream : b.streamProfile 0 = a.streamProfile 0)
    (hhold : (b.lp l).hold = (a.lp l).hold) : Calm b l c where
  empty := htms ▸ h.empty
  average := htms ▸ h.average
  low k hk := by rw [hcong]; exact h.low k hk
  node := hclass ▸ h.node
  profile := hstream ▸ h.profile
  out := hhold ▸ h.out

/-- Learning and lookups leave a calm queue calm. -/
theorem Calm.of_sansGw {a b : Body} {l c : Nat} (h : Calm a l c) (hgw : b.sansGw = a.sansGw) : Calm b l c :=
  h.of_eq (tms_of_sansGw hgw) (fun k => by show b.sansGw.congProfile l c k = a.sansGw.congProfile l c k; rw [hgw])
    (by show b.sansGw.classNode l c = a.sansGw.classNode l c; rw [hgw])
    (by show b.sansGw.streamProfile 0 = a.sansGw.streamProfile 0; rw [hgw]) (congrArg LPort.hold (lp_of_sansGw hgw l))

variable {s : Body} {l c : Nat}

theorem depth_of_no_entry (h : ∀ e ∈ s.tms.queue, e.lport ≠ l) : s.depth l c = 0 := by
  unfold Body.depth
  generalize s.tms.queue = q at h
  induction q with
  | nil => rfl
  | cons e t ih =>
    rw [List.foldl_cons, if_neg fun he => h e List.mem_cons_self he.1]
    exact ih fun e he => h e (List.mem_cons_of_mem _ he)

theorem avgNext_zero (w : Nat) : avgNext w 0 0 = 0 := by simp [avgNext]

/-- The average of a calm queue stays 0. -/
theorem congAvg_of_calm (h : Calm s l c) (colour : Nat) : (s.congAvg l c colour).1 = 0 := by
  show avgNext _ (mgetD s.tms.avg (8 * l + c) 0) (s.depth l c) = 0
  rw [h.average, depth_of_no_entry h.empty, avgNext_zero]

theorem meterBy_of_no_mode {n : Node} (h : n.mode = 0) (x : Limiter) (bytes colour : Nat) :
    s.meterBy l c n x bytes colour = (colour, false, x, s) :=
  if_neg fun hp => by rw [h] at hp; exact absurd hp.1 (by decide)

/-- Where neither the stream's profile nor the class meters, no frame is dropped (05 R137). -/
theorem meter_of_no_modes {prof : Nat} (hs : (nodeOf (s.streamProfile prof)).mode = 0) (hc : (nodeOf (s.classNode l c)).mode = 0)
    (key bytes colour : Nat) : (s.meter l c key prof bytes colour).2.1 = false := by
  unfold Body.meter
  simp only [meterBy_of_no_mode hs, Bool.false_eq_true, if_false]
  exact congrArg (·.2.1) (meterBy_of_no_mode hc ..)

/-- Stream group 0 stands for itself. -/
theorem takeStream_zero : ∃ t, s.takeStream l c 0 0 = (0, 0, t) ∧ t.sansMarks = s.sansMarks := by
  have hkept := sansMarks_takeStream s l c 0 0
  have hkey : (s.takeStream l c 0 0).1 = 0 ∧ (s.takeStream l c 0 0).2.1 = 0 := by
    unfold Body.takeStream
    dsimp only
    split
    · exact ⟨rfl, rfl⟩
    · split <;> exact ⟨rfl, rfl⟩
  exact ⟨_, Prod.ext hkey.1 (Prod.ext hkey.2 rfl), hkept⟩

/-! ### Entering the queue (05 R126-R128) -/

/-- The body with one more entry at the end of the queues. -/
def Body.addEntry (s : Body) (q : QEntry) : Body := { s with tms := { s.tms with queue := s.tms.queue ++ [q], nextSeq := s.tms.nextSeq + 1 } }

theorem sansMarks_addEntry_congr {a b : Body} (h : a.sansMarks = b.sansMarks) (q : QEntry) :
    (a.addEntry q).sansMarks = (b.addEntry q).sansMarks := congrArg (fun x : Body => x.addEntry q) h

/-- Entry `q` is that of frame `fid` on class `c` of port `l`, next in the order of `s`. -/
structure EntryOf (s : Body) (q : QEntry) (fid l c : Nat) : Prop where
  lport : q.lport = l
  cls : q.cls = c
  fid : q.copy.fid = fid
  seq : q.seq = s.tms.nextSeq

/-- A native frame enters the class queue of a port that meters neither its class nor stream group 0 and is not held, beyond marks. -/
theorem enqueue_of_unmetered {f : BufFrame} {e : Eth} (heth : f.eth = some e) (hclass : (nodeOf (s.classNode l (s.classOn l f))).mode = 0)
    (hgroup : (nodeOf (s.streamProfile 0)).mode = 0) (hhold : (s.lp l).hold = none) (cp : Copy) :
    ∃ q, EntryOf s q cp.fid l (s.classOn l f) ∧ (s.enqueue f cp l).sansMarks = (s.addEntry q).sansMarks := by
  have hstream : s.streamOf f = (0, 0) := by
    unfold Body.streamOf
    rw [if_neg (by simp [heth])]
    simp [heth]
  obtain ⟨t, htake, ht⟩ := takeStream_zero (s := s) (l := l) (c := s.classOn l f)
  have hprofile : t.streamProfile 0 = s.streamProfile 0 := by unfold Body.streamProfile; rw [tables_of_sansMarks ht]
  have hnode : t.classNode l (s.classOn l f) = s.classNode l (s.classOn l f) := by unfold Body.classNode; rw [tables_of_sansMarks ht]
  have hdrop := meter_of_no_modes (s := t) (l := l) (c := s.classOn l f) (prof := 0) (hprofile ▸ hgroup) (hnode ▸ hclass)
    0 (t.wireBytes l f cp.repl) cp.colour.toNat
  have hmeter := sansMarks_meter t l (s.classOn l f) 0 0 (t.wireBytes l f cp.repl) cp.colour.toNat
  unfold Body.enqueue
  dsimp only
  rw [hstream]
  dsimp only
  rw [htake]
  dsimp only
  generalize t.meter l (s.classOn l f) 0 0 (t.wireBytes l f cp.repl) cp.colour.toNat = m at hdrop hmeter ⊢
  obtain ⟨colour, drop, u⟩ := m
  obtain rfl : drop = false := hdrop
  have hu : u.sansMarks = s.sansMarks := hmeter.trans ht
  dsimp only
  rw [if_neg Bool.false_ne_true]
  set p := u.pushEntry f { cp with colour := BitVec.ofNat 2 colour } l (s.classOn l f) 0 0 with hp
  obtain ⟨q, hq, hpush⟩ : ∃ q, EntryOf u q cp.fid l (s.classOn l f) ∧ p = u.addEntry q := ⟨_, ⟨rfl, rfl, rfl, rfl⟩, rfl⟩
  refine ⟨q, ⟨hq.lport, hq.cls, hq.fid, hq.seq.trans (nextSeq_of_sansMarks hu)⟩, ?_⟩
  have hswept : (if (p.markOcc l (s.classOn l f) 0).streamsOn (dieOf l) + 1024 ≤ 65536 then p.markOcc l (s.classOn l f) 0
      else (p.markOcc l (s.classOn l f) 0).sweepStreams (dieOf l)).sansMarks = (s.addEntry q).sansMarks := by
    have hmark : (p.markOcc l (s.classOn l f) 0).sansMarks = (s.addEntry q).sansMarks :=
      (sansMarks_markOcc ..).trans (hpush ▸ sansMarks_addEntry_congr hu q)
    exact keeps_ite Body.sansMarks (fun _ => hmark) fun _ => (sansMarks_sweepStreams ..).trans hmark
  refine keeps_ite Body.sansMarks (fun hheld => ?_) fun _ => hswept
  rw [lp_of_sansMarks hswept] at hheld
  exact absurd hheld (by show ¬ (s.lp l).hold.isSome = true; simp [hhold])

theorem colourIn_lt (x : BitVec 2) : (BitVec.ofNat 2 (colourIn x)).toNat < 3 := by
  simp only [colourIn, BitVec.toNat_ofNat]; omega

/-- A native frame admitted at a calm egress port enters its class queue there (03 R91-R93). -/
theorem takeIn_of_calm {f : BufFrame} {e : Eth} (heth : f.eth = some e) (h : Calm s l (s.classOn l f)) :
    ∃ q, EntryOf s q f.fid l (s.classOn l f) ∧ (s.takeIn f (inCopy f) l).sansMarks = (s.addEntry q).sansMarks := by
  set colour := (inCopy f).colour.toNat with hcolour
  set t := (s.congAvg l (s.classOn l f) colour).2 with ht
  have hpass : t.congJudge f.die l (s.classOn l f) colour (if t.cutThrough f l then 0 else (s.congAvg l (s.classOn l f) colour).1)
      = (.pass, t) := by
    rw [congAvg_of_calm h, ite_self]
    exact if_pos (Nat.mul_pos (h.low colour (colourIn_lt _)).1 (by decide))
  have hprofiled : profiled f = true := by simp [profiled, heth]
  unfold Body.takeIn
  rw [if_neg (by simp [heth])]
  dsimp only
  rw [hprofiled, if_pos rfl, ← hcolour, ← ht, hpass]
  obtain ⟨q, hq, hqueue⟩ := enqueue_of_unmetered (s := t) heth h.node h.profile h.out (inCopy f)
  exact ⟨q, ⟨hq.lport, hq.cls, hq.fid, hq.seq⟩, hqueue⟩


/-! ### Arrival at a gateway port (03 R77; 04 R117) -/

/-- The frame in the buffer that a native frame of class `cls` on a gateway port becomes. -/
def ethFrame (s : Body) (l cls : Nat) (e : Eth) : BufFrame :=
  { fid := s.fwc.nextFid, origin := .eth l cls, die := dieOf l, hdr := s.encapHdr 0, eth := some e
    rest := some { payload := [], crc := 0 }, cells := cellsOf e.bytes, copies := 1 }

/-- A calm queue takes a frame without credit (03 R77). -/
theorem uncredOk_of_calm {f : BufFrame} (h : Calm s l (s.classOn l f)) (hcells : f.cells = 36) {colour : Nat} (hc : colour < 3) :
    s.uncredOk f l colour = true := by
  unfold Body.uncredOk
  dsimp only
  rw [depth_of_no_entry h.empty, hcells, h.out]
  simpa using (h.low colour hc).2

/-- A native frame, once its source is learnt, is discarded under a counter, or goes to the port of its Gateway entry. -/
def Body.learnEth (s : Body) (l : Nat) (e : Eth) : Body :=
  s.learn (dieOf l) (setFld (macvEntry (physOf l / 8) e.vid.toNat e.srcMac.toNat) 175 165 l)

section arrival
variable {e : Eth} (hg : s.isGateway (physOf l) = true) (hup : (s.lp l).state = .up) (hmin : 64 ≤ e.bytes) (hmax : e.bytes ≤ 9216)
include hg hup hmin hmax

theorem ethernet_guard :
    ¬ (!s.isGateway (physOf l) || (s.lp l).state != .up || decide (e.bytes < 64) || decide (e.bytes > 9216)) = true := by
  simp [hg, hup, hmin, hmax]

theorem ethernet_of_discard {n : Nat} {ctr : Ctr} {t : Body} (hd : (s.learnEth l e).ethDest l e = (.inl (ctr, n), t)) :
    s.ethernet l e = t.bump ctr n := by
  unfold Body.ethernet
  dsimp only
  rw [if_neg (ethernet_guard hg hup hmin hmax), ← Body.learnEth, hd]

theorem ethernet_of_gateway {out : Nat} {t : Body} (hd : (s.learnEth l e).ethDest l e = (.inr out, t))
    (hout : t.isGateway (physOf out) = true) :
    s.ethernet l e = t.admitUncred l out 36 (ethFrame t l (s.ethClass (physOf l / 8) e.pcp) e) .ethAdmitDrop := by
  unfold Body.ethernet
  dsimp only
  rw [if_neg (ethernet_guard hg hup hmin hmax), ← Body.learnEth, hd]
  dsimp only
  rw [hout]
  rfl

end arrival

/-- A broadcast or multicast, and a destination not in the Gateway table, are discarded (02 R53; 04 R117). -/
theorem ethDest_of_group {e : Eth} (h : e.dstMac.getLsbD 40 = true) : s.ethDest l e = (.inl (.gwMiss, physOf l / 8), s) := by
  unfold Body.ethDest
  rw [if_pos h]

theorem ethDest_of_miss {e : Eth} (h : e.dstMac.getLsbD 40 = false)
    (hmiss : (s.gwLookup (macvEntry (physOf l / 8) e.vid.toNat e.dstMac.toNat)).1 = none) :
    s.ethDest l e = (.inl (.gwMiss, physOf l / 8), s) := by
  have hpair : s.gwLookup (macvEntry (physOf l / 8) e.vid.toNat e.dstMac.toNat) = (none, s) := by
    unfold Body.gwLookup at hmiss ⊢
    split at hmiss
    · rfl
    · cases hmiss
  unfold Body.ethDest
  dsimp only
  rw [if_neg (Bool.eq_false_iff.mp h), hpair]

theorem ethDest_of_gateway {e : Eth} {x : BitVec 512} (h : e.dstMac.getLsbD 40 = false)
    (hhit : (s.gwLookup (macvEntry (physOf l / 8) e.vid.toNat e.dstMac.toNat)).1 = some x)
    (hout : s.isGateway (physOf (gwLport x)) = true) :
    s.ethDest l e = (.inr (gwLport x), (s.gwLookup (macvEntry (physOf l / 8) e.vid.toNat e.dstMac.toNat)).2) := by
  have hgw := isGateway_of_sansGw (sansGw_gwLookup s (macvEntry (physOf l / 8) e.vid.toNat e.dstMac.toNat)) (physOf (gwLport x))
  unfold Body.ethDest
  dsimp only
  rw [if_neg (Bool.eq_false_iff.mp h)]
  generalize s.gwLookup (macvEntry (physOf l / 8) e.vid.toNat e.dstMac.toNat) = p at hhit hgw ⊢
  obtain ⟨found, t⟩ := p
  obtain rfl : found = some x := hhit
  dsimp only
  rw [hgw, hout]
  rfl

theorem classOn_eth {f : BufFrame} {e : Eth} (heth : f.eth = some e) : s.classOn l f = s.ethClass (physOf l / 8) e.pcp := by
  unfold Body.classOn; rw [heth]

/-- A native frame that its calm egress port takes: it keeps its place in the buffer, and its copy stands in its class queue there. -/
theorem takeIn_queues {f : BufFrame} {e : Eth} (heth : f.eth = some e) (h : Calm s l (s.ethClass (physOf l / 8) e.pcp)) :
    (s.takeIn f (inCopy f) l).fwc.origWait = s.fwc.origWait ∧ (s.takeIn f (inCopy f) l).fwc.frames = s.fwc.frames
      ∧ ∃ q ∈ (s.takeIn f (inCopy f) l).tms.queue, EntryOf s q f.fid l (s.ethClass (physOf l / 8) e.pcp) := by
  rw [← classOn_eth heth] at h ⊢
  obtain ⟨q, hq, hkept⟩ := takeIn_of_calm heth h
  have hwait := origWait_of_sansMarks hkept
  have hframes := frames_of_sansMarks hkept
  have hqueue := queue_of_sansMarks hkept
  exact ⟨hwait, hframes, q, hqueue ▸ List.mem_append_right _ List.mem_cons_self, hq⟩

/-- A native frame that the cells and the queue of a calm gateway port can take stands in the buffer and in its class queue there. -/
theorem admitUncred_of_calm {f : BufFrame} {e : Eth} {out : Nat} {ctr : Ctr} (heth : f.eth = some e)
    (h : Calm s out (s.ethClass (physOf out / 8) e.pcp)) (hpool : s.poolOk l (uncredClass f) 36 = true) :
    (s.admitUncred l out 36 f ctr).fwc.origWait = s.fwc.origWait ∧ f ∈ (s.admitUncred l out 36 f ctr).fwc.frames
      ∧ ∃ q ∈ (s.admitUncred l out 36 f ctr).tms.queue, EntryOf s q f.fid out (s.ethClass (physOf out / 8) e.pcp) := by
  have hroom : s.uncredOk { f with cells := 36 } out (inCopy f).colour.toNat = true :=
    uncredOk_of_calm (by rw [classOn_eth (f := { f with cells := 36 }) heth]; exact h) rfl (colourIn_lt _)
  have hadmit : s.admitUncred l out 36 f ctr = (s.takeUncred l f).takeIn f (inCopy f) out :=
    if_pos (by rw [hpool, hroom]; rfl)
  obtain ⟨pools, u, off, o, htake⟩ := takeUncred_eq s l f
  rw [hadmit, htake]
  set t := ({ s with fwc := { s.fwc with pools, frames := s.fwc.frames ++ [f], nextFid := f.fid + 1 } } : Body).setUncred l u off o
  have hhold : (t.lp out).hold = (s.lp out).hold := by
    show ((s.setLp l { s.lp l with uncred := u, pfcOff := off }).lp out).hold = _
    rw [lp_setLp]
    split
    · subst_vars; rfl
    · rfl
  obtain ⟨hwait, hframes, q, hq, hentry⟩ := takeIn_queues (s := t) heth (h.of_eq rfl (fun _ => rfl) rfl rfl hhold)
  exact ⟨hwait, hframes ▸ List.mem_append_right _ List.mem_cons_self, q, hq, ⟨hentry.lport, hentry.cls, hentry.fid, hentry.seq⟩⟩

/-- The Ethernet frame of an ENCAP frame at its gateway port (02 R53). -/
theorem decap_of_good {fid : Nat} {f : BufFrame} {r : Rest} (hf : s.frame fid = some f) (hhere : f.here = some (.encap l))
    (hrest : f.rest = some r) (hcrc : Rest.crcGood r f.hdr f.ext = true) (hst : r.status = 0) :
    s.decap fid =
      (let g : BufFrame := { f with
        eth := some (ethOf ((payloadBytes (r.payload.drop 1)).take (fld (nth r.payload 0 0) 63 50))), here := none }
       (s.setFrame g).takeIn g (inCopy g) l) := by
  unfold Body.decap
  simp only [hf, hhere, hrest]
  exact if_neg (by simp [hcrc, hst])

/-- Settles O41: the source is learnt and the destination looked up; nothing of that changes the queues, so a calm port's queue takes
the frame. -/
theorem ethernetFramesForward : Obligations.EthernetFramesForward := by
  intro s l h b g
  refine ⟨fun e hp hg hup hmin hmax => ?native, fun fid f r hf hhere hrest hcrc hst => ?encap⟩
  case native =>
    intro b1 look
    have hc := exec_ethernetFrameArrival s l e
    have hlearn : b1.sansGw = b.sansGw := sansGw_learn ..
    refine ⟨fun hmiss => ?discard, fun x hone hhit hout => ?known⟩
    case discard =>
      have hdest : b1.ethDest l e = (.inl (.gwMiss, g), b1) := by
        by_cases hgroup : e.dstMac.getLsbD 40 = true
        · exact ethDest_of_group hgroup
        · exact ethDest_of_miss (Bool.eq_false_iff.mpr hgroup) (hmiss.resolve_left hgroup)
      refine becomes_of_dataPort_of_none h hp hc (ethernet_of_discard hg hup hmin hmax hdest) ?_
      rw [fwc_of_quiet (quiet_bump ..), fwc_of_sansGw hlearn]
      exact h.none_waits
    case known =>
      intro out cls hcalm hpool
      have hkept : look.2.sansGw = b.sansGw := (sansGw_gwLookup ..).trans hlearn
      have hdest := ethDest_of_gateway (s := b1) (l := l) hone hhit ((isGateway_of_sansGw hlearn _).trans hout)
      have hbody := ethernet_of_gateway hg hup hmin hmax hdest ((isGateway_of_sansGw hkept _).trans hout)
      have hclass := ethClass_of_sansGw hkept (physOf out / 8) e.pcp
      obtain ⟨hwait, hframe, q, hq, hentry⟩ := admitUncred_of_calm (s := look.2) (l := l)
        (f := ethFrame look.2 l (b.ethClass g e.pcp) e) (ctr := .ethAdmitDrop) rfl (out := out)
        (by rw [hclass]; exact hcalm.of_sansGw hkept) ((poolOk_of_sansGw hkept ..).trans hpool)
      have hfwc := fwc_of_sansGw hkept
      have htms := tms_of_sansGw hkept
      have hnone : look.2.fwc.origWait = [] := hfwc ▸ h.none_waits
      exact ⟨_, becomes_of_dataPort_of_none h hp hc hbody (hwait.trans hnone),
        ⟨_, hframe, congrArg Fwc.nextFid hfwc, rfl⟩, q, hq, hentry.lport, hentry.cls.trans hclass,
        hentry.fid.trans (congrArg Fwc.nextFid hfwc), hentry.seq.trans (congrArg Tms.nextSeq htms)⟩
  case encap =>
    intro e cls hcalm
    obtain ⟨hwait, hframes, q, hq, hentry⟩ := takeIn_queues (s := b.setFrame { f with eth := some e, here := none }) (l := l)
      (f := { f with eth := some e, here := none }) (e := e) rfl (hcalm.of_eq rfl (fun _ => rfl) rfl rfl rfl)
    have hfid : f.fid = fid := fid_of_frame hf
    have hread : (b.setFrame { f with eth := some e, here := none }).frame fid = some { f with eth := some e, here := none } :=
      frame_setFrame hf hfid
    refine ⟨_, becomes_of_data_of_none h (exec_encap s fid) (decap_of_good hf hhere hrest hcrc hst) (hwait.trans h.none_waits), ?_, q, hq,
      hentry.lport, hentry.cls, hentry.fid.trans hfid, hentry.seq⟩
    exact (frame_of_frames hframes fid).trans hread

end Sys2Proof.Machine
end

section
/-! SUPPORT. Forwarding leaves links alone (03 R72-R93; 04 R98-R109; 05 R126-R141): whatever a frame meets on its way through the buffer
and the queues, of a port it changes the accounts of cells and the hold alone, and neither hall time nor who waits for cells
(`Body.links`). -/
namespace Sys2Proof.Machine

/-- A port without its accounts of cells, its hold and its express link. -/
def LPort.sansCells (x : LPort) : LPort :=
  { x with limitOut := [], received := [], occ := [], uncred := [], pfcOff := [], hold := none, express := none }

variable (s : Body)

/-- The links' own state: the ports without accounts of cells, hall time, and the originated frames that wait for cells. -/
def Body.links (s : Body) : (Nat → LPort) × Clock × List OrigWait := (fun l => (s.lp l).sansCells, s.clock, s.fwc.origWait)

theorem links_of_sansMarks {a b : Body} (h : a.sansMarks = b.sansMarks) : a.links = b.links := by
  show a.sansMarks.links = b.sansMarks.links; rw [h]

theorem links_of_quiet {a b : Body} (h : a.quiet = b.quiet) : a.links = b.links := links_of_sansMarks (sansMarks_of_quiet h)

theorem links_of_sansGw {a b : Body} (h : a.sansGw = b.sansGw) : a.links = b.links := by
  show a.sansGw.links = b.sansGw.links; rw [h]

theorem sansCells_of_links {a b : Body} (h : a.links = b.links) (l : Nat) : (a.lp l).sansCells = (b.lp l).sansCells :=
  congrFun (congrArg Prod.fst h) l

theorem clock_of_links {a b : Body} (h : a.links = b.links) : a.clock = b.clock := congrArg (·.2.1) h

theorem origWait_of_links {a b : Body} (h : a.links = b.links) : a.fwc.origWait = b.fwc.origWait := congrArg (·.2.2) h

theorem links_setLp {l : Nat} {x : LPort} (h : x.sansCells = (s.lp l).sansCells) : (s.setLp l x).links = s.links := by
  refine Prod.ext (funext fun m => ?_) rfl
  show ((s.setLp l x).lp m).sansCells = (s.lp m).sansCells
  rw [lp_setLp]
  split
  · subst_vars; exact h
  · rfl

theorem links_modLp (l : Nat) {g : LPort → LPort} (h : ∀ x, (g x).sansCells = x.sansCells) : (s.modLp l g).links = s.links :=
  links_setLp s (h _)

@[simp] theorem links_bump (c : Ctr) (i : Nat) : (s.bump c i).links = s.links := links_of_quiet (quiet_bump ..)

@[simp] theorem links_bumpBy (c : Ctr) (i n : Nat) : (s.bumpBy c i n).links = s.links := links_of_quiet (quiet_bumpBy ..)

/-! ### The buffer (03 R72-R79) -/

@[simp] theorem links_setPool (die : Nat) (x : Pools) : (s.setPool die x).links = s.links := rfl

@[simp] theorem links_uncredit (l c : Nat) (up : Bool) (n : Nat) : (s.uncredit l c up n).links = s.links := by
  obtain ⟨u, off, o, h⟩ := uncredit_eq_setUncred s l c up n
  rw [h]
  exact links_setLp s rfl

@[simp] theorem links_returnCells (f : BufFrame) (n : Nat) : (s.returnCells f n).links = s.links := by
  unfold Body.returnCells
  cases f.origin with
  | own => rfl
  | alp l v => exact links_setLp _ rfl
  | udp l => exact links_uncredit ..
  | eth l c => exact links_uncredit ..

@[simp] theorem links_collect (fid : Nat) : (s.collect fid).links = s.links := by
  unfold Body.collect
  split
  · exact keeps_ite Body.links (fun _ => rfl) fun _ => rfl
  · rfl

@[simp] theorem links_releaseCopy (fid : Nat) : (s.releaseCopy fid).links = s.links := by
  unfold Body.releaseCopy
  split
  · rfl
  · exact keeps_ite Body.links (fun _ => (links_collect ..).trans (links_returnCells s _ _)) fun _ => rfl

@[simp] theorem links_doneHere (fid : Nat) : (s.doneHere fid).links = s.links := by
  unfold Body.doneHere
  split
  · rfl
  · exact keeps_ite Body.links (fun _ => (links_releaseCopy ..).trans rfl) fun _ => rfl

/-! ### The queues (05 R126-R141) -/

@[simp] theorem links_sweepStreams (die : Nat) : (s.sweepStreams die).links = s.links := links_of_sansMarks (sansMarks_sweepStreams ..)

@[simp] theorem links_unqueueAll (out : QEntry → Bool) : (s.unqueueAll out).links = s.links := by
  unfold Body.unqueueAll
  dsimp only
  refine keeps_ite Body.links (fun _ => rfl) fun _ => ?_
  exact (foldl_keeps Body.links _ (fun b d => links_sweepStreams b d) _ _).trans rfl

@[simp] theorem links_toReserve (l : Nat) : (s.toReserve l).links = s.links := by
  unfold Body.toReserve
  refine foldl_keeps Body.links _ (fun b e => ?_) _ s
  split
  · refine keeps_ite Body.links (fun _ => ?_) fun _ => rfl
    rw [links_releaseCopy, links_modLp]
    · rfl
    · exact fun _ => rfl
  · rfl

@[simp] theorem links_enqueue (f : BufFrame) (cp : Copy) (l : Nat) : (s.enqueue f cp l).links = s.links := by
  unfold Body.enqueue
  dsimp only
  have hmeter : ∀ t : Body, ∀ c key prof bytes colour, (t.meter l c key prof bytes colour).2.2.links = t.links := fun t _ _ _ _ _ =>
    links_of_sansMarks (sansMarks_meter t ..)
  have htake := links_of_sansMarks (sansMarks_takeStream s l (s.classOn l f) (s.streamOf f).1 (s.streamOf f).2)
  generalize s.takeStream l (s.classOn l f) (s.streamOf f).1 (s.streamOf f).2 = p at htake ⊢
  obtain ⟨key, prof, t⟩ := p
  dsimp only at htake ⊢
  specialize hmeter t (s.classOn l f) key prof (t.wireBytes l f cp.repl) cp.colour.toNat
  generalize t.meter l (s.classOn l f) key prof (t.wireBytes l f cp.repl) cp.colour.toNat = m at hmeter ⊢
  obtain ⟨colour, drop, u⟩ := m
  have hu : u.links = s.links := hmeter.trans htake
  dsimp only
  refine keeps_ite Body.links (fun _ => ?_) fun _ => ?_
  · exact (links_sweepStreams ..).trans ((links_releaseCopy ..).trans ((links_bump ..).trans hu))
  · set q := (u.pushEntry f { cp with colour := BitVec.ofNat 2 colour } l (s.classOn l f) key prof).markOcc l (s.classOn l f) key with hq
    have hpush : q.links = s.links := (links_of_sansMarks (sansMarks_markOcc ..)).trans hu
    have hswept : (if q.streamsOn (dieOf l) + 1024 ≤ 65536 then q else q.sweepStreams (dieOf l)).links = s.links :=
      keeps_ite Body.links (fun _ => hpush) fun _ => (links_sweepStreams ..).trans hpush
    exact keeps_ite Body.links (fun _ => (links_toReserve ..).trans hswept) fun _ => hswept

@[simp] theorem links_takeIn (f : BufFrame) (cp : Copy) (l : Nat) : (s.takeIn f cp l).links = s.links := by
  unfold Body.takeIn
  refine keeps_ite Body.links (fun _ => rfl) fun _ => ?_
  dsimp only
  set avg := s.congAvg l (s.classOn l f) cp.colour.toNat with havg
  have hjudge : (if profiled f then avg.2.congJudge f.die l (s.classOn l f) cp.colour.toNat (if avg.2.cutThrough f l then 0 else avg.1)
      else (.pass, avg.2)).2.links = s.links :=
    keeps_ite (fun p : CongAct × Body => p.2.links) (fun _ => links_of_sansMarks (sansMarks_congJudge avg.2 ..)) fun _ => rfl
  generalize (if profiled f then avg.2.congJudge f.die l (s.classOn l f) cp.colour.toNat (if avg.2.cutThrough f l then 0 else avg.1)
      else (.pass, avg.2)) = p at hjudge ⊢
  obtain ⟨a, t⟩ := p
  cases a with
  | pass => exact (links_enqueue ..).trans hjudge
  | act =>
    exact keeps_ite Body.links (fun _ => (links_releaseCopy ..).trans ((links_bump ..).trans hjudge)) fun _ =>
      (links_enqueue ..).trans ((links_bump ..).trans hjudge)

/-! ### Re-entry at Lookup (04 R107) -/

@[simp] theorem links_ethDest (l : Nat) (e : Eth) : (s.ethDest l e).2.links = s.links := by
  have hlook := links_of_sansGw (sansGw_gwLookup s (macvEntry (physOf l / 8) e.vid.toNat e.dstMac.toNat))
  unfold Body.ethDest
  dsimp only
  refine keeps_ite (fun p : (Ctr × Nat ⊕ Nat) × Body => p.2.links) (fun _ => rfl) fun _ => ?_
  generalize s.gwLookup (macvEntry (physOf l / 8) e.vid.toNat e.dstMac.toNat) = p at hlook ⊢
  obtain ⟨_ | x, t⟩ := p
  · exact hlook
  · exact keeps_ite (fun p : (Ctr × Nat ⊕ Nat) × Body => p.2.links) (fun _ => hlook) fun _ => hlook

@[simp] theorem links_reenter (cp : Copy) (l : Nat) : (s.reenter cp l).links = s.links := by
  unfold Body.reenter
  split
  · rfl
  · rename_i f _
    extract_lets s1 byHdr
    have hbump : s1.links = s.links := links_bump ..
    have hbyHdr : ∀ t g, (byHdr t g).links = t.links := fun t g => by
      dsimp only [byHdr]
      split
      · exact (links_releaseCopy ..).trans (links_bump ..)
      · exact links_releaseCopy ..
      · rename_i e m _
        have hspray := links_of_sansMarks (sansMarks_spray t (dieOf l) e m)
        generalize t.spray (dieOf l) e m = p at hspray ⊢
        obtain ⟨_ | k, u⟩ := p
        · exact (links_releaseCopy ..).trans hspray
        · exact (links_takeIn ..).trans hspray
    split
    · rename_i e i _ _ _
      have hdest := (links_ethDest s1 i e).trans hbump
      generalize s1.ethDest i e = p at hdest ⊢
      obtain ⟨⟨c, n⟩ | k, t⟩ := p
      · exact (links_releaseCopy ..).trans ((links_bump ..).trans hdest)
      · exact keeps_ite Body.links (fun _ => (links_takeIn ..).trans hdest) fun _ => (links_takeIn ..).trans hdest
    · rw [hbyHdr]; exact hbump
    · rw [hbyHdr]; exact hbump

@[simp] theorem links_reenterQueued (l : Nat) : (s.reenterQueued l).links = s.links := by
  unfold Body.reenterQueued
  dsimp only
  refine (foldl_keeps Body.links _ (fun b e => ?_) _ _).trans (links_unqueueAll ..)
  refine (links_reenter ..).trans (keeps_ite Body.links (fun _ => ?_) fun _ => rfl)
  split <;> rfl

@[simp] theorem links_applyLower : s.applyLower.links = s.links := rfl

end Sys2Proof.Machine
end

section
/-! SUPPORT. A link that leaves UP (02 R62; 04 R107): what it launched goes back to Lookup, what was arriving is cut, and its hall-time
candidate goes. -/
namespace Sys2Proof.Machine

variable (s : Body)

theorem links_setLp_congr {a b : Body} (h : a.links = b.links) {l : Nat} {x y : LPort} (hxy : x.sansCells = y.sansCells) :
    (a.setLp l x).links = (b.setLp l y).links := by
  refine Prod.ext (funext fun m => ?_) (congrArg (·.2) h)
  show ((a.setLp l x).lp m).sansCells = ((b.setLp l y).lp m).sansCells
  rw [lp_setLp, lp_setLp]
  split
  · exact hxy
  · exact sansCells_of_links h m

/-! ### Credit and express links (02 R63; 06 R160) -/

@[simp] theorem links_returnCredit (l : Nat) : (s.returnCredit l).links = s.links := by
  unfold Body.returnCredit
  refine foldl_keeps Body.links _ (fun b v => ?_) _ s
  extract_lets x pl occ back
  refine Eq.trans (links_setLp _ ?_) (links_setPool ..)
  rfl

@[simp] theorem links_setLpe (l : Nat) (g : LpEntry → LpEntry) : (s.setLpe l g).links = s.links := rfl

theorem links_clpNote (t key : Nat) (m : Map (BitVec 2624)) (c : ClpChange) : (clpNote s t key m c).links = s.links := by
  cases c <;> rfl

@[simp] theorem links_clpApply (t : Nat) (c : ClpChange) : (s.clpApply t c).links = s.links := by
  unfold Body.clpApply
  extract_lets x a b s1 y tables s2
  have hnote : s1.links = s.links := (links_clpNote ..).trans (links_clpNote ..)
  exact (links_of_quiet ((quiet_auditModule ..).trans (quiet_emit s2 ..))).trans hnote

@[simp] theorem links_clpChange (t : Nat) (c : ClpChange) : (s.clpChange t c).links = s.links := by
  unfold Body.clpChange
  exact keeps_ite Body.links (fun _ => rfl) fun _ => keeps_ite Body.links (fun _ => rfl) fun _ => links_clpApply ..

@[simp] theorem links_expressDown (l : Nat) : (s.expressDown l).links = s.links := by
  unfold Body.expressDown
  refine keeps_ite Body.links (fun _ => rfl) fun _ => ?_
  exact (links_clpChange ..).trans ((links_clpChange ..).trans ((links_setLpe ..).trans (links_modLp s l fun _ => rfl)))

/-- The body after the port's hall-time candidate has gone. -/
def Body.dropCand (s : Body) (l : Nat) : Body := { s with clock := { s.clock with cands := mdel s.clock.cands l } }

theorem links_dropCand_congr {a b : Body} (h : a.links = b.links) (l : Nat) : (a.dropCand l).links = (b.dropCand l).links :=
  Prod.ext (congrArg (·.1) h) (Prod.ext (congrArg (fun c : Clock => { c with cands := mdel c.cands l }) (clock_of_links h))
    (congrArg (·.2.2) h))

theorem links_leaveUp (l : Nat) : (s.leaveUp l).links = (s.dropCand l).links :=
  links_dropCand_congr ((links_expressDown ..).trans (links_returnCredit ..)) l

/-! ### What the link carried -/

/-- The port with nothing launched. -/
def LPort.unsent (x : LPort) : LPort := { x with replay := [], tx := [], launch := none, launchCopy := none, launchHop := none }

theorem links_takeReplay (l : Nat) : (s.takeReplay l).2.links = (s.setLp l (s.lp l).unsent).links := by
  unfold Body.takeReplay
  dsimp only
  refine (foldl_keeps Body.links _ (fun b c => ?_) _ _).trans ?_
  · split
    · exact keeps_ite Body.links (fun _ => rfl) fun _ => rfl
    · rfl
  · split
    · exact keeps_ite Body.links (fun _ => rfl) fun _ => links_releaseCopy ..
    · rfl

theorem links_reenterReplay (l : Nat) : (s.reenterReplay l).links = (s.setLp l (s.lp l).unsent).links := by
  have htake := links_takeReplay s l
  unfold Body.reenterReplay
  generalize s.takeReplay l = p at htake ⊢
  exact ((foldl_keeps Body.links _ (fun b c => links_reenter b c l) _ _).trans (links_applyLower ..)).trans htake

theorem links_cutIngress (l : Nat) : (s.cutIngress l).links = (s.setLp l { s.lp l with rxFid := none }).links := by
  unfold Body.cutIngress
  split
  · rename_i hrx
    exact (links_setLp s (by rw [← hrx])).symm
  · rename_i fid _
    dsimp only
    refine (links_doneHere ..).trans ?_
    set u := (s.tms.queue.filter fun e => e.copy.fid == fid).foldl (fun (t : Body) _ => t.releaseCopy fid) _ with hu
    have hkeep : u.links = s.links :=
      (foldl_keeps Body.links _ (fun b _ => links_releaseCopy b fid) _ _).trans ((links_bumpBy ..).trans (links_unqueueAll ..))
    exact links_setLp_congr hkeep (congrArg (fun x : LPort => { x with rxFid := none }) (sansCells_of_links hkeep l))

section port
variable {s} {b : Body} {l : Nat} {x : LPort} (h : s.links = (b.setLp l x).links)
include h

theorem sansCells_lp_of_links : (s.lp l).sansCells = x.sansCells := by rw [sansCells_of_links h, lp_setLp_same]

theorem links_setLp_of_links {y z : LPort} (hyz : y.sansCells = z.sansCells) : (s.setLp l y).links = (b.setLp l z).links := by
  rw [← setLp_setLp b l x z]
  exact links_setLp_congr h hyz

theorem links_reenterReplay_of_links : (s.reenterReplay l).links = (b.setLp l x.unsent).links := by
  rw [links_reenterReplay]
  exact links_setLp_of_links h (congrArg LPort.unsent (sansCells_lp_of_links h))

theorem links_cutIngress_of_links : (s.cutIngress l).links = (b.setLp l { x with rxFid := none }).links := by
  rw [links_cutIngress]
  exact links_setLp_of_links h (congrArg (fun y : LPort => { y with rxFid := none }) (sansCells_lp_of_links h))

end port

/-- The port as its link leaves UP for `st`. -/
def LPort.leaving (x : LPort) (st : PState) : LPort :=
  { x with state := st, lock := false, retry := none, badGroup := false, rxHere := [], rxTails := [], rxSeen := [] }

/-- The port after its link has left UP for `st`. -/
def LPort.lost (x : LPort) (st : PState) : LPort := { (x.leaving st).unsent with rxFid := none }

/-- A link in UP that is not held leaves it with its frames back at Lookup. -/
theorem failTo_of_up {l : Nat} (st : PState) (hup : (s.lp l).state = .up) (hhold : (s.lp l).hold = none) :
    s.failTo l st = ((s.setLp l ((s.lp l).leaving st)).leaveUp l).sprayAgain l := by
  unfold Body.failTo
  dsimp only
  rw [if_pos (.inl hup), if_neg (by simp [hhold])]
  rfl

theorem dropCand_setLp (l : Nat) (x : LPort) : (s.setLp l x).dropCand l = (s.dropCand l).setLp l x := rfl

/-- A link that leaves UP without being held: its port is emptied and its candidate gone. -/
theorem links_failTo_of_up {l : Nat} (st : PState) (hup : (s.lp l).state = .up) (hhold : (s.lp l).hold = none) :
    (s.failTo l st).links = ((s.dropCand l).setLp l ((s.lp l).lost st)).links := by
  have hleft : (((s.setLp l ((s.lp l).leaving st)).leaveUp l).reenterQueued l).links = ((s.dropCand l).setLp l ((s.lp l).leaving st)).links := by
    rw [links_reenterQueued, links_leaveUp, dropCand_setLp]
  rw [failTo_of_up s st hup hhold]
  exact links_cutIngress_of_links (links_reenterReplay_of_links hleft)

theorem settleDrain_of_none {s : Body} {l : Nat} (h : (s.lp l).drain = none) : s.settleDrain l = s := by
  unfold Body.settleDrain
  simp [h]

end Sys2Proof.Machine
end

section
/-! SUPPORT. Losing a link, and light on it (02 R62; 06 R155). -/
namespace Sys2Proof.Machine

variable {s : Body} {l : Nat}

theorem links_linkLost_of_up (hup : (s.lp l).state = .up) (hhold : (s.lp l).hold = none) (hdrain : (s.lp l).drain = none) :
    (s.linkLost l).links = ((s.dropCand l).setLp l ((s.lp l).lost .failed)).links := by
  have hfail := links_failTo_of_up s .failed hup hhold
  have hport := sansCells_lp_of_links hfail
  unfold Body.linkLost Body.loseLink
  simp only [hup, hhold, Option.isSome_none, Bool.false_eq_true, if_false]
  rw [settleDrain_of_none ((congrArg LPort.drain hport).trans hdrain)]
  exact hfail

theorem linkLost_of_negotiating (h : (s.lp l).state = .version ∨ (s.lp l).state = .versionMismatch) :
    s.linkLost l = s.setLp l { s.lp l with state := .training, lock := false } := by
  unfold Body.linkLost
  rcases h with h | h <;> simp only [h] <;> rfl

theorem controlLost_of_alp (hg : s.isGateway (physOf l) = false) : s.controlLost l = s.linkLost l := by
  unfold Body.controlLost
  simp [hg]

/-- The port without light. -/
def LPort.dark (x : LPort) : LPort := { x with light := false }

/-- Without PCS lock, a link that is not parting from its peer is lost as one without control words is. -/
theorem lockLost_of_not_parting (h : (s.lp l).state ≠ .up ∧ (s.lp l).state ≠ .draining ∨ (s.lp l).peerDraining = false ∨ (s.lp l).replay ≠ []) :
    s.lockLost l = ((s.setLp l (s.lp l).dark).linkLost l).modLp l fun y => { y with lock := false } := by
  unfold Body.lockLost
  simp only [lp_modLp_same]
  refine if_neg ?_
  rcases h with ⟨hup, hdraining⟩ | h | h <;> simp [*]

theorem links_lockLost_of_up (hup : (s.lp l).state = .up) (hhold : (s.lp l).hold = none) (hdrain : (s.lp l).drain = none)
    (hpeer : (s.lp l).peerDraining = false ∨ (s.lp l).replay ≠ []) :
    (s.lockLost l).links = ((s.dropCand l).setLp l ((s.lp l).dark.lost .failed)).links := by
  have hdark : (s.setLp l (s.lp l).dark).lp l = (s.lp l).dark := lp_setLp_same ..
  have hlost := links_linkLost_of_up (s := s.setLp l (s.lp l).dark) (l := l) (by rw [hdark]; exact hup) (by rw [hdark]; exact hhold)
    (by rw [hdark]; exact hdrain)
  rw [hdark, dropCand_setLp, setLp_setLp] at hlost
  rw [lockLost_of_not_parting (.inr hpeer)]
  exact links_setLp_of_links hlost (congrArg (fun y : LPort => { y with lock := false }) (sansCells_lp_of_links hlost))

/-- Light on a port that is down and may train. -/
theorem lightIn_of_mayTrain (hst : (s.lp l).state = .failed ∨ (s.lp l).state = .disabled) (hmay : s.mayTrain l = true) :
    s.lightIn l = s.setLp l { s.lp l with light := true, lock := false, state := .training } := by
  obtain ⟨hthrough, hconsistent⟩ : s.through (physOf l) = true ∧ s.portage.inconsistent.getLsbD (physOf l / 8) = false := by
    simp only [Body.mayTrain, Bool.and_eq_true, Bool.not_eq_true'] at hmay
    obtain ⟨⟨⟨⟨_, hthrough⟩, hconsistent⟩, _⟩, _⟩ := hmay
    exact ⟨hthrough, hconsistent⟩
  have hkept : (s.setLp l { s.lp l with light := true }).mayTrain l = true := hmay
  have hopen : (s.setLp l { s.lp l with light := true }).through (physOf l) = true := hthrough
  have hsame : (s.setLp l { s.lp l with light := true }).portage.inconsistent.getLsbD (physOf l / 8) = false := hconsistent
  unfold Body.lightIn
  simp only [hkept, and_true, if_pos hst]
  unfold Body.retrain
  simp only [hkept, hopen, hsame, Bool.not_true, Bool.false_eq_true, if_false, if_true, Body.modLp, lp_setLp_same, setLp_setLp]

end Sys2Proof.Machine
end

section
/-! SUPPORT. Links fail. -/
namespace Sys2Proof.Machine

variable {s : State} {l : Nat} {c : Instr} {f : Body → Body}

/-- A link's command that leaves the port lost and its candidate gone. -/
theorem fails_of_links {x : LPort} (h : LinkReady s l) (hc : exec c s = onLink s l f)
    (hf : (f s.toBody).links = ((s.toBody.dropCand l).setLp l (x.lost .failed)).links) :
    ∃ t, exec c s = .next t
      ∧ (let y := t.toBody.lp l; y.state = .failed ∧ y.lock = false ∧ y.replay = [] ∧ y.tx = [] ∧ y.launch = none ∧ y.rxFid = none)
      ∧ t.clock.cands = mdel s.clock.cands l := by
  have hport := sansCells_lp_of_links hf
  exact ⟨_, becomes_of_link h hc rfl ((origWait_of_links hf).trans h.none_waits), ⟨congrArg LPort.state hport, congrArg LPort.lock hport,
    congrArg LPort.replay hport, congrArg LPort.tx hport, congrArg LPort.launch hport, congrArg LPort.rxFid hport⟩,
    congrArg Clock.cands (clock_of_links hf)⟩

/-- Settles O33: nothing that re-enters Lookup touches a link, so the port is left as `LPort.lost` says. -/
theorem linksFail : Obligations.LinksFail := by
  intro s l h hg b x failed
  refine ⟨fun hup hhold hdrain => ⟨fun hpeer => ?noLock, ?noControl⟩, fun hst => ⟨?trainsNoLock, ?trainsNoControl⟩, fun hst hmay => ?light⟩
  case noLock =>
    exact fails_of_links h (exec_pcsLockLostTimeout s l) (links_lockLost_of_up hup hhold hdrain hpeer)
  case noControl =>
    refine fails_of_links (x := x) h (exec_controlWordTimeout s l) ?_
    rw [controlLost_of_alp hg]
    exact links_linkLost_of_up hup hhold hdrain
  case trainsNoLock =>
    refine becomes_of_link h (exec_pcsLockLostTimeout s l) ?_ h.none_waits
    have hdark : (b.setLp l x.dark).lp l = x.dark := lp_setLp_same ..
    have hdown : x.state ≠ .up ∧ x.state ≠ .draining := by rcases hst with e | e <;> rw [e] <;> decide
    rw [lockLost_of_not_parting (.inl hdown), linkLost_of_negotiating (by rw [hdark]; exact hst), hdark]
    simp only [Body.modLp, lp_setLp_same, setLp_setLp]
    rfl
  case trainsNoControl =>
    exact becomes_of_link h (exec_controlWordTimeout s l) ((controlLost_of_alp hg).trans (linkLost_of_negotiating hst)) h.none_waits
  case light => exact becomes_of_link h (exec_lightArrival s l) (lightIn_of_mayTrain hst hmay) h.none_waits

end Sys2Proof.Machine
end

section
/-! SUPPORT. A discarded group (02 R60): what it brought is taken back. -/
namespace Sys2Proof.Machine

variable (s : Body)

theorem origWait_withdraw (l : Nat) (f : BufFrame) : (s.withdraw l f).fwc.origWait = s.fwc.origWait := by
  show (s.unqueueAll fun e => e.copy.fid == f.fid).fwc.origWait = _
  exact origWait_of_links (links_unqueueAll ..)

theorem origWait_untail (l fid : Nat) : (s.untail l fid).fwc.origWait = s.fwc.origWait := by
  unfold Body.untail
  split
  · exact keeps_ite (fun b : Body => b.fwc.origWait) (fun _ => rfl) fun _ => rfl
  · rfl

/-- Taking a group's frames back lets no originated frame wait. -/
theorem origWait_discardGroup (l : Nat) : (s.discardGroup l).fwc.origWait = s.fwc.origWait := by
  let v := fun b : Body => b.fwc.origWait
  unfold Body.discardGroup
  dsimp only
  refine (foldl_keeps v _ (fun b fid => origWait_untail b l fid) _ _).trans ?_
  refine (foldl_keeps v _ (fun b fid => ?_) _ _).trans ?_
  · split
    · exact keeps_ite v (fun _ => origWait_withdraw ..) fun _ => rfl
    · rfl
  · split <;> rfl

end Sys2Proof.Machine
end

section
/-! SUPPORT. Headers (02 R29-R39, R60; 03 R75; 04 R98). -/
namespace Sys2Proof.Machine

/-! ### The checks (02 R29-R38) -/

section checks
variable {h : Hdr}

theorem hdrBars_of_bad_src (hsrc : bit h.src 31 = true) : hdrBars h = some .hdrBadSrc := if_pos hsrc

variable (hsrc : bit h.src 31 = false)
include hsrc

theorem hdrBars_of_bad_ver (hver : h.ver ≠ 3) : hdrBars h = some .hdrBadVer := by
  unfold hdrBars
  rw [hsrc, if_neg Bool.false_ne_true, if_pos (bne_iff_ne.mpr hver)]

variable (hver : h.ver = 3)
include hver

theorem hdrBars_of_reserved_opc (hopc : 13 ≤ h.opc.toNat) : hdrBars h = some .opcReserved := by
  unfold hdrBars
  rw [hsrc, hver, if_neg Bool.false_ne_true, if_neg (by decide), if_pos hopc]

theorem hdrBars_of_bad_shape (hopc : h.opc.toNat < 13)
    (hshape : shapeOk h = false ∨ (h.spec = true ∧ h.opc.toNat ≠ 5 ∧ h.opc.toNat ≠ 6)) : hdrBars h = some .hdrBadShape := by
  unfold hdrBars
  rw [hsrc, hver, if_neg Bool.false_ne_true, if_neg (by decide), if_neg (Nat.not_le.mpr hopc), if_pos]
  rcases hshape with hshape | ⟨hspec, hrput, hrres⟩
  · simp [hshape]
  · simp [hspec, hasRedTail, opRput, opRres, hrput, hrres]

end checks

variable {s : Body} {l : Nat} {g : BitVec 12} {h : Hdr} {x : BitVec 128}

/-! ### Which headers are taken -/

theorem header_of_idle (hno : h.src = 0xFFFFFFFF ∨ g ≠ (s.lp l).rxNext ∨ (s.lp l).badGroup = true) : s.header l g h x = s := by
  unfold Body.header
  refine if_pos ?_
  rcases hno with e | e | e <;> simp [e]

/-- A header that the port looks at: it is UP on an ALP link, between frames, and the header is of the group that comes next. -/
structure HeaderDue (s : Body) (l : Nat) (g : BitVec 12) (h : Hdr) : Prop where
  alp : s.isGateway (physOf l) = false
  up : (s.lp l).state = .up
  between : (s.lp l).rxFid = none
  src : h.src ≠ 0xFFFFFFFF
  next : g = (s.lp l).rxNext
  good : (s.lp l).badGroup = false

/-- The frame that the header begins. -/
def Body.arriving (s : Body) (l : Nat) (h : Hdr) (x : BitVec 128) : BufFrame :=
  { fid := s.fwc.nextFid, origin := .alp l h.vl.toNat, die := dieOf l, hdr := h, ext := if h.ext then x else 0
    cells := frameCells h, copies := 1 }

/-- The body after the port has counted a new frame. -/
def Body.counted (s : Body) (l : Nat) (h : Hdr) : Body :=
  (s.setLp l { s.lp l with rxSeen := (s.lp l).rxSeen.drop 1, rxHere := (s.lp l).rxHere ++ [s.fwc.nextFid] }).receiveCells l h.vl.toNat
    (frameCells h)

/-- The body after a new header has begun its frame. -/
def Body.headed (s : Body) (l : Nat) (h : Hdr) (x : BitVec 128) : Body :=
  ((s.counted l h).addFrame (s.arriving l h x)).modLp l fun y => { y with rxFid := some s.fwc.nextFid }

theorem mem_frames_headed (s : Body) (l : Nat) (h : Hdr) (x : BitVec 128) : s.arriving l h x ∈ (s.headed l h x).fwc.frames :=
  List.mem_append_right _ List.mem_cons_self

theorem lp_headed (s : Body) (l : Nat) (h : Hdr) (x : BitVec 128) : (s.headed l h x).lp l = { s.lp l with
    rxSeen := (s.lp l).rxSeen.drop 1, rxHere := (s.lp l).rxHere ++ [s.fwc.nextFid], rxFid := some s.fwc.nextFid
    received := setNth (s.lp l).received h.vl.toNat ((nth (s.lp l).received h.vl.toNat 0 + frameCells h) % 2 ^ 24)
    occ := setNth (s.lp l).occ h.vl.toNat (nth (s.lp l).occ h.vl.toNat 0 + frameCells h) } := by
  have hcounted := lp_modLp_same (s.setLp l { s.lp l with
    rxSeen := (s.lp l).rxSeen.drop 1, rxHere := (s.lp l).rxHere ++ [s.fwc.nextFid] }) l fun x => { x with
      received := setNth x.received h.vl.toNat ((nth x.received h.vl.toNat 0 + frameCells h) % 2 ^ 24)
      occ := setNth x.occ h.vl.toNat (nth x.occ h.vl.toNat 0 + frameCells h) }
  rw [lp_setLp_same] at hcounted
  exact (lp_modLp_same ..).trans (congrArg (fun y : LPort => { y with rxFid := some s.fwc.nextFid }) hcounted)

section due
variable (hd : HeaderDue s l g h)
include hd

theorem HeaderDue.passes : ¬ (s.isGateway (physOf l) || ((s.lp l).state != .up && (s.lp l).state != .draining) || (s.lp l).rxFid.isSome
    || (s.lp l).badGroup || g != (s.lp l).rxNext || h.src == 0xFFFFFFFF) = true := by
  obtain ⟨halp, hup, hbetween, hsrc, hnext, hgood⟩ := hd
  rw [beq_eq_false_iff_ne.mpr hsrc]
  simp [halp, hup, hbetween, hnext, hgood]

theorem header_of_bad_hcrc (hcrc : h.hcrc ≠ hcrcOf h) : s.header l g h x =
    (s.setLp l { s.lp l with retry := some ((s.lp l).retry.getD g), badGroup := true }).discardGroup l := by
  unfold Body.header
  dsimp only
  rw [if_neg hd.passes, if_pos (by simp [hcrc])]

variable (hcrc : h.hcrc = hcrcOf h)
include hcrc

theorem header_of_seen {fid : Nat} {seen : List (Option Nat)} (hseen : (s.lp l).rxSeen = some fid :: seen) : s.header l g h x =
    s.setLp l { s.lp l with rxSeen := seen, rxHere := (s.lp l).rxHere ++ [fid]
                            rxFid := if (s.frame fid).any (fun f => f.rest.isNone) then some fid else none } := by
  unfold Body.header
  dsimp only
  rw [if_neg hd.passes, if_neg (by simp [hcrc])]
  simp only [hseen]

variable (hnew : (s.lp l).rxSeen.head?.join = none)
include hnew

/-- A new header that a check bars: its cells are counted and returned. -/
theorem header_of_barred {c : Ctr} (hbars : hdrBars h = some c) : s.header l g h x =
    (({ s.counted l h with fwc := { s.fwc with nextFid := s.fwc.nextFid + 1 } } : Body).bump c l).returnCells (s.arriving l h x)
      (frameCells h) := by
  unfold Body.header
  dsimp only
  rw [if_neg hd.passes, if_neg (by simp [hcrc])]
  split
  · rename_i fid seen hseen
    rw [hseen] at hnew; cases hnew
  · rw [if_neg (by simp [hbars])]
    simp only [hbars]
    rfl

/-- A new header that passes the checks is routed. -/
theorem header_of_passed (hbars : hdrBars h = none) (hopc : h.opc.toNat ≠ 10)
    (hkept : (((s.headed l h x).route (s.arriving l h x)).frame s.fwc.nextFid).isSome = true) :
    s.header l g h x = (s.headed l h x).route (s.arriving l h x) := by
  unfold Body.header
  dsimp only
  rw [if_neg hd.passes, if_neg (by simp [hcrc])]
  split
  · rename_i fid seen hseen
    rw [hseen] at hnew; cases hnew
  · rw [if_neg (by simp [hopc])]
    simp only [hbars]
    exact if_pos hkept

end due

/-! ### What a new header leaves -/

/-- A barred header leaves nothing but its count. -/
theorem barred_keeps (c : Ctr) (n : Nat) :
    let t := (({ s.counted l h with fwc := { s.fwc with nextFid := n } } : Body).bump c l).returnCells (s.arriving l h x) (frameCells h)
    t.fwc.frames = s.fwc.frames ∧ t.fwc.origWait = s.fwc.origWait ∧ t.tms = s.tms ∧
      (c.perSett = false → t.count c l = (s.count c l + 1) % 2 ^ 64) := by
  intro t
  set u : Body := { s.counted l h with fwc := { s.fwc with nextFid := n } }
  have hfwc : (u.bump c l).fwc = u.fwc := fwc_of_quiet (quiet_bump ..)
  refine ⟨?_, ?_, (tms_of_quiet (quiet_bump ..) : (u.bump c l).tms = u.tms), fun hc => count_bump hc l⟩
  · show (u.bump c l).fwc.frames = _
    rw [hfwc]
  · show (u.bump c l).fwc.origWait = _
    rw [hfwc]

/-- A frame for a local function waits for it. -/
theorem route_of_local {f : BufFrame} {w : Local} (hdest : s.destOf f.hdr f.ext = .loc w) :
    s.route f = s.setFrame { f with here := some w } := by
  unfold Body.route
  simp only [hdest]

theorem isSome_frame_of_mem {f : BufFrame} (hf : f ∈ s.fwc.frames) : (s.frame f.fid).isSome = true :=
  List.find?_isSome.mpr ⟨f, hf, beq_self_eq_true _⟩

theorem header_of_local (hd : HeaderDue s l g h) (hcrc : h.hcrc = hcrcOf h) (hnew : (s.lp l).rxSeen.head?.join = none)
    (hbars : hdrBars h = none) (hopc : h.opc.toNat ≠ 10) {w : Local} (hdest : s.destOf h (if h.ext then x else 0) = .loc w) :
    s.header l g h x = (s.headed l h x).setFrame { s.arriving l h x with here := some w } := by
  have hroute : (s.headed l h x).route (s.arriving l h x) = (s.headed l h x).setFrame { s.arriving l h x with here := some w } :=
    route_of_local hdest
  have hmem : ({ s.arriving l h x with here := some w } : BufFrame) ∈
      ((s.headed l h x).setFrame { s.arriving l h x with here := some w }).fwc.frames :=
    mem_setFrame (mem_frames_headed s l h x) rfl
  rw [← hroute]
  refine header_of_passed hd hcrc hnew hbars hopc ?_
  rw [hroute]
  exact isSome_frame_of_mem hmem

end Sys2Proof.Machine
end

section
/-! SUPPORT. Headers arrive. -/
namespace Sys2Proof.Machine

/-- A header where the data plane runs is its check alone. -/
theorem becomes_of_header {s : State} {l : Fin 2048} {g : BitVec 12} {h : Hdr} {x : BitVec 128} {b : Body} (hr : DataReady s)
    (hp : physOf l < s.hw.ports) (hex : s.toBody.lportExists l = true) (hb : s.toBody.header l g h x = b) (hw : b.fwc.origWait = []) :
    becomes (.frameArrival ⟨l, g⟩ h x) s b := by
  refine becomes_of_link (hr.linkReady hp) (exec_frameArrival s ⟨l, g⟩ h x) ?_ hw
  rw [if_neg (by simp [hex]), if_pos hr.runs]
  exact hb

/-- Settles O36: each header takes one branch of `Body.header`, and none lets an originated frame wait. -/
theorem headersArrive : Obligations.HeadersArrive := by
  intro s l g h x hr hp b p hex halp hup hbetween
  have hwait : b.fwc.origWait = [] := hr.none_waits
  refine ⟨fun hno => ?idle, fun hsrc hg hgood hcrc => ?badHcrc, fun fid seen hsrc hg hgood hcrc hseen => ?seen,
    fun hsrc hg hgood hcrc hnew => ?new⟩
  case idle => exact becomes_of_header hr hp hex (header_of_idle hno) hwait
  case badHcrc =>
    exact becomes_of_header hr hp hex (header_of_bad_hcrc ⟨halp, hup, hbetween, hsrc, hg, hgood⟩ hcrc)
      ((origWait_discardGroup ..).trans hwait)
  case seen => exact becomes_of_header hr hp hex (header_of_seen ⟨halp, hup, hbetween, hsrc, hg, hgood⟩ hcrc hseen) hwait
  case new =>
    have hd : HeaderDue b l g h := ⟨halp, hup, hbetween, hsrc, hg, hgood⟩
    intro drops
    have hdrops : ∀ c : Ctr, c.perSett = false → hdrBars h = some c → drops c := fun c hc hbars => by
      obtain ⟨hframes, horig, htms, hcount⟩ := barred_keeps (s := b) (l := l) (h := h) (x := x) c (b.fwc.nextFid + 1)
      exact ⟨_, becomes_of_header hr hp hex (header_of_barred hd hcrc hnew hbars) (horig.trans hwait), hframes, htms, hcount hc⟩
    refine ⟨fun hs => hdrops _ rfl (hdrBars_of_bad_src hs), fun hs hv => hdrops _ rfl (hdrBars_of_bad_ver hs hv),
      fun hs hv ho => hdrops _ rfl (hdrBars_of_reserved_opc hs hv ho), fun hs hv ho hsh => hdrops _ rfl (hdrBars_of_bad_shape hs hv ho hsh),
      fun w hbars hopc hdest => ?_⟩
    intro f
    have hport := lp_headed b l h x
    exact ⟨_, becomes_of_header hr hp hex (header_of_local hd hcrc hnew hbars hopc hdest) hwait,
      mem_setFrame (mem_frames_headed b l h x) rfl, rfl, rfl,
      congrArg LPort.rxFid hport, congrArg LPort.rxHere hport, congrArg LPort.received hport⟩

end Sys2Proof.Machine
end

section
/-! SUPPORT. A control word that is not used (02 R60) on a port in UP whose drain is still marked (06 R151). -/
namespace Sys2Proof.Machine

/-- Logical port 0 in UP with its drain marked, in a module in operation. -/
def upWithDrain : State := { State.reset with
  power := { phase := 5, state := .operational }
  lantern := { partno := 1 }
  lports := [(0, { state := .up, lock := true, drain := some .hold })] }

theorem linkReady_upWithDrain : LinkReady upWithDrain 0 := ⟨by decide +kernel, by decide +kernel, rfl⟩

theorem drain_upWithDrain : (upWithDrain.toBody.lp 0).drain = some .hold := rfl

/-- Word 1 has a bad CC8; the port's drain ends with it all the same. -/
theorem drain_after_bad_controlWord : ((upWithDrain.toBody.control 0 1 false).settleDrain 0 |>.lp 0).drain = none := by decide +kernel

theorem becomes_unique {c : Instr} {s : State} {a b : Body} (ha : becomes c s a) (hb : becomes c s b) : a = b :=
  by
  injection ha.symm.trans hb with h
  exact congrArg State.toBody h

theorem not_becomes_same_of_bad_controlWord : ¬ becomes (.controlWord 0 ⟨1, false⟩) upWithDrain upWithDrain.toBody := by
  intro h
  have hw : ((upWithDrain.toBody.control 0 1 false).settleDrain 0).fwc.origWait = [] := by decide +kernel
  have hdone : becomes (.controlWord 0 ⟨1, false⟩) upWithDrain ((upWithDrain.toBody.control 0 1 false).settleDrain 0) :=
    becomes_of_link linkReady_upWithDrain (exec_controlWord upWithDrain 0 ⟨1, false⟩) rfl hw
  have hdrain := congrArg (fun b : Body => (b.lp 0).drain) (becomes_unique hdone h)
  rw [drain_after_bad_controlWord, drain_upWithDrain] at hdrain
  cases hdrain

/-- Refutes O32: a control word with a bad CC8 is not used, but its arrival ends a drain still marked on a port in UP, so the body
changes; the clause does not suppose that no drain is marked, as those for a good CC8 do. -/
theorem not_linksKeepGroups : ¬ Obligations.LinksKeepGroups := by
  unfold Obligations.LinksKeepGroups
  intro h
  obtain ⟨-, -, hlink⟩ := h
  obtain ⟨-, hbad, -⟩ := hlink upWithDrain 0 linkReady_upWithDrain (by decide) rfl rfl
  exact not_becomes_same_of_bad_controlWord (hbad 1 false (by decide +kernel))

end Sys2Proof.Machine
end

section
/-! SUPPORT. Choosing a frame (03 R81; 05 R128-R136, R139) touches the traffic manager, the pairs' rates and counters alone
(`Body.sansTms`). -/
namespace Sys2Proof.Machine

variable (s : Body)

/-- The body without its traffic manager, its budget, its draws and its reports, except what has left. -/
def Body.sansTms (s : Body) : Body := { s.sansMarks with tms := {}, budget := {}, out := s.out }

/-! ### What choosing keeps -/

theorem sansTms_bumpBy {c : Ctr} (hc : c.perSett = false) (i n : Nat) : (s.bumpBy c i n).sansTms = s.sansTms := by
  unfold Body.bumpBy; rw [hc]; rfl

@[simp] theorem sansTms_sweepStreams (die : Nat) : (s.sweepStreams die).sansTms = s.sansTms := by
  unfold Body.sweepStreams
  extract_lets idle done s1
  have hdone : s1.sansTms = s.sansTms := foldl_keeps Body.sansTms (fun b x => b.freeStream x) (fun _ _ => rfl) _ _
  refine keeps_ite Body.sansTms (fun _ => hdone) fun _ => ?_
  exact (foldl_keeps Body.sansTms _ (fun b x => (sansTms_bumpBy (b.freeStream x) rfl die 1).trans rfl) _ _).trans hdone

@[simp] theorem sansTms_unqueueAll (out : QEntry → Bool) : (s.unqueueAll out).sansTms = s.sansTms := by
  unfold Body.unqueueAll
  dsimp only
  refine keeps_ite Body.sansTms (fun _ => rfl) fun _ => ?_
  exact (foldl_keeps Body.sansTms _ (fun b d => sansTms_sweepStreams b d) _ _).trans rfl

@[simp] theorem sansTms_countWaits (l : Nat) : (s.countWaits l).sansTms = s.sansTms := by
  unfold Body.countWaits
  extract_lets hs s1 seqs
  exact (show _ = s1.sansTms from rfl).trans (sansTms_bumpBy s rfl _ _)

section view
variable {a b : Body} (h : a.sansTms = b.sansTms)
include h

theorem lp_of_sansTms (l : Nat) : a.lp l = b.lp l := by
  show a.sansTms.lp l = b.sansTms.lp l; rw [h]

theorem frame_of_sansTms (fid : Nat) : a.frame fid = b.frame fid := by
  show a.sansTms.frame fid = b.sansTms.frame fid; rw [h]

theorem isGateway_of_sansTms (p : Nat) : a.isGateway p = b.isGateway p := by
  show a.sansTms.isGateway p = b.sansTms.isGateway p; rw [h]

theorem tailOn_of_sansTms (l : Nat) (f : BufFrame) (r : Rest) : a.tailOn l f r = b.tailOn l f r := by
  show a.sansTms.tailOn l f r = b.sansTms.tailOn l f r; rw [h]

theorem origWait_of_sansTms : a.fwc.origWait = b.fwc.origWait := by
  show a.sansTms.fwc.origWait = b.sansTms.fwc.origWait; rw [h]

theorem out_of_sansTms : a.out = b.out := by
  show a.sansTms.out = b.sansTms.out; rw [h]

end view

/-! ### Leaving the queue (05 R127) -/

theorem queue_sweepStreams (die : Nat) : (s.sweepStreams die).tms.queue = s.tms.queue := queue_of_sansMarks (sansMarks_sweepStreams ..)

theorem queue_unqueueAll (out : QEntry → Bool) : (s.unqueueAll out).tms.queue = s.tms.queue.filter fun e => !out e := by
  unfold Body.unqueueAll
  dsimp only
  split
  case isTrue h =>
    have hnone := List.filter_eq_nil_iff.mp (List.isEmpty_iff.mp h)
    exact (List.filter_eq_self.mpr fun e he => by simpa using hnone e he).symm
  case isFalse => exact (foldl_keeps (fun b : Body => b.tms.queue) _ (fun b d => queue_sweepStreams b d) _ _).trans rfl

theorem seq_ne_of_mem_unqueue {e q : QEntry} (h : q ∈ (s.unqueue e).tms.queue) : q.seq ≠ e.seq := by
  rw [Body.unqueue, queue_unqueueAll] at h
  simpa using (List.mem_filter.mp h).2

end Sys2Proof.Machine
end

section
/-! SUPPORT. A copy that has left (03 R79; 05 R141; 09 R251): its part of the buffer is freed, and what the ports are sending stays. -/
namespace Sys2Proof.Machine

variable (s : Body)

/-- The queues, who waits for cells, and what port `l` has sent and has in launch. -/
def Body.sending (s : Body) (l : Nat) : List QEntry × List OrigWait × List Nat × List TxFrame × Option Nat :=
  (s.tms.queue, s.fwc.origWait, (s.lp l).sent, (s.lp l).tx, (s.lp l).launch)

theorem sending_of_links {a b : Body} (hl : a.links = b.links) (ht : a.tms = b.tms) (l : Nat) : a.sending l = b.sending l := by
  have hport := congrArg (fun x : LPort => (x.sent, x.tx, x.launch)) (sansCells_of_links hl l)
  exact Prod.ext (congrArg Tms.queue ht) (Prod.ext (origWait_of_links hl) hport)

/-! ### The traffic manager is not told -/

@[simp] theorem tms_uncredit (l c : Nat) (up : Bool) (n : Nat) : (s.uncredit l c up n).tms = s.tms := by
  obtain ⟨u, off, o, h⟩ := uncredit_eq_setUncred s l c up n
  rw [h]; rfl

@[simp] theorem tms_returnCells (f : BufFrame) (n : Nat) : (s.returnCells f n).tms = s.tms := by
  unfold Body.returnCells
  cases f.origin with
  | own => rfl
  | alp l v => rfl
  | udp l => exact tms_uncredit ..
  | eth l c => exact tms_uncredit ..

@[simp] theorem tms_collect (fid : Nat) : (s.collect fid).tms = s.tms := by
  unfold Body.collect
  split
  · exact keeps_ite Body.tms (fun _ => rfl) fun _ => rfl
  · rfl

@[simp] theorem tms_releaseCopy (fid : Nat) : (s.releaseCopy fid).tms = s.tms := by
  unfold Body.releaseCopy
  split
  · rfl
  · exact keeps_ite Body.tms (fun _ => (tms_collect ..).trans (tms_returnCells s _ _)) fun _ => rfl

@[simp] theorem sending_returnAllot (k l : Nat) : (s.returnAllot k).sending l = s.sending l := by
  unfold Body.returnAllot
  extract_lets n d
  refine keeps_ite (fun b : Body => b.sending l) (fun _ => rfl) fun _ => ?_
  unfold Body.sending Body.modLp
  rw [lp_setLp]
  split
  · subst_vars; rfl
  · rfl

@[simp] theorem sending_doneCopy (e : QEntry) (l : Nat) : (s.doneCopy e).sending l = s.sending l := by
  unfold Body.doneCopy
  refine keeps_ite (fun b : Body => b.sending l) (fun _ => ?_) fun _ => ?_
  · exact (sending_returnAllot ..).trans (sending_of_links (links_collect ..) (tms_collect ..) l)
  · exact sending_of_links (links_releaseCopy ..) (tms_releaseCopy ..) l

/-! ### What has left stays on record -/

theorem grows_pfcCheck (l c : Nat) : Grows s (s.pfcCheck l c) := by
  unfold Body.pfcCheck
  extract_lets x on n
  split
  · exact Grows.refl s
  · split
    · exact (Grows.of_eq rfl).trans (grows_putOut _ _)
    · split
      · exact (Grows.of_eq rfl).trans (grows_putOut _ _)
      · exact Grows.refl s

theorem grows_uncredit (l c : Nat) (up : Bool) (n : Nat) : Grows s (s.uncredit l c up n) :=
  Grows.trans (b := s.setLp l _) (Grows.of_eq rfl) (grows_pfcCheck ..)

theorem grows_returnCells (f : BufFrame) (n : Nat) : Grows s (s.returnCells f n) := by
  unfold Body.returnCells
  cases f.origin with
  | own => exact Grows.of_eq rfl
  | alp l v => exact Grows.of_eq rfl
  | udp l => exact Grows.trans (b := s.setPool f.die _) (Grows.of_eq rfl) (grows_uncredit ..)
  | eth l c => exact Grows.trans (b := s.setPool f.die _) (Grows.of_eq rfl) (grows_uncredit ..)

@[simp] theorem out_collect (fid : Nat) : (s.collect fid).out = s.out := by
  unfold Body.collect
  split
  · exact keeps_ite Body.out (fun _ => rfl) fun _ => rfl
  · rfl

theorem grows_releaseCopy (fid : Nat) : Grows s (s.releaseCopy fid) := by
  unfold Body.releaseCopy
  split
  · exact Grows.refl s
  · split
    · exact (grows_returnCells s _ _).trans (Grows.of_eq (out_collect ..))
    · exact Grows.of_eq rfl

@[simp] theorem out_returnAllot (k : Nat) : (s.returnAllot k).out = s.out := by
  unfold Body.returnAllot
  extract_lets n d
  exact keeps_ite Body.out (fun _ => rfl) fun _ => rfl

theorem grows_doneCopy (e : QEntry) : Grows s (s.doneCopy e) := by
  unfold Body.doneCopy
  split
  · exact Grows.of_eq ((out_returnAllot ..).trans (out_collect ..))
  · exact grows_releaseCopy ..

end Sys2Proof.Machine
end

section
/-! SUPPORT. A launch on an ALP port (03 R81, R82; 02 R55). -/
namespace Sys2Proof.Machine

variable {s : Body} {l : Nat} {e : QEntry} {f : BufFrame} {dc ds : List (Nat × Nat)}

/-- The body once the chosen entry is charged and out of its queue. -/
def Body.dequeued (s : Body) (l : Nat) (e : QEntry) (f : BufFrame) (dc ds : List (Nat × Nat)) : Body :=
  ((s.chargeLaunch l e (s.wireBytes l f e.copy.repl) dc ds).markSoj l e).unqueue e

/-- The body once the entry's frame counts toward its pair's rate too (10 R265). -/
def Body.chosen (s : Body) (l : Nat) (e : QEntry) (f : BufFrame) (dc ds : List (Nat × Nat)) : Body :=
  let b := s.dequeued l e f dc ds
  if f.hdr.src == b.own then b.countC f.hdr f.ext (b.routeAddr f.hdr.dst e.copy.repl) else b

/-- The port once a copy is on its way to its link: its cells are counted as sent, and it waits to be carried. -/
def LPort.launching (x : LPort) (e : QEntry) (h : Hdr) (bytes : Nat) : LPort :=
  { x with sent := setNth x.sent h.vl.toNat ((nth x.sent h.vl.toNat 0 + frameCells h) % 2 ^ 24)
           tx := x.tx ++ [{ copy := some e.copy, bytes }] }

/-- The body with the chosen copy on its way to the link of ALP port `l`. -/
def Body.launched (s : Body) (l : Nat) (e : QEntry) (f : BufFrame) (dc ds : List (Nat × Nat)) : Body :=
  (s.chosen l e f dc ds).modLp l fun x => x.launching e f.hdr (s.wireBytes l f e.copy.repl)

theorem chosen_eq_withBudget : ∃ m, s.chosen l e f dc ds = (s.dequeued l e f dc ds).withBudget m := by
  unfold Body.chosen
  dsimp only
  split
  · exact countC_eq_withBudget ..
  · exact ⟨(s.dequeued l e f dc ds).budget, rfl⟩

theorem sansTms_chosen : (s.chosen l e f dc ds).sansTms = s.sansTms := by
  obtain ⟨m, hm⟩ := chosen_eq_withBudget (s := s) (l := l) (e := e) (f := f) (dc := dc) (ds := ds)
  rw [hm]
  exact (sansTms_unqueueAll ((s.chargeLaunch l e (s.wireBytes l f e.copy.repl) dc ds).markSoj l e) _).trans rfl

theorem seq_ne_of_mem_chosen {q : QEntry} (h : q ∈ (s.chosen l e f dc ds).tms.queue) : q.seq ≠ e.seq := by
  obtain ⟨m, hm⟩ := chosen_eq_withBudget (s := s) (l := l) (e := e) (f := f) (dc := dc) (ds := ds)
  rw [hm] at h
  exact seq_ne_of_mem_unqueue _ h

theorem lp_launched : (s.launched l e f dc ds).lp l = (s.lp l).launching e f.hdr (s.wireBytes l f e.copy.repl) := by
  rw [Body.launched, lp_modLp_same, lp_of_sansTms sansTms_chosen]

theorem sending_launched : (s.launched l e f dc ds).sending l =
    (let x := (s.lp l).launching e f.hdr (s.wireBytes l f e.copy.repl)
     ((s.chosen l e f dc ds).tms.queue, s.fwc.origWait, x.sent, x.tx, (s.lp l).launch)) := by
  have hwait : (s.launched l e f dc ds).fwc.origWait = s.fwc.origWait :=
    origWait_of_sansTms (a := s.chosen l e f dc ds) sansTms_chosen
  unfold Body.sending
  rw [lp_launched, hwait]
  rfl

theorem out_launched : (s.launched l e f dc ds).out = s.out := out_of_sansTms (a := s.chosen l e f dc ds) sansTms_chosen

theorem tailOn_launched (r : Rest) : (s.launched l e f dc ds).tailOn l f r = s.tailOn l f r := by
  have hgate : (s.launched l e f dc ds).isGateway (physOf l) = s.isGateway (physOf l) := isGateway_of_sansTms sansTms_chosen _
  have hminor : ((s.launched l e f dc ds).lp l).minor = (s.lp l).minor := by rw [lp_launched]; rfl
  unfold Body.tailOn Body.oldLink
  rw [hgate, hminor]

/-- A port that chooses a frame has none in launch. -/
theorem launch_of_pickFrame {p : QEntry × List (Nat × Nat) × List (Nat × Nat)} (h : s.pickFrame l = some p) :
    (s.lp l).launch = none := by
  by_contra hne
  have hbusy : ((s.lp l).state != .up || (s.lp l).peerDraining || (s.lp l).hold.isSome || (s.lp l).launch.isSome) = true := by
    simp [Option.isSome_iff_ne_none.mpr hne]
  unfold Body.pickFrame at h
  rw [if_pos hbusy] at h
  cases h

section alp
variable (hgate : s.isGateway (physOf l) = false) (heth : f.eth = none)
include hgate

/-- A launch goes by whether its tail has come. -/
theorem start_of_alp : s.start l e f none dc ds =
    (let b := s.launched l e f dc ds
     f.rest.elim (b.modLp l fun x => { x with launch := some e.copy.fid, launchCopy := some e.copy, launchHop := none })
       fun r => (b.frameOut l f e.copy none r).doneCopy e) := by
  unfold Body.start
  extract_lets bytes v b1 b2 b3 b
  have hchosen : b2.isGateway (physOf l) = false :=
    (isGateway_of_sansTms (sansTms_chosen (s := s) (dc := dc) (ds := ds)) _).trans hgate
  have hlink : b3 = b := if_neg (Bool.eq_false_iff.mp hchosen)
  rw [hlink]
  cases f.rest <;> rfl

/-- A frame whose tail has not come is on its way out. -/
theorem start_of_open (hr : f.rest = none) : s.start l e f none dc ds =
    (s.launched l e f dc ds).modLp l fun x => { x with launch := some e.copy.fid, launchCopy := some e.copy, launchHop := none } := by
  rw [start_of_alp hgate, hr, Option.elim_none]

include heth

theorem wireBytes_of_alp (repl : Option (Nat × W32)) : s.wireBytes l f repl = frameBytes f.hdr := by
  simp [Body.wireBytes, heth, hgate]

/-- A frame that is no CONF, or a link that knows CONF (02 R48). -/
theorem barred_of_alp (hconf : (s.lp l).minor = 2 ∨ f.hdr.opc.toNat ≠ 7) (c : Copy) : s.barred l f c = (.go none, s) := by
  have hknown : ¬ (s.oldLink l = true ∧ f.hdr.opc.toNat = opConf) := by
    rintro ⟨hold, hopc⟩
    rcases hconf with hminor | hother
    · simp [Body.oldLink, hminor] at hold
    · exact hother hopc
  simp [Body.barred, heth, hgate, hknown]

/-- A frame whose tail has come leaves whole. -/
theorem start_of_whole {r : Rest} (hr : f.rest = some r) : s.start l e f none dc ds =
    ((s.launched l e f dc ds).putOut (.frame l (copyHdr f.hdr e.copy) f.ext (some (s.tailOn l f r)))).doneCopy e := by
  rw [start_of_alp hgate, hr, Option.elim_some, ← tailOn_launched (dc := dc) (ds := ds) (e := e) r]
  simp only [Body.frameOut, heth]

end alp

/-- A port's choice that nothing bars starts (05 R129). -/
theorem launchOn_of_pickFrame (hpick : (s.countWaits l).pickFrame l = some (e, dc, ds)) (hframe : s.frame e.copy.fid = some f)
    (hgate : s.isGateway (physOf l) = false) (heth : f.eth = none) (hconf : (s.lp l).minor = 2 ∨ f.hdr.opc.toNat ≠ 7) :
    s.launchOn l = (s.countWaits l).start l e f none dc ds := by
  have hkept := sansTms_countWaits s l
  have hbarred : (s.countWaits l).barred l f e.copy = (.go none, s.countWaits l) :=
    barred_of_alp ((isGateway_of_sansTms hkept _).trans hgate) heth (by rw [lp_of_sansTms hkept]; exact hconf) _
  unfold Body.launchOn
  simp only [hpick, (frame_of_sansTms hkept _).trans hframe, hbarred]

/-! ### A launch whose data stop coming (03 R82) -/

theorem tailOn_of_not_late {r : Rest} (h : r.status.toNat ≠ tLate) : s.tailOn l f r = r := by
  unfold Body.tailOn
  split
  · exact if_neg fun ⟨_, _, hlate⟩ => h hlate
  · rfl

/-- The body with nothing in launch on port `l`. -/
def Body.freePort (s : Body) (l : Nat) : Body := s.modLp l fun x => { x with launch := none, launchCopy := none, launchHop := none }

theorem launch_freePort : ((s.freePort l).lp l).launch = none := congrArg LPort.launch (lp_modLp_same ..)

/-- The body once an underrun is counted, for the module and for the frame. -/
def Body.countUnderrun (s : Body) (l : Nat) (f : BufFrame) : Body :=
  (({ s with free := s.free + 1 } : Body).bump .cutUnderrun l).setFrame { f with under := f.under + 1 }

theorem lp_countUnderrun (m : Nat) : (s.countUnderrun l f).lp m = s.lp m := lp_of_quiet (quiet_bump { s with free := s.free + 1 } ..) m

theorem origWait_countUnderrun : (s.countUnderrun l f).fwc.origWait = s.fwc.origWait :=
  origWait_of_links (a := ({ s with free := s.free + 1 } : Body).bump .cutUnderrun l) (links_bump ..)

theorem count_countUnderrun : (s.countUnderrun l f).count .cutUnderrun l = (s.count .cutUnderrun l + 1) % 2 ^ 64 :=
  count_bump (s := { s with free := s.free + 1 }) rfl l

section launching
variable {fid : Nat} {c : Copy} (hlaunch : (s.lp l).launch = some fid) (hcopy : (s.lp l).launchCopy = some c)
  (hhop : (s.lp l).launchHop = none) (hframe : s.frame fid = some f)
include hframe

theorem frame_countUnderrun : (s.countUnderrun l f).frame fid = some { f with under := f.under + 1 } := by
  have hkept : (({ s with free := s.free + 1 } : Body).bump .cutUnderrun l).frame fid = some f :=
    (frame_of_fwc (fwc_of_quiet (quiet_bump ..)) fid).trans hframe
  have hfid : f.fid = fid := fid_of_frame hframe
  exact frame_setFrame hkept (g := { f with under := f.under + 1 }) hfid

include hlaunch

theorem underrun_of_open (hrest : f.rest = none) (sent : List W64) : s.underrun l sent =
    (s.countUnderrun l f).endLaunch l (cutRest f.hdr sent (Config.unstated (8000000 + s.free)).toNat) := by
  have hopen : ¬ f.rest.isSome = true := by simp [hrest]
  unfold Body.underrun
  simp only [hlaunch, hframe]
  exact if_neg hopen

include hcopy hhop

theorem endLaunch_of_launching (heth : f.eth = none) (r : Rest) :
    s.endLaunch l r = (s.freePort l).putOut (.frame l (copyHdr f.hdr c) f.ext (some ((s.freePort l).tailOn l f r))) := by
  have hkept : (s.freePort l).frame fid = some f := hframe
  unfold Body.freePort Body.modLp at hkept ⊢
  unfold Body.endLaunch
  simp only [hlaunch, hcopy, hhop, hkept, Body.frameOut, heth]

/-- What had come of the frame leaves, filled with zeros, as POISON. -/
theorem underrun_of_launching (hrest : f.rest = none) (heth : f.eth = none) (sent : List W64) : s.underrun l sent =
    ((s.countUnderrun l f).freePort l).putOut (.frame l (copyHdr f.hdr c) f.ext
      (some (cutRest f.hdr sent (Config.unstated (8000000 + s.free)).toNat))) := by
  have hport := lp_countUnderrun (s := s) (l := l) (f := f) l
  rw [underrun_of_open hlaunch hframe hrest, endLaunch_of_launching (f := { f with under := f.under + 1 }) (hport ▸ hlaunch)
    (hport ▸ hcopy) (hport ▸ hhop) (frame_countUnderrun hframe) heth, tailOn_of_not_late]
  exact (by decide : (1 : Nat) ≠ tLate)

end launching

/-! ### The launch as a whole -/

section choice
variable (hpick : (s.countWaits l).pickFrame l = some (e, dc, ds)) (hframe : s.frame e.copy.fid = some f)
  (hgate : s.isGateway (physOf l) = false) (heth : f.eth = none) (hconf : (s.lp l).minor = 2 ∨ f.hdr.opc.toNat ≠ 7)
include hpick hframe hgate heth hconf

/-- The entry is out of its queue, its cells are counted as sent, the port has it in launch while its tail has not come, and who waits
for cells is as before. -/
theorem sending_launchOn : (s.launchOn l).sending l =
    (let x := (s.lp l).launching e f.hdr (frameBytes f.hdr)
     (((s.countWaits l).chosen l e f dc ds).tms.queue, s.fwc.origWait, x.sent, x.tx, if f.rest.isSome then none else some e.copy.fid)) := by
  have hkept := sansTms_countWaits s l
  have hlink : (s.countWaits l).isGateway (physOf l) = false := (isGateway_of_sansTms hkept _).trans hgate
  have hlaunched := sending_launched (s := s.countWaits l) (l := l) (e := e) (f := f) (dc := dc) (ds := ds)
  rw [wireBytes_of_alp hlink heth, lp_of_sansTms hkept, origWait_of_sansTms hkept] at hlaunched
  rw [launchOn_of_pickFrame hpick hframe hgate heth hconf]
  cases hr : f.rest with
  | some r =>
    have hidle : (s.lp l).launch = none := by rw [← lp_of_sansTms hkept]; exact launch_of_pickFrame hpick
    rw [start_of_whole hlink heth hr, sending_doneCopy]
    exact hidle ▸ hlaunched
  | none =>
    rw [start_of_open hlink hr]
    simp only [Body.sending, Prod.mk.injEq] at hlaunched
    obtain ⟨hqueue, hwait, hsent, htx, -⟩ := hlaunched
    unfold Body.sending
    rw [lp_modLp_same]
    exact Prod.ext hqueue (Prod.ext hwait (Prod.ext hsent (Prod.ext htx rfl)))

theorem out_launchOn_of_whole {r : Rest} (hr : f.rest = some r) :
    Out.frame l (copyHdr f.hdr e.copy) f.ext (some (s.tailOn l f r)) ∈ (s.launchOn l).out := by
  have hkept := sansTms_countWaits s l
  rw [launchOn_of_pickFrame hpick hframe hgate heth hconf, start_of_whole ((isGateway_of_sansTms hkept _).trans hgate) heth hr,
    tailOn_of_sansTms hkept]
  exact (grows_doneCopy _ e).mem (List.mem_append_right _ List.mem_cons_self)

theorem out_launchOn_of_open (hr : f.rest = none) : (s.launchOn l).out = s.out := by
  have hkept := sansTms_countWaits s l
  rw [launchOn_of_pickFrame hpick hframe hgate heth hconf, start_of_open ((isGateway_of_sansTms hkept _).trans hgate) hr]
  exact out_launched.trans (out_of_sansTms hkept)

end choice

/-- Settles O38: a choice that nothing bars leaves its queue for the link, and goes out at once when its tail has come; an underrun ends
what is in launch with the words that have come. -/
theorem framesLaunch : Obligations.FramesLaunch := by
  intro s l h hp hgate b x
  refine ⟨fun e dc ds f hpick hframe heth hconf => ?launch, fun fid c f sent hlaunch hcopy hhop hframe hrest heth => ?underrun⟩
  case launch =>
    intro y
    have hsending := sending_launchOn hpick hframe hgate heth hconf
    simp only [Body.sending, Prod.mk.injEq] at hsending
    obtain ⟨hqueue, hwait, hsent, htx, hport⟩ := hsending
    refine ⟨_, becomes_of_dataPort_of_none h hp (exec_frameLaunch s l) rfl (hwait.trans h.none_waits),
      fun q (hq : q ∈ (b.launchOn l).tms.queue) => ?_, hsent, htx,
      fun r hr => ⟨?_, out_launchOn_of_whole hpick hframe hgate heth hconf hr⟩,
      fun hr => ⟨?_, out_launchOn_of_open hpick hframe hgate heth hconf hr⟩⟩
    · rw [hqueue] at hq
      exact seq_ne_of_mem_chosen hq
    · simpa [hr] using hport
    · simpa [hr] using hport
  case underrun =>
    have hbody := underrun_of_launching hlaunch hcopy hhop hframe hrest heth sent
    refine ⟨_, becomes_of_dataPort_of_none h hp (exec_cutUnderrun s ⟨l, sent⟩) hbody (origWait_countUnderrun.trans h.none_waits),
      launch_freePort, count_countUnderrun (f := f), frame_countUnderrun hframe, _,
      List.mem_append_right _ List.mem_cons_self⟩

end Sys2Proof.Machine
end

section
/-! SUPPORT. The admission window of a context that names a successor before its descriptor is valid (08 R223, R224, Table 8-7; 01 R22). -/
namespace Sys2Proof.Machine

/-- An ADMITTING context of group 7 without a valid descriptor, whose successor has ALG STREAM (08 Table 8-6). -/
def successorCtx : Ctx := { key := ⟨0x80000007, 5⟩, pol := 0, epoch := 0, succ := some 1, nextAlg := some 1 }

/-- A group of no members. -/
def emptyGroup : Group := { addr := 0x80000007, epoch := 0, members := [], repl := [] }

/-- A module in operation that holds that group and that context. -/
def admittingWithSuccessor : State := { State.reset with
  power := { phase := 5, state := .operational }
  tables := { group := { a := { store := [(0, groupEntry 0x80000007 0)] }, b := { store := [(0, groupEntry 0x80000007 0)] } } }
  coll := { groups := [(0, emptyGroup)], ctxs := [successorCtx] } }

theorem dataRuns_admittingWithSuccessor : admittingWithSuccessor.toBody.dataRuns = true := by decide +kernel

theorem ctx_admittingWithSuccessor : admittingWithSuccessor.toBody.ctx successorCtx.key = some successorCtx := by decide +kernel

theorem group_admittingWithSuccessor : admittingWithSuccessor.toBody.group successorCtx.key.g = some emptyGroup := by decide +kernel

/-- The context passes through, but on its way meets a chunk boundary, where its successor's ALG takes the place of PASS_THROUGH's. -/
theorem alg_after_window :
    ((admittingWithSuccessor.toBody.windowExpiry successorCtx.key).ctx successorCtx.key).map (fun c => (c.st, c.alg))
      = some (.passThrough, 1) := by decide +kernel

theorem exec_admissionWindowExpiry_of_runs {s : State} (h : s.toBody.dataRuns = true) (k : CtxKey) :
    exec (.admissionWindowExpiry k) s = .next { s with toBody := s.toBody.windowExpiry k } := by
  rw [exec_admissionWindowExpiry]
  simp only [execAdmissionWindowExpiry, onBody, h, if_true]

/-- Refutes O47: after the admission window of a context that names a successor with ALG STREAM while its descriptor is not valid yet,
ALG is 1 (STREAM) and not 2; the clause does not suppose that such a context names no successor. -/
theorem not_collectiveTimers : ¬ Obligations.CollectiveTimers := by
  unfold Obligations.CollectiveTimers
  intro h
  obtain ⟨-, -, -, htimers, -⟩ := h admittingWithSuccessor dataRuns_admittingWithSuccessor
  obtain ⟨hwindow, -⟩ := htimers successorCtx.key successorCtx emptyGroup ctx_admittingWithSuccessor rfl group_admittingWithSuccessor
  obtain ⟨t, c, hexec, hctx, -, halg, -⟩ := hwindow rfl rfl
  rw [exec_admissionWindowExpiry_of_runs dataRuns_admittingWithSuccessor] at hexec
  injection hexec with ht
  subst ht
  have hafter := alg_after_window
  rw [show (admittingWithSuccessor.toBody.windowExpiry successorCtx.key).ctx successorCtx.key = some c from hctx] at hafter
  simp [halg] at hafter

end Sys2Proof.Machine
end

section
/-! SUPPORT. The table commands (01 R19, R20; 04 R96, R97, R123): what a flip and a write each leave in the banks. -/
namespace Sys2Proof.Machine

/-! ### Flips (04 R97) -/

section banked
variable {n : Nat} (t : Banked n)

@[simp] theorem Banked.flipIf_false : t.flipIf false = t := by simp [Banked.flipIf]

@[simp] theorem Banked.flipIf_true : t.flipIf true = t.flip := by simp [Banked.flipIf, Banked.flip]

@[simp] theorem Banked.flipIf_flipIf (p q : Bool) : (t.flipIf p).flipIf q = t.flipIf (p ^^ q) := by simp [Banked.flipIf]

end banked

section hashed
variable {n : Nat} (t : Hashed n)

@[simp] theorem Hashed.flipIf_false : t.flipIf false = t := by simp [Hashed.flipIf]

@[simp] theorem Hashed.flipIf_true : t.flipIf true = t.flip := by simp [Hashed.flipIf, Hashed.flip]

@[simp] theorem Hashed.flipIf_flipIf (p q : Bool) : (t.flipIf p).flipIf q = t.flipIf (p ^^ q) := by simp [Hashed.flipIf]

end hashed

/-- The tables with the active bank of each named one changed; 0x11 names the class nodes and the PCP maps (entry 27). -/
def Tables.flipIf (x : Tables) (named : Nat → Bool) : Tables :=
  { x with
    pod := x.pod.flipIf (named 1), rack := x.rack.flipIf (named 2), loc := x.loc.flipIf (named 3), gw := x.gw.flipIf (named 5)
    portNode := x.portNode.flipIf (named 0x10), classNode := x.classNode.flipIf (named 0x11)
    pcpMap := x.pcpMap.flipIf (named 0x11), streamMap := x.streamMap.flipIf (named 0x12)
    profile := x.profile.flipIf (named 0x13), cong := x.cong.flipIf (named 0x14) }

theorem Tables.flipIf_none (x : Tables) : x.flipIf (fun _ => false) = x := by simp [Tables.flipIf]

theorem Tables.flipIf_flipIf (x : Tables) (p q : Nat → Bool) : (x.flipIf p).flipIf q = x.flipIf fun n => p n ^^ q n := by
  simp [Tables.flipIf]

theorem tables_flipLevels (old s : Body) (t : Nat) : (old.flipLevels s t).tables = s.tables := by
  unfold Body.flipLevels; split <;> rfl

/-- Flipping one table changes the active bank of that table alone. -/
theorem tables_flipTable (s : Body) (t : Nat) : (s.flipTable t).tables = s.tables.flipIf fun n => t == n := by
  unfold Body.flipTable
  rw [tables_flipLevels]
  dsimp only
  split
  case h_10 h1 h2 h3 h5 h10 h11 h12 h13 h14 =>
    have hne : ∀ {n : Nat}, (t = n → False) → (t == n) = false := fun h => beq_eq_false_iff_ne.mpr h
    simp [Tables.flipIf, hne h1, hne h2, hne h3, hne h5, hne h10, hne h11, hne h12, hne h13, hne h14]
  all_goals simp [Tables.flipIf]

/-- Tables flipped one after another, none twice, are those named by the list. -/
theorem tables_foldl_flipTable {l : List Nat} (hl : l.Nodup) (s : Body) :
    (l.foldl Body.flipTable s).tables = s.tables.flipIf fun n => l.contains n := by
  induction l generalizing s with
  | nil => exact (Tables.flipIf_none _).symm
  | cons t l ih =>
    obtain ⟨ht, hl⟩ := List.nodup_cons.mp hl
    rw [List.foldl_cons, ih hl, tables_flipTable, Tables.flipIf_flipIf]
    congr 1
    funext n
    by_cases hn : t = n
    · simp [← hn, ht]
    · simp [beq_eq_decide, hn, Ne.symm hn]

theorem nodup_dedupNat (l : List Nat) : (dedupNat l).Nodup := by
  suffices h : ∀ acc : List Nat, acc.Nodup → (l.foldl (fun acc a => if acc.contains a then acc else acc ++ [a]) acc).Nodup from
    h [] List.nodup_nil
  induction l with
  | nil => exact fun acc h => h
  | cons a l ih =>
    intro acc hacc
    rw [List.foldl_cons]
    split
    · exact ih _ hacc
    · next ha => exact ih _ (List.concat_eq_append ▸ hacc.concat (by simpa using ha))

/-- Settles O13: the flips of a command, one for each ID that it names, are those of the tables it names. -/
theorem tableFlipChangesNamedBanks : Obligations.TableFlipChangesNamedBanks := by
  intro r s d h
  have hrun := tables_of_quiet (quiet_of_ready (u := 0) s.toBody h rfl fun _ _ _ _ => rfl)
  have hflips := tables_foldl_flipTable (nodup_dedupNat (((leBytes 8 (d.word 2)).map BitVec.toNat).filter fun b => b != 0))
    (s.toBody.atRun specTableFlip r d [])
  have hstart := tables_of_quiet (quiet_atRun s.toBody specTableFlip r d [])
  exact ⟨_, exec_tableFlip s r, hrun.trans (hflips.trans (congrArg (fun x => Tables.flipIf x _) hstart))⟩

/-! ### Writes (04 R96, R123) -/

/-- What a write to shadow banks leaves alone: the active banks, the tables without a host's shadow bank and who waits for a table. -/
def Tables.inForce (x : Tables) :=
  (x.pod.act, x.rack.act, x.loc.act, x.gw.act, x.portNode.act, x.classNode.act, x.pcpMap.act, x.streamMap.act, x.profile.act, x.cong.act,
    x.group, x.settSel, x.waiting)

section banks
variable {n : Nat}

theorem Banked.act_setShadow (t : Banked n) (m : Map (BitVec n)) : (t.setShadow m).act = t.act := by
  cases h : t.active <;> simp [Banked.setShadow, Banked.act, h]

theorem Banked.shadow_setShadow (t : Banked n) (m : Map (BitVec n)) : (t.setShadow m).shadow = m := by
  cases h : t.active <;> simp [Banked.setShadow, Banked.shadow, h]

theorem Hashed.act_setShadow (t : Hashed n) (m : HashBank n) : (t.setShadow m).act = t.act := by
  cases h : t.active <;> simp [Hashed.setShadow, Hashed.act, h]

/-- A write by index sets the shadow bank; of the rest it changes only what a dirty bank counts (01 R20). -/
theorem putBank_eq (t : Banked n) (size idx e : Nat) :
    ∃ dirty rewritten, putBank t size idx e =
      { t.setShadow (mset t.shadow idx (BitVec.ofNat n e)) with dirty, rewritten } := by
  unfold putBank
  extract_lets u w
  split
  · split
    · exact ⟨_, _, rfl⟩
    · exact ⟨_, _, rfl⟩
  · exact ⟨_, _, rfl⟩

@[simp] theorem act_putBank (t : Banked n) (size idx e : Nat) : (putBank t size idx e).act = t.act := by
  obtain ⟨dirty, rewritten, h⟩ := putBank_eq t size idx e
  rw [h]
  exact t.act_setShadow _

theorem mget_shadow_putBank (t : Banked n) (size idx e j : Nat) :
    mget (putBank t size idx e).shadow j = if j = idx then some (BitVec.ofNat n e) else mget t.shadow j := by
  obtain ⟨dirty, rewritten, h⟩ := putBank_eq t size idx e
  rw [h, ← mget_mset]
  exact congrArg (mget · j) (t.shadow_setShadow _)

end banks

/-- An entry of the Gateway table is written, or deleted, in the shadow bank alone. -/
theorem act_putGw {t g : Hashed 512} {e : BitVec 512} (h : putGw t e = some g) : g.act = t.act := by
  unfold putGw at h
  dsimp only at h
  split at h
  · split at h <;> obtain rfl := Option.some.inj h
    · exact t.act_setShadow _
    · rfl
  · obtain ⟨m, -, rfl⟩ := Option.map_eq_some_iff.mp h
    exact t.act_setShadow m

theorem tables_landWeights (s : Body) (key idx : Nat) (e : PathEntry) :
    ∃ kept, (landWeights s key idx e).1.tables = { s.tables with kept } := by
  unfold landWeights
  split
  · exact ⟨_, rfl⟩
  · exact ⟨_, rfl⟩

theorem tables_rehashRequest (s : Body) (t : Nat) (bank : Bool) :
    ∃ rehashAt, (s.rehashRequest t bank).2.tables = { s.tables with rehashAt } := by
  unfold Body.rehashRequest
  dsimp only
  split
  · exact ⟨_, rfl⟩
  · exact ⟨_, (tables_of_quiet (quiet_emit ..)).trans rfl⟩

/-- Writing an entry leaves what is in force as it was, of whatever table (04 R96). -/
theorem inForce_writeEntry (s : Body) (t idx e : Nat) : (s.writeEntry t idx e).2.tables.inForce = s.tables.inForce := by
  unfold Body.writeEntry
  extract_lets x
  split
  case h_1 =>
    obtain ⟨kept, h⟩ := tables_landWeights s (2 + if x.pod.active then 0 else 1) idx (BitVec.ofNat 2624 e)
    simp [Tables.inForce, h]
  case h_3 =>
    obtain ⟨kept, h⟩ := tables_landWeights s (6 + if x.loc.active then 0 else 1) idx (BitVec.ofNat 2624 e)
    simp [Tables.inForce, h]
  case h_4 =>
    split
    case h_1 g hg => simp [Tables.inForce, act_putGw hg, x]
    case h_2 =>
      obtain ⟨rehashAt, h⟩ := tables_rehashRequest s 5 (!x.gw.active)
      simp [Tables.inForce, h]
  case h_6 => split <;> simp [Tables.inForce, x]
  all_goals simp [Tables.inForce, x]

theorem wakeAll_of_none {s : Body} (h : s.tables.waiting = []) : s.wakeAll = s := by
  unfold Body.wakeAll Body.wakeTables
  rw [h]
  rfl

/-- A ready TABLE WRITE leaves the tables that its entry's write leaves. -/
theorem tables_tableWrite {s : Body} {r : CmdRef} {d : Desc} {data : List Byte} (h : Ready specTableWrite s r d data) :
    (hostCmd specTableWrite s r data 0).tables =
      ((s.atRun specTableWrite r d data).writeEntry (d.f 2 7 0) (d.f 2 63 32)
        (leNat (data.take (tableBytes (d.f 2 7 0) (d.f 2 63 32))))).2.tables :=
  tables_of_quiet (quiet_of_ready s h rfl fun d1 d2 hw _ => by simp [CmdSpec.need, specTableWrite, Desc.f, hw])

/-- Where no command waits for a table, TABLE WRITE is the course of a host command alone. -/
theorem exec_tableWrite_of_none_waits {s : State} {r : CmdRef} {data : List Byte}
    (h : (hostCmd specTableWrite s.toBody r data 0).tables.waiting = []) :
    exec (.tableWrite r data) s = .next { s with toBody := hostCmd specTableWrite s.toBody r data 0 } := by
  rw [exec_tableWrite, execTableWrite, onBody, wakeAll_of_none h]

/-- Settles O14: a write is one entry's write into the shadow bank, and no command waits for its table. -/
theorem tableWriteStaysInTheShadow : Obligations.TableWriteStaysInTheShadow := by
  intro r data s d h hwait tbl idx e
  have hstart : (s.toBody.atRun specTableWrite r d data).tables = s.tables := tables_of_quiet (quiet_atRun ..)
  have htables : (hostCmd specTableWrite s.toBody r data 0).tables
      = ((s.toBody.atRun specTableWrite r d data).writeEntry tbl idx e).2.tables := tables_tableWrite h
  have hforce : (hostCmd specTableWrite s.toBody r data 0).tables.inForce = s.tables.inForce := by
    rw [htables, inForce_writeEntry, hstart]
  simp only [Tables.inForce, Prod.mk.injEq] at hforce
  obtain ⟨hpod, hrack, hloc, hgw, hport, hclass, hpcp, hstream, hprofile, hcong, hgroup, hsett, hwaiting⟩ := hforce
  refine ⟨_, exec_tableWrite_of_none_waits (hwaiting.trans hwait), hpod, hrack, hloc, hgw, hport, hclass, hpcp, hstream, hprofile, hcong,
    hgroup, hsett, fun ht j => ?rack, fun ht j => ?stream, fun ht j => ?profile⟩
  all_goals
    dsimp only
    rw [htables, ht, ← hstart]
    exact mget_shadow_putBank ..

end Sys2Proof.Machine
end

section
/-! SUPPORT. The aging sweep of the Gateway table (04 R122, R124). -/
namespace Sys2Proof.Machine

section sweeper
variable {t : HashBank 512} {k e : BitVec 512} {w : Where} (hfind : t.find gwB (gwKey k) (gwSame k) = some (w, e))
include hfind

theorem ageBank_of_hit : ageBank t k true = t.put w (gwSetHit e false) := by simp [ageBank, hfind]

theorem ageBank_of_learned (hs : gwStatic e = false) : ageBank t k false = t.del w := by simp [ageBank, hfind, hs]

theorem ageBank_of_static (hs : gwStatic e = true) : ageBank t k false = t := by simp [ageBank, hfind, hs]

end sweeper

/-- The body with other banks of the Gateway table. -/
def Body.withGwBanks (s : Body) (a b : HashBank 512) : Body :=
  { s with tables := { s.tables with gw := { s.tables.gw with a, b } } }

section visit
variable {s : Body} {k ea eb : BitVec 512} {wa wb : Where}
variable (ha : s.tables.gw.a.find gwB (gwKey k) (gwSame k) = some (wa, ea))
variable (hb : s.tables.gw.b.find gwB (gwKey k) (gwSame k) = some (wb, eb))
include ha hb

/-- Each bank is swept by the OR of the two HIT bits, and a removal is counted. -/
theorem age_of_found :
    s.age k =
      if !(gwHit ea || gwHit eb) && (!gwStatic ea || !gwStatic eb) then
        (s.withGwBanks (ageBank s.tables.gw.a k (gwHit ea || gwHit eb)) (ageBank s.tables.gw.b k (gwHit ea || gwHit eb))).bump .gwAged 0
      else s.withGwBanks (ageBank s.tables.gw.a k (gwHit ea || gwHit eb)) (ageBank s.tables.gw.b k (gwHit ea || gwHit eb)) := by
  unfold Body.age
  dsimp only
  rw [ha, hb]
  rfl

theorem age_of_hit (hhit : gwHit ea = true ∨ gwHit eb = true) :
    s.age k = s.withGwBanks (s.tables.gw.a.put wa (gwSetHit ea false)) (s.tables.gw.b.put wb (gwSetHit eb false)) := by
  rw [age_of_found ha hb, (Bool.or_eq_true _ _).mpr hhit, ageBank_of_hit ha, ageBank_of_hit hb]
  rfl

section unhit
variable (hna : gwHit ea = false) (hnb : gwHit eb = false)
include hna hnb

theorem age_of_learned (hsa : gwStatic ea = false) (hsb : gwStatic eb = false) :
    s.age k = (s.withGwBanks (s.tables.gw.a.del wa) (s.tables.gw.b.del wb)).bump .gwAged 0 := by
  rw [age_of_found ha hb, hna, hnb, hsa, hsb, Bool.or_false, ageBank_of_learned ha hsa, ageBank_of_learned hb hsb]
  rfl

theorem age_of_static (hsa : gwStatic ea = true) (hsb : gwStatic eb = true) : s.age k = s := by
  rw [age_of_found ha hb, hna, hnb, hsa, hsb, Bool.or_false, ageBank_of_static ha hsa, ageBank_of_static hb hsb]
  rfl

end unhit

end visit

/-- Settles O42: an entry hit since the last visit, a learned one and a static one without a hit. -/
theorem agingVisitsBothBanks : Obligations.AgingVisitsBothBanks := by
  intro s typ key hruns k b gw put_ wa ea wb eb ha hb
  have hvisit : ∀ {x : Body}, b.age k = x → becomes (.agingVisit typ key) s x := fun hx =>
    becomes_of_body (exec_agingVisit s typ key) ((if_pos hruns).trans hx)
  exact ⟨fun hhit => hvisit (age_of_hit ha hb hhit), fun hna hnb hsa hsb => hvisit (age_of_learned ha hb hna hnb hsa hsb),
    fun hna hnb hsa hsb => hvisit (age_of_static ha hb hna hnb hsa hsb)⟩

end Sys2Proof.Machine
end

section
/-! SUPPORT. The spray choice (04 R102-R106): candidates, draws over their running sums, the subport with the lowest load. -/
namespace Sys2Proof.Machine

variable {s : Body}

/-! ### The lowest of a rising list -/

/-- The first of least value is found wherever there is one, and none before it is as low. -/
theorem best_of_rising (f : Nat → Nat) {l : List Nat} (hl : l.Pairwise (· < ·)) (hne : l ≠ []) :
    ∃ m ∈ l, best (fun a b => f a < f b) l = some m ∧ ∀ k ∈ l, f m < f k ∨ (f m = f k ∧ m ≤ k) := by
  induction l with
  | nil => exact absurd rfl hne
  | cons a t ih =>
    obtain ⟨ha, ht⟩ := List.pairwise_cons.mp hl
    cases t with
    | nil => exact ⟨a, by simp, rfl, by simp⟩
    | cons b u =>
      obtain ⟨m, hm, hbest, hleast⟩ := ih ht (List.cons_ne_nil b u)
      have ham := ha m hm
      rw [best, hbest]
      by_cases hlow : f m < f a
      · refine ⟨m, List.mem_cons_of_mem a hm, by simp [hlow], fun k hk => ?_⟩
        rcases List.mem_cons.mp hk with rfl | hk
        · exact .inl hlow
        · exact hleast k hk
      · refine ⟨a, List.mem_cons_self, by simp [hlow], fun k hk => ?_⟩
        rcases List.mem_cons.mp hk with rfl | hk
        · exact .inr ⟨rfl, Nat.le_refl _⟩
        · rcases hleast k hk with h | ⟨h, hle⟩ <;> omega

/-! ### Subports (06 R145, R146; 04 R106) -/

theorem subports_rising (p : Nat) : (s.subports p).Pairwise (· < ·) ∧ ∀ k ∈ s.subports p, k < 4 := by
  unfold Body.subports
  extract_lets e
  split
  · decide
  · split <;> decide

theorem lportsOf_rising (p : Nat) : (s.lportsOf p).Pairwise (· < ·) :=
  List.pairwise_map.mpr ((subports_rising p).1.imp fun h => by omega)

theorem physOf_of_mem_lportsOf {p l : Nat} (h : l ∈ s.lportsOf p) : physOf l = p := by
  obtain ⟨k, hk, rfl⟩ := List.mem_map.mp h
  have := (subports_rising p).2 k hk
  unfold physOf
  omega

/-- A live physical port has a live subport of least load, the lower index on a tie. -/
theorem subportFor_of_live {p : Nat} (h : s.live p = true) :
    ∃ l, s.subportFor p = some l ∧ physOf l = p ∧ s.lpLive l = true
      ∧ ∀ k ∈ s.lportsOf p, s.lpLive k = true → s.lpLoad l < s.lpLoad k ∨ (s.lpLoad l = s.lpLoad k ∧ l ≤ k) := by
  obtain ⟨k, hk, hlive⟩ := List.any_eq_true.mp h
  obtain ⟨l, hl, hbest, hleast⟩ := best_of_rising s.lpLoad ((lportsOf_rising (s := s) p).filter s.lpLive)
    (List.ne_nil_of_mem (List.mem_filter.mpr ⟨hk, hlive⟩))
  obtain ⟨hport, hup⟩ := List.mem_filter.mp hl
  exact ⟨l, hbest, physOf_of_mem_lportsOf hport, hup, fun k hk hlive => hleast k (List.mem_filter.mpr ⟨hk, hlive⟩)⟩

/-! ### Candidates (04 R102, R103) -/

/-- The members of a path set that a mask admits and that are live. -/
def Body.liveMembers (s : Body) (e : PathEntry) (m : BitVec 512) : List Nat :=
  (List.range 512).filter fun p => peHas e p && bit m p && s.live p

/-- Those of weight 1-15. -/
def Body.mainMembers (s : Body) (e : PathEntry) (m : BitVec 512) : List Nat := (s.liveMembers e m).filter fun p => peWeight e p != 0

/-- The candidates with their weights: the members of weight 1-15, or the standby members counted as 1 where there are none. -/
def Body.weighted (s : Body) (e : PathEntry) (m : BitVec 512) : List (Nat × Nat) :=
  if s.mainMembers e m = [] then (s.liveMembers e m).map fun p => (p, 1) else (s.mainMembers e m).map fun p => (p, peWeight e p)

section members
variable {e : PathEntry} {m : BitVec 512}

theorem candidates_eq : s.candidates e m = (s.weighted e m, decide (s.mainMembers e m = [])) := by
  have hlive : ((pePorts e).filter fun p => bit m p && s.live p) = s.liveMembers e m := by
    simp [pePorts, Body.liveMembers, List.filter_filter, Bool.and_comm, Bool.and_assoc, Bool.and_left_comm]
  unfold Body.candidates
  dsimp only
  rw [hlive, ← Body.mainMembers]
  by_cases h : s.mainMembers e m = [] <;> simp [Body.weighted, h]

theorem weighted_pos {c : Nat × Nat} (h : c ∈ s.weighted e m) : 0 < c.2 := by
  unfold Body.weighted at h
  split at h <;> obtain ⟨p, hp, rfl⟩ := List.mem_map.mp h
  · exact Nat.one_pos
  · exact Nat.pos_of_ne_zero (by simpa using (List.mem_filter.mp hp).2)

theorem live_of_mem_weighted {p w : Nat} (h : (p, w) ∈ s.weighted e m) : s.live p = true := by
  have hmem : p ∈ s.liveMembers e m := by
    unfold Body.weighted at h
    split at h <;> obtain ⟨q, hq, heq⟩ := List.mem_map.mp h <;> obtain ⟨rfl, -⟩ := Prod.mk.inj heq
    · exact hq
    · exact (List.mem_filter.mp hq).1
  have hall := (List.mem_filter.mp hmem).2
  simp only [Bool.and_eq_true] at hall
  exact hall.2

theorem weighted_eq_nil : s.weighted e m = [] ↔ s.liveMembers e m = [] := by
  unfold Body.weighted
  split
  · exact List.map_eq_nil_iff
  · next h => exact ⟨fun hm => absurd (List.map_eq_nil_iff.mp hm) h, fun hl => absurd (by simp [Body.mainMembers, hl]) h⟩

end members

/-! ### Draws (04 R104) -/

/-- A draw below the sum of the weights falls to the candidate whose running sum first exceeds it. -/
theorem drawn_splits {u : Nat} : ∀ {a : Nat} {cs : List (Nat × Nat)}, a ≤ u → u < a + (cs.map Prod.snd).sum →
    ∃ x w y, cs = x ++ (drawn u a cs, w) :: y ∧ a + (x.map Prod.snd).sum ≤ u ∧ u < a + (x.map Prod.snd).sum + w
  | a, [], ha, hu => absurd hu (by simpa using ha)
  | a, (p, w) :: t, ha, hu => by
    by_cases h : a + w > u
    · exact ⟨[], w, t, by simp [drawn, h], by simpa using ha, by simpa using h⟩
    · rw [List.map_cons, List.sum_cons, ← Nat.add_assoc] at hu
      obtain ⟨x, v, y, hcs, hlow, hhigh⟩ := drawn_splits (Nat.le_of_not_lt h) hu
      refine ⟨(p, w) :: x, v, y, ?_, ?_, ?_⟩
      · rw [drawn, if_neg h, List.cons_append, ← hcs]
      · simpa [Nat.add_assoc] using hlow
      · simpa [Nat.add_assoc] using hhigh

/-- A 16-bit draw scaled to a sum lies below it. -/
theorem draw_scaled_lt (x : BitVec 16) {total : Nat} (h : 0 < total) : x.toNat * total / 65536 < total :=
  Nat.div_lt_of_lt_mul (Nat.mul_lt_mul_of_pos_right x.isLt h)

/-- The candidate of the `k`-th of a die's next draws. -/
def Body.pick (s : Body) (die : Nat) (cs : List (Nat × Nat)) (k : Nat) : Nat :=
  drawn ((Config.draw16 die (nth s.fwc.drawIdx die 0 + k)).toNat * (cs.map Prod.snd).sum / 65536) 0 cs

theorem pick_splits {cs : List (Nat × Nat)} (hne : cs ≠ []) (hpos : ∀ c ∈ cs, 0 < c.2) (die k : Nat) :
    let u := (Config.draw16 die (nth s.fwc.drawIdx die 0 + k)).toNat * (cs.map Prod.snd).sum / 65536
    ∃ a w b, cs = a ++ (s.pick die cs k, w) :: b ∧ (a.map Prod.snd).sum ≤ u ∧ u < (a.map Prod.snd).sum + w := by
  have htotal : 0 < (cs.map Prod.snd).sum := by
    obtain ⟨c, hc⟩ := List.exists_mem_of_ne_nil cs hne
    exact Nat.lt_of_lt_of_le (hpos c hc) (List.le_sum_of_mem (List.mem_map_of_mem hc))
  simpa [Body.pick] using drawn_splits (Nat.zero_le _) (by simpa using draw_scaled_lt _ htotal)

theorem pick_mem {cs : List (Nat × Nat)} (hne : cs ≠ []) (hpos : ∀ c ∈ cs, 0 < c.2) (die k : Nat) :
    ∃ w, (s.pick die cs k, w) ∈ cs := by
  obtain ⟨a, w, b, hcs, -, -⟩ := pick_splits (s := s) hne hpos die k
  exact ⟨w, (congrArg (_ ∈ ·) hcs).mpr (List.mem_append_right a List.mem_cons_self)⟩

/-- Of the candidates of two draws that with the lower load, the first on a tie. -/
def Body.winner (s : Body) (die : Nat) (cs : List (Nat × Nat)) : Nat :=
  if s.loadSeen die (s.pick die cs 1) < s.loadSeen die (s.pick die cs 0) then s.pick die cs 1 else s.pick die cs 0

theorem winner_mem {cs : List (Nat × Nat)} (hne : cs ≠ []) (hpos : ∀ c ∈ cs, 0 < c.2) (die : Nat) : ∃ w, (s.winner die cs, w) ∈ cs := by
  unfold Body.winner
  split
  · exact pick_mem hne hpos die 1
  · exact pick_mem hne hpos die 0

/-! ### The choice -/

section view
variable {a b : Body} (h : a.sansMarks = b.sansMarks)
include h

theorem subportFor_of_sansMarks (p : Nat) : a.subportFor p = b.subportFor p := by
  show a.sansMarks.subportFor p = b.sansMarks.subportFor p; rw [h]

theorem loadSeen_of_sansMarks (die p : Nat) : a.loadSeen die p = b.loadSeen die p := by
  show a.sansMarks.loadSeen die p = b.sansMarks.loadSeen die p; rw [h]

end view

section choosing
variable {die : Nat} {e : PathEntry} {m : BitVec 512}

/-- A path set without a live member is a dead end, after the look among its standby members. -/
theorem spray_of_none (h : s.liveMembers e m = []) :
    s.spray die e m = (none, (s.bump .sprayStandby die).bump .routeDeadEnd die) := by
  have hmain : s.mainMembers e m = [] := by simp [Body.mainMembers, h]
  unfold Body.spray
  rw [candidates_eq, weighted_eq_nil.mpr h, hmain]
  rfl

theorem nth_setNth_same {α : Type} {l : List α} {i : Nat} (h : i < l.length) (v d : α) : nth (setNth l i v) i d = v := by
  simp [nth, setNth, h]

theorem sansMarks_draw (s : Body) (die : Nat) : (s.draw die).2.sansMarks = s.sansMarks := rfl

theorem counters_draw (s : Body) (die : Nat) : (s.draw die).2.counters = s.counters := rfl

/-- A die's next two draws are its generator's next two. -/
theorem draws_eq (hdie : die < s.fwc.drawIdx.length) :
    (s.draw die).1 = (Config.draw16 die (nth s.fwc.drawIdx die 0)).toNat
      ∧ ((s.draw die).2.draw die).1 = (Config.draw16 die (nth s.fwc.drawIdx die 0 + 1)).toNat :=
  ⟨rfl, congrArg (fun i => (Config.draw16 die i).toNat) (nth_setNth_same hdie ..)⟩

/-- The winner of two draws gives the port; of the counters only that of standby choices can rise. -/
theorem spray_of_some (hdie : die < s.fwc.drawIdx.length) (hne : s.weighted e m ≠ []) :
    (s.spray die e m).1 = s.subportFor (s.winner die (s.weighted e m))
      ∧ (s.spray die e m).2.counters = (if s.mainMembers e m = [] then s.bump .sprayStandby die else s).counters := by
  unfold Body.spray
  rw [candidates_eq]
  simp only [decide_eq_true_eq, List.isEmpty_iff, if_neg hne]
  set t := if s.mainMembers e m = [] then s.bump .sprayStandby die else s
  have hquiet : t.quiet = s.quiet := keeps_ite Body.quiet (fun _ => quiet_bump ..) fun _ => rfl
  have hfwc : t.fwc = s.fwc := fwc_of_quiet hquiet
  have hkept : ((t.draw die).2.draw die).2.sansMarks = s.sansMarks := by
    rw [sansMarks_draw, sansMarks_draw, sansMarks_of_quiet hquiet]
  have hsum : (s.weighted e m).foldl (fun a c => a + c.2) 0 = ((s.weighted e m).map Prod.snd).sum := by
    rw [List.sum_eq_foldl, List.foldl_map]
  obtain ⟨hfirst, hsecond⟩ := draws_eq (s := t) (by rw [hfwc]; exact hdie)
  refine ⟨?_, (counters_draw ..).trans (counters_draw ..)⟩
  rw [hfirst, hsecond, hfwc, hsum, subportFor_of_sansMarks hkept, loadSeen_of_sansMarks hkept, loadSeen_of_sansMarks hkept]
  rfl

end choosing

/-- Settles O35: the candidates, the two draws among them and the subport of the port that wins. -/
theorem sprayPicks : Obligations.SprayPicks := by
  intro s die e m live main cs total i u
  have hmembers : live = s.liveMembers e m := rfl
  refine ⟨fun hnone => spray_of_none (hmembers ▸ hnone), fun hsome hdie => ?_⟩
  have hne : s.weighted e m ≠ [] := fun h => hsome (hmembers.trans (weighted_eq_nil.mp h))
  have hpos : ∀ c ∈ s.weighted e m, 0 < c.2 := fun c hc => weighted_pos hc
  have hsplits := pick_splits (s := s) hne hpos die
  obtain ⟨w, hw⟩ := winner_mem (s := s) hne hpos die
  obtain ⟨hport, hcount⟩ := spray_of_some hdie hne
  obtain ⟨l, hl, hphys, hup, hleast⟩ := subportFor_of_live (live_of_mem_weighted hw)
  exact ⟨_, _, l, hsplits 0, hsplits 1, hport.trans hl, hcount, hphys, hup, hphys ▸ hleast⟩

end Sys2Proof.Machine
end

section
/-! SUPPORT. Limiter credit (05 R134, R136) and published loads (04 R105): what one addition and one publication change. -/
namespace Sys2Proof.Machine

/-! ### One addition to one limiter (05 R134) -/

section credit
variable {cclk : Nat} {n : Node} {x : Limiter}

theorem addLevel_le (rate size : Nat) (v : Int) (rem : Nat) : (addLevel cclk rate size v rem).1 ≤ (size * 256 : Nat) := min_le_right ..

theorem addCredit_of_two_levels (h : n.mode = 1) : addCredit cclk n x =
    { c := (addLevel cclk n.rate1 n.size1 x.c x.cRem).1, cRem := (addLevel cclk n.rate1 n.size1 x.c x.cRem).2
      p := (addLevel cclk n.rate2 n.size2 x.p x.pRem).1, pRem := (addLevel cclk n.rate2 n.size2 x.p x.pRem).2 } := by
  simp [addCredit, h]

theorem addCredit_of_one_level (h : n.mode = 2) : addCredit cclk n x =
    { x with c := (addLevel cclk n.rate1 n.size1 x.c x.cRem).1, cRem := (addLevel cclk n.rate1 n.size1 x.c x.cRem).2 } := by
  simp [addCredit, h]

theorem c_addCredit (h : n.mode = 1 ∨ n.mode = 2) : (addCredit cclk n x).c = (addLevel cclk n.rate1 n.size1 x.c x.cRem).1 := by
  rcases h with h | h
  · rw [addCredit_of_two_levels h]
  · rw [addCredit_of_one_level h]

end credit

/-! ### The limiters that a table of nodes names (05 R136) -/

theorem not_mem_keys_of_mget_none {α : Type} {m : Map α} {k : Nat} (h : mget m k = none) : k ∉ m.map Prod.fst := by
  induction m with
  | nil => exact List.not_mem_nil
  | cons x t ih =>
    obtain ⟨i, w⟩ := x
    rw [mget_cons] at h
    split at h
    case isTrue => cases h
    case isFalse hne => simpa using ⟨fun e => hne e.symm, by simpa using ih h⟩

/-- The addition that one node of the table stands for. -/
def creditNode (cclk : Nat) (pick : Nat → Bool) (m : Map Limiter) (x : Nat × BitVec 256) : Map Limiter :=
  if (nodeOf x.2).mode != 0 && pick x.1 then mset m x.1 (addCredit cclk (nodeOf x.2) (mgetD m x.1 {})) else m

section nodes
variable {cclk : Nat} {pick : Nat → Bool} {nodes : Map (BitVec 256)} {m : Map Limiter} {p : Nat}

theorem addAll_eq_foldl : addAll cclk pick nodes m = nodes.foldl (creditNode cclk pick) m := rfl

theorem mgetD_creditNode_other (m : Map Limiter) (x : Nat × BitVec 256) (h : x.1 ≠ p) :
    mgetD (creditNode cclk pick m x) p {} = mgetD m p {} := by
  unfold creditNode
  split
  · exact mgetD_mset_other m _ _ h.symm
  · rfl

theorem mgetD_creditNode_same (w : BitVec 256) : mgetD (creditNode cclk pick m (p, w)) p {} =
    if (nodeOf w).mode ≠ 0 ∧ pick p = true then addCredit cclk (nodeOf w) (mgetD m p {}) else mgetD m p {} := by
  simp only [creditNode, Bool.and_eq_true, bne_iff_ne]
  split
  · exact mgetD_mset_same ..
  · rfl

theorem mgetD_addAll_of_none (h : mget nodes p = none) : mgetD (addAll cclk pick nodes m) p {} = mgetD m p {} := by
  rw [addAll_eq_foldl]
  exact foldl_of_key_not_mem (mgetD · p {}) _ Prod.fst p mgetD_creditNode_other (not_mem_keys_of_mget_none h) m

theorem mgetD_addAll_of_some {w : BitVec 256} (hn : (nodes.map Prod.fst).Nodup) (h : mget nodes p = some w) :
    mgetD (addAll cclk pick nodes m) p {} =
      if (nodeOf w).mode ≠ 0 ∧ pick p = true then addCredit cclk (nodeOf w) (mgetD m p {}) else mgetD m p {} := by
  obtain ⟨m', -, hsame, hadd⟩ := foldl_of_key_once (b := m) (mgetD · p {}) (fun _ => True) (creditNode cclk pick) Prod.fst (p, w)
    (fun _ _ _ => trivial) mgetD_creditNode_other hn (mem_of_mget h) trivial
  rw [addAll_eq_foldl, hadd, mgetD_creditNode_same, hsame]

end nodes

/-! ### One addition to every limiter of a die -/

variable (s : Body)

/-- The body with the die's limiters credited, before its streams are swept (05 R127). -/
def Body.credited (s : Body) (die : Nat) : Body :=
  { s with tms := { s.tms with
    portLim := addAll s.profiles.inForce.cclk (fun i => dieOf i == die) s.tables.portNode.act s.tms.portLim
    classLim := addAll s.profiles.inForce.cclk (fun i => dieOf (i / 8) == die) s.tables.classNode.act s.tms.classLim
    streams := s.tms.streams.map fun (x : Stream) =>
      if dieOf x.lport = die then { x with lim := addCredit s.profiles.inForce.cclk (nodeOf (s.streamProfile x.prof)) x.lim } else x } }

theorem limiterTick_eq (die : Nat) : s.limiterTick die = (s.credited die).sweepStreams die := rfl

/-- The forwarding core and the limiters of ports and classes, which a sweep of the streams leaves as they are. -/
def Body.meters (s : Body) : Fwc × Map Limiter × Map Limiter := (s.fwc, s.tms.portLim, s.tms.classLim)

theorem meters_bump (c : Ctr) (i : Nat) : (s.bump c i).meters = s.meters := by
  unfold Body.meters
  rw [fwc_of_quiet (quiet_bump s c i), tms_of_quiet (quiet_bump s c i)]

theorem meters_sweepStreams (die : Nat) : (s.sweepStreams die).meters = s.meters := by
  unfold Body.sweepStreams
  extract_lets idle done s1
  have hdone : s1.meters = s.meters := foldl_keeps Body.meters (fun b x => b.freeStream x) (fun _ _ => rfl) _ _
  refine keeps_ite Body.meters (fun _ => hdone) fun _ => ?_
  exact (foldl_keeps Body.meters _ (fun b x => meters_bump (b.freeStream x) ..) _ _).trans hdone

theorem fwc_of_meters {a b : Body} (h : a.meters = b.meters) : a.fwc = b.fwc := congrArg Prod.fst h

theorem portLim_of_meters {a b : Body} (h : a.meters = b.meters) : a.tms.portLim = b.tms.portLim := congrArg (fun x => x.2.1) h

theorem classLim_of_meters {a b : Body} (h : a.meters = b.meters) : a.tms.classLim = b.tms.classLim := congrArg (fun x => x.2.2) h

theorem fwc_limiterTick (die : Nat) : (s.limiterTick die).fwc = s.fwc := by
  rw [limiterTick_eq, fwc_of_meters (meters_sweepStreams ..)]
  rfl

theorem portLim_limiterTick (die : Nat) : (s.limiterTick die).tms.portLim =
    addAll s.profiles.inForce.cclk (fun i => dieOf i == die) s.tables.portNode.act s.tms.portLim := by
  rw [limiterTick_eq, portLim_of_meters (meters_sweepStreams ..)]
  rfl

theorem classLim_limiterTick (die : Nat) : (s.limiterTick die).tms.classLim =
    addAll s.profiles.inForce.cclk (fun i => dieOf (i / 8) == die) s.tables.classNode.act s.tms.classLim := by
  rw [limiterTick_eq, classLim_of_meters (meters_sweepStreams ..)]
  rfl

theorem queue_limiterTick (die : Nat) : (s.limiterTick die).tms.queue = s.tms.queue := by
  rw [limiterTick_eq, queue_sweepStreams]
  rfl

/-! ### A publication (04 R105) -/

/-- The die's physical ports that the variant has. -/
def Body.portsOn (s : Body) (die : Nat) : List Nat := ((List.range 128).map fun k => 128 * die + k).filter fun p => p < s.variant.ports

/-- The loads that every die knows after the die's publication. -/
def Body.published (s : Body) (die : Nat) : Map Nat := (s.portsOn die).foldl (fun m p => mset m p (s.ownLoad p)) s.fwc.load

theorem publish_eq (die : Nat) : s.publish die = { s with fwc := { s.fwc with load := s.published die } } := rfl

theorem mem_portsOn {die p : Nat} : p ∈ s.portsOn die ↔ p / 128 = die ∧ p < s.variant.ports := by
  simp only [Body.portsOn, List.mem_filter, List.mem_map, List.mem_range, decide_eq_true_eq]
  refine and_congr_left fun _ => ⟨fun ⟨k, hk, he⟩ => by omega, fun h => ⟨p % 128, by omega, by omega⟩⟩

theorem nodup_portsOn (die : Nat) : (s.portsOn die).Nodup :=
  (List.nodup_range.map fun _ _ h => Nat.add_left_cancel h).filter _

theorem mgetD_published (die p : Nat) : mgetD (s.published die) p 0 =
    if p / 128 = die ∧ p < s.variant.ports then s.ownLoad p else mgetD s.fwc.load p 0 := by
  have hother : ∀ (m : Map Nat) (k : Nat), k ≠ p → mgetD (mset m k (s.ownLoad k)) p 0 = mgetD m p 0 :=
    fun m k hk => mgetD_mset_other m _ 0 hk.symm
  split
  case isTrue h =>
    obtain ⟨m, -, -, hput⟩ := foldl_of_key_once (b := s.fwc.load) (mgetD · p 0) (fun _ => True)
      (fun m k => mset m k (s.ownLoad k)) id p (fun _ _ _ => trivial) hother (by simpa using nodup_portsOn s die)
      ((mem_portsOn s).mpr h) trivial
    exact hput.trans (mgetD_mset_same ..)
  case isFalse h =>
    exact foldl_of_key_not_mem (mgetD · p 0) _ id p hother (by simpa using fun hp => h ((mem_portsOn s).mp hp)) _

/-- Settles O39: a limiter's levels are those of `addLevel`, each node of a table credits its own limiter alone, and a die's ports take
their own loads. -/
theorem limitersAndLoads : Obligations.LimitersAndLoads := by
  refine ⟨fun cclk n x hmode => ?_, fun s die hready => ⟨fun hports hclasses => ?_, ?_⟩⟩
  · refine ⟨c_addCredit hmode, ?_, fun h => ?_, fun h => ?_⟩
    · rw [c_addCredit hmode]
      exact addLevel_le ..
    · rw [addCredit_of_two_levels h]
      rfl
    · rw [addCredit_of_one_level h]
  · have hwait := (congrArg Fwc.origWait (fwc_limiterTick s.toBody die)).trans hready.none_waits
    have hnext : becomes (.limiterCreditUpdate die) s (s.toBody.limiterTick die) :=
      becomes_of_data_of_none hready (exec_limiterCreditUpdate s die) rfl hwait
    refine ⟨_, hnext, ?_, ?_, fun p => ?_, fun p => ?_⟩
    · rw [queue_limiterTick]
    · rw [fwc_limiterTick]
    · rw [portLim_limiterTick]
      cases hw : mget s.tables.portNode.act p with
      | none => exact mgetD_addAll_of_none hw
      | some w => simp only [mgetD_addAll_of_some hports hw, beq_iff_eq]
    · rw [classLim_limiterTick]
      cases hw : mget s.tables.classNode.act p with
      | none => exact mgetD_addAll_of_none hw
      | some w => simp only [mgetD_addAll_of_some hclasses hw, beq_iff_eq]
  · exact ⟨s.toBody.published die, becomes_of_data_of_none hready (exec_loadPublish s die) (publish_eq s.toBody die) hready.none_waits,
      mgetD_published s.toBody die⟩

end Sys2Proof.Machine
end

section
/-! SUPPORT. TELE HWM with CLEAR (05 R140) on a map of records that names one class queue twice. -/
namespace Sys2Proof.Machine

/-- TELE HWM of class queue 0 with CLEAR, one record, to the host's address 0 (11 Table 11-5). -/
def hwmClearDesc : Desc := { idx := 0, w := BitVec.ofNat 512 (put 3 60 + put 6 56 + put 2 48 + put 2 128 + put 1 256) }

/-- The command's place: interface A, ring 0, index 0. -/
def hwmClearRef : CmdRef := ⟨0, 0, 0⟩

/-- A module in operation with that command of an operator queued, whose high-water marks hold class queue 0 twice. -/
def hwmTwice : State := { State.reset with
  power := { phase := 5, state := .operational }
  lantern := { partno := 1 }
  hifA := { linkUp := true, dbBase := 1, cqs := [(0, { enable := true, state := .enabled, base := 1 })]
            rings := [(0, { base := 1, enable := true, state := .enabled, session := 1, fetch := 1, descs := [hwmClearDesc] })] }
  sec := { sessions := [⟨1, .operator, 1, .operator, none⟩] }
  tms := { classHwm := [(0, { occ := 2 }), (0, { occ := 1 })] } }

theorem starts_hwmTwice : Starts specTeleHwm hwmTwice.toBody hwmClearRef hwmClearDesc where
  found := by decide +kernel
  cls := by decide +kernel
  op := by decide +kernel
  start := by decide +kernel
  header := by decide +kernel
  good0 := by decide +kernel
  role := by decide +kernel
  engine := .inr (by decide +kernel)
  fresh := rfl
  first := rfl
  served := fun h => by cases h

theorem streams_hwmTwice : Streams specTeleHwm hwmTwice.toBody hwmClearRef hwmClearDesc :=
  { starts_hwmTwice with pre := by decide +kernel, free := rfl }

/-- One unit holds the whole record. -/
theorem whole_hwmTwice : 0 < 32 * hwmCount hwmClearDesc
    ∧ unitsEnd (hwmClearDesc.word 3) 0 1 (32 * hwmCount hwmClearDesc) = 32 * hwmCount hwmClearDesc := by decide +kernel

theorem becomes_teleHwm {s : State} {r : CmdRef} {d : Desc} (u : Nat) (h : Streams specTeleHwm s.toBody r d) :
    becomes (.teleHwm r u) s (specTeleHwm.moves s.toBody r d [] u) :=
  becomes_of_body (exec_teleHwm s r u) (hostCmd_of_streams s.toBody h (by intro _ _ _ hmode; cases hmode))

theorem toBody_of_becomes {c : Instr} {s t : State} {b : Body} (h : becomes c s b) (ht : exec c s = .next t) : t.toBody = b := by
  injection ht.symm.trans h with he
  exact congrArg State.toBody he

/-- The read clears the first record of the two, and the second then stands as the queue's. -/
theorem hwm_after_clear :
    (specTeleHwm.moves hwmTwice.toBody hwmClearRef hwmClearDesc [] 1).hwm hwmClearDesc (hwmFirst hwmClearDesc + 0) = { occ := 1 } := by
  decide +kernel

/-- Refutes O11: TELE HWM with CLEAR removes one record of class queue 0; where the map of the marks names the queue twice, the other
record still stands after the read. The clause does not suppose that the marks' keys are distinct. -/
theorem not_readsWriteHostMemory : ¬ Obligations.ReadsWriteHostMemory := by
  unfold Obligations.ReadsWriteHostMemory
  intro h
  obtain ⟨-, -, hhwm, -⟩ := h hwmClearRef 1 hwmTwice hwmClearDesc
  obtain ⟨t, hexec, -, -, hcleared, -⟩ := hhwm streams_hwmTwice whole_hwmTwice
  have hzero := hcleared 0 (by decide +kernel) (by decide +kernel)
  rw [toBody_of_becomes (becomes_teleHwm 1 streams_hwmTwice) hexec, hwm_after_clear] at hzero
  exact absurd (congrArg Hwm.occ hzero) (by decide)

end Sys2Proof.Machine
end

section
/-! SUPPORT. What frames do not move (03 R72-R93; 04 R98-R109; 05 R126-R144): on its way through the buffer and the queues a frame meets
neither the Portage matrix nor the cartridges, takes no port into or out of hold, and ends no drain (`Body.still`). -/
namespace Sys2Proof.Machine

variable (s : Body)

/-! ### Reports count nothing -/

@[simp] theorem counters_eventOut (e : Ev) : (s.eventOut e).counters = s.counters := by
  have hto : ∀ (b : Body) i, (b.eventTo i e).counters = b.counters := fun b i => by
    unfold Body.eventTo
    dsimp only
    split <;> simp
  exact (hto _ 1).trans (hto s 0)

@[simp] theorem counters_emit (c : Nat) (p : List Nat) : (s.emit c p).counters = s.counters := by
  unfold Body.emit
  dsimp only
  split
  · exact counters_eventOut ..
  · rfl

@[simp] theorem counters_chainOne (b : BitVec 640) : (s.chainOne b).counters = s.counters := by
  unfold Body.chainOne Body.exportAudit
  simp only [counters_emit]

@[simp] theorem counters_auditModule (c o ob st : Nat) : (s.auditModule c o ob st).counters = s.counters := by
  unfold Body.auditModule Body.audit Body.payGap
  dsimp only
  split
  · rfl
  · rw [counters_chainOne]
    split
    · exact counters_chainOne ..
    · rfl

/-- A count rises by no other counter's. -/
theorem countIn_bumpIn_other (m : List (Ctr × Nat × Nat)) {c d : Ctr} (h : d ≠ c) (i j n : Nat) :
    countIn (bumpIn m d i n) c j = countIn m c j := by
  induction m with
  | nil => simp [bumpIn, countIn, h]
  | cons y t ih =>
    obtain ⟨c', i', v⟩ := y
    by_cases hy : c' = d ∧ i' = i
    · obtain ⟨rfl, rfl⟩ := hy
      simp [bumpIn, countIn, h]
    · rw [bumpIn, if_neg hy, countIn, countIn, ih]

/-! ### The view -/

/-- The Portage matrix, the cartridges, and of each port whether it is held, its DRAIN, its HOLD and its drains timed out. -/
structure Still where
  portage : Portage
  carts : Map Cart
  held : Nat → Bool
  drain : Nat → Bool
  hold : Nat → Bool
  timeouts : Nat → Nat

def Body.still (s : Body) : Still :=
  { portage := s.portage, carts := s.carts, held := fun l => (s.lp l).hold.isSome, drain := fun l => (s.lpe l).drain
    hold := fun l => (s.lpe l).hold, timeouts := s.count .drainTimeout }

theorem still_of_quiet {a b : Body} (h : a.quiet = b.quiet) (hc : a.counters = b.counters) : a.still = b.still := by
  have hentry : ∀ l, a.lpe l = b.lpe l := fun l => by unfold Body.lpe Body.portAct; rw [tables_of_quiet h]
  have hcount : a.count .drainTimeout = b.count .drainTimeout := by unfold Body.count; rw [hc]
  unfold Body.still
  simp only [portage_of_quiet h, carts_of_quiet h, lp_of_quiet h, hentry, hcount]

@[simp] theorem still_emit (c : Nat) (p : List Nat) : (s.emit c p).still = s.still := still_of_quiet (quiet_emit ..) (counters_emit ..)

@[simp] theorem still_auditModule (c o ob st : Nat) : (s.auditModule c o ob st).still = s.still :=
  still_of_quiet (quiet_auditModule ..) (counters_auditModule ..)

/-- A counter whose counts the view leaves out. -/
def Ctr.passes (c : Ctr) : Bool := !c.perSett && c != .drainTimeout

theorem still_bumpBy {c : Ctr} (h : c.passes = true) (i n : Nat) : (s.bumpBy c i n).still = s.still := by
  obtain ⟨hplain, hother⟩ : c.perSett = false ∧ c ≠ .drainTimeout := by simpa [Ctr.passes] using h
  unfold Body.bumpBy
  rw [hplain]
  exact congrArg (fun k => { s.still with timeouts := k }) (funext fun j => countIn_bumpIn_other _ hother i j n)

theorem still_bump {c : Ctr} (h : c.passes = true) (i : Nat) : (s.bump c i).still = s.still := still_bumpBy s h i 1

/-- A port with its hold, of whatever state, as it was. -/
theorem still_setLp {l : Nat} {x : LPort} (h : x.hold.isSome = (s.lp l).hold.isSome) : (s.setLp l x).still = s.still := by
  refine congrArg (fun k => { s.still with held := k }) (funext fun m => ?_)
  rw [lp_setLp]
  split
  · subst_vars; exact h
  · rfl

theorem still_modLp (l : Nat) {g : LPort → LPort} (h : ∀ x, (g x).hold.isSome = x.hold.isSome) : (s.modLp l g).still = s.still :=
  still_setLp s (h _)

/-! ### The buffer (03 R72-R79) -/

@[simp] theorem still_uncredit (l c : Nat) (up : Bool) (n : Nat) : (s.uncredit l c up n).still = s.still := by
  obtain ⟨u, off, o, h⟩ := uncredit_eq_setUncred s l c up n
  rw [h]
  exact still_setLp s rfl

@[simp] theorem still_returnCells (f : BufFrame) (n : Nat) : (s.returnCells f n).still = s.still := by
  unfold Body.returnCells
  cases f.origin with
  | own => rfl
  | alp l v => exact still_setLp _ rfl
  | udp l => exact still_uncredit ..
  | eth l c => exact still_uncredit ..

@[simp] theorem still_collect (fid : Nat) : (s.collect fid).still = s.still := by
  unfold Body.collect
  split
  · exact keeps_ite Body.still (fun _ => rfl) fun _ => rfl
  · rfl

@[simp] theorem still_releaseCopy (fid : Nat) : (s.releaseCopy fid).still = s.still := by
  unfold Body.releaseCopy
  split
  · rfl
  · exact keeps_ite Body.still (fun _ => (still_collect ..).trans (still_returnCells s _ _)) fun _ => rfl

@[simp] theorem still_doneHere (fid : Nat) : (s.doneHere fid).still = s.still := by
  unfold Body.doneHere
  split
  · rfl
  · exact keeps_ite Body.still (fun _ => (still_releaseCopy ..).trans rfl) fun _ => rfl

/-! ### The queues (05 R126-R141) -/

@[simp] theorem still_sweepStreams (die : Nat) : (s.sweepStreams die).still = s.still := by
  unfold Body.sweepStreams
  extract_lets idle done s1
  have hdone : s1.still = s.still := foldl_keeps Body.still _ (fun b x => show (b.freeStream x).still = b.still from rfl) _ _
  refine keeps_ite Body.still (fun _ => hdone) fun _ => ?_
  exact (foldl_keeps Body.still _ (fun b x => still_bump (b.freeStream x) rfl _) _ _).trans hdone

@[simp] theorem still_takeStream (l c key prof : Nat) : (s.takeStream l c key prof).2.2.still = s.still := by
  let v := fun p : Nat × Nat × Body => p.2.2.still
  have hfull : (s.bump .streamPoolFull (dieOf l)).still = s.still := still_bump s rfl _
  unfold Body.takeStream
  extract_lets new s1
  refine keeps_ite v (fun _ => rfl) fun _ => keeps_ite v (fun _ => rfl) fun _ => ?_
  exact keeps_ite Body.still (fun _ => hfull) fun _ => hfull

@[simp] theorem still_meterBy (l c : Nat) (n : Node) (x : Limiter) (bytes colour : Nat) :
    (s.meterBy l c n x bytes colour).2.2.2.still = s.still := by
  unfold Body.meterBy
  refine keeps_ite (fun p : Nat × Bool × Limiter × Body => p.2.2.2.still) (fun _ => ?_) fun _ => rfl
  exact keeps_ite Body.still (fun _ => still_bump s rfl _) fun _ => rfl

@[simp] theorem still_meter (l c key prof bytes colour : Nat) : (s.meter l c key prof bytes colour).2.2.still = s.still := by
  unfold Body.meter
  dsimp only
  refine keeps_ite (fun p : Nat × Bool × Body => p.2.2.still) (fun _ => still_meterBy s ..) fun _ => ?_
  exact keeps_ite Body.still (fun _ => (still_meterBy _ ..).trans (still_meterBy s ..))
    fun _ => (still_meterBy _ ..).trans (still_meterBy s ..)

@[simp] theorem still_congJudge (die l c colour avg : Nat) : (s.congJudge die l c colour avg).2.still = s.still := by
  let v := fun p : CongAct × Body => p.2.still
  unfold Body.congJudge
  dsimp only
  exact keeps_ite v (fun _ => rfl) fun _ => keeps_ite v (fun _ => rfl) fun _ => keeps_ite v (fun _ => rfl) fun _ => rfl

@[simp] theorem still_unqueueAll (out : QEntry → Bool) : (s.unqueueAll out).still = s.still := by
  unfold Body.unqueueAll
  dsimp only
  refine keeps_ite Body.still (fun _ => rfl) fun _ => ?_
  exact (foldl_keeps Body.still _ (fun b d => still_sweepStreams b d) _ _).trans rfl

@[simp] theorem still_toReserve (l : Nat) : (s.toReserve l).still = s.still := by
  unfold Body.toReserve
  refine foldl_keeps Body.still _ (fun b e => ?_) _ s
  split
  · rename_i h f hhold _
    refine keeps_ite Body.still (fun _ => ?_) fun _ => rfl
    refine (still_releaseCopy ..).trans (still_setLp _ ?_)
    show true = (b.lp l).hold.isSome
    rw [hhold]; rfl
  · rfl

@[simp] theorem still_enqueue (f : BufFrame) (cp : Copy) (l : Nat) : (s.enqueue f cp l).still = s.still := by
  unfold Body.enqueue
  dsimp only
  have htake := still_takeStream s l (s.classOn l f) (s.streamOf f).1 (s.streamOf f).2
  generalize s.takeStream l (s.classOn l f) (s.streamOf f).1 (s.streamOf f).2 = p at htake ⊢
  obtain ⟨key, prof, t⟩ := p
  have hmeter := (still_meter t l (s.classOn l f) key prof (t.wireBytes l f cp.repl) cp.colour.toNat).trans htake
  dsimp only
  generalize t.meter l (s.classOn l f) key prof (t.wireBytes l f cp.repl) cp.colour.toNat = m at hmeter ⊢
  obtain ⟨colour, drop, u⟩ := m
  dsimp only at hmeter ⊢
  refine keeps_ite Body.still (fun _ => ?_) fun _ => ?_
  · exact (still_sweepStreams ..).trans ((still_releaseCopy ..).trans ((still_bump u rfl _).trans hmeter))
  · set q := (u.pushEntry f { cp with colour := BitVec.ofNat 2 colour } l (s.classOn l f) key prof).markOcc l (s.classOn l f) key
    have hswept : (if q.streamsOn (dieOf l) + 1024 ≤ 65536 then q else q.sweepStreams (dieOf l)).still = s.still :=
      keeps_ite Body.still (fun _ => hmeter) fun _ => (still_sweepStreams ..).trans hmeter
    exact keeps_ite Body.still (fun _ => (still_toReserve ..).trans hswept) fun _ => hswept

theorem markCtr_passes (drop : Bool) : (markCtr drop).passes = true := by cases drop <;> rfl

@[simp] theorem still_takeIn (f : BufFrame) (cp : Copy) (l : Nat) : (s.takeIn f cp l).still = s.still := by
  unfold Body.takeIn
  refine keeps_ite Body.still (fun _ => rfl) fun _ => ?_
  dsimp only
  set avg := s.congAvg l (s.classOn l f) cp.colour.toNat
  have hjudge : (if profiled f then avg.2.congJudge f.die l (s.classOn l f) cp.colour.toNat (if avg.2.cutThrough f l then 0 else avg.1)
      else (.pass, avg.2)).2.still = s.still :=
    keeps_ite (fun p : CongAct × Body => p.2.still) (fun _ => still_congJudge avg.2 ..) fun _ => rfl
  generalize (if profiled f then avg.2.congJudge f.die l (s.classOn l f) cp.colour.toNat (if avg.2.cutThrough f l then 0 else avg.1)
      else (.pass, avg.2)) = p at hjudge ⊢
  obtain ⟨a, t⟩ := p
  cases a with
  | pass => exact (still_enqueue ..).trans hjudge
  | act =>
    have hcount := fun i drop => (still_bump t (markCtr_passes drop) i).trans hjudge
    exact keeps_ite Body.still (fun _ => (still_releaseCopy ..).trans (hcount ..)) fun _ => (still_enqueue ..).trans (hcount ..)

/-! ### Lookup again (04 R98-R107) -/

@[simp] theorem still_spray (die : Nat) (e : PathEntry) (m : BitVec 512) : (s.spray die e m).2.still = s.still := by
  unfold Body.spray
  generalize s.candidates e m = p
  obtain ⟨cs, standby⟩ := p
  dsimp only
  have hstandby : (if standby then s.bump .sprayStandby die else s).still = s.still :=
    keeps_ite Body.still (fun _ => still_bump s rfl _) fun _ => rfl
  generalize (if standby then s.bump .sprayStandby die else s) = s1 at hstandby ⊢
  split
  · exact (still_bump s1 rfl _).trans hstandby
  · exact hstandby

/-- A copy that has no route is counted in ROUTE_NONE alone. -/
theorem resolveCopy_drop {dst : W32} {repl : Option (Nat × W32)} {c : Ctr} (h : s.resolveCopy dst repl = .drop c) : c = .routeNone := by
  have hpod : ∀ plane pod rack, s.resolvePod plane pod rack = .drop c → c = .routeNone := fun plane pod rack h => by
    unfold Body.resolvePod at h
    dsimp only at h
    split at h
    · exact (Res.drop.inj h).symm
    · split at h
      · cases h
      · split at h <;> cases h
  have hmodule : ∀ m, s.resolveModule m = .drop c → c = .routeNone := fun m h => by
    unfold Body.resolveModule at h
    dsimp only at h
    split at h
    · exact hpod _ _ _ h
    · cases h
  unfold Body.resolveCopy at h
  split at h
  · exact hpod _ _ _ h
  · exact hpod _ _ _ h
  · exact hmodule _ h
  · unfold Body.resolveEp at h
    split at h
    · exact hpod _ _ _ h
    · split at h
      · exact hpod _ _ _ h
      · split at h
        · cases h
        · exact hmodule _ h

/-- A native frame's discard is counted in GW_MISS or ENCAP_TOO_LONG. -/
theorem still_ethDest (l : Nat) (e : Eth) : (s.ethDest l e).2.still = s.still ∧ ∀ c n, (s.ethDest l e).1 = .inl (c, n) → c.passes = true := by
  have hlook : (s.gwLookup (macvEntry (physOf l / 8) e.vid.toNat e.dstMac.toNat)).2.still = s.still := by
    unfold Body.gwLookup
    split <;> rfl
  unfold Body.ethDest
  dsimp only
  split
  · exact ⟨rfl, fun c n h => by cases h; rfl⟩
  · generalize s.gwLookup (macvEntry (physOf l / 8) e.vid.toNat e.dstMac.toNat) = p at hlook ⊢
    obtain ⟨_ | x, t⟩ := p
    · exact ⟨hlook, fun c n h => by cases h; rfl⟩
    · dsimp only
      split
      · exact ⟨hlook, fun c n h => by cases h⟩
      · exact ⟨hlook, fun c n h => by cases h; rfl⟩

@[simp] theorem still_reenter (cp : Copy) (l : Nat) : (s.reenter cp l).still = s.still := by
  unfold Body.reenter
  split
  · rfl
  · extract_lets s1 byHdr
    have hbump : s1.still = s.still := still_bump s rfl _
    have hbyHdr : ∀ t g, (byHdr t g).still = t.still := fun t g => by
      dsimp only [byHdr]
      split
      · rename_i c hdrop
        obtain rfl := resolveCopy_drop t hdrop
        exact (still_releaseCopy ..).trans (still_bump t rfl _)
      · exact still_releaseCopy ..
      · rename_i e m _
        have hspray := still_spray t (dieOf l) e m
        generalize t.spray (dieOf l) e m = p at hspray ⊢
        obtain ⟨_ | k, u⟩ := p
        · exact (still_releaseCopy ..).trans hspray
        · exact (still_takeIn ..).trans hspray
    split
    · rename_i e i _ _ _
      obtain ⟨hdest, hcount⟩ := still_ethDest s1 i e
      replace hdest := hdest.trans hbump
      generalize s1.ethDest i e = p at hdest hcount ⊢
      obtain ⟨⟨c, n⟩ | k, t⟩ := p
      · exact (still_releaseCopy ..).trans ((still_bump t (hcount c n rfl) n).trans hdest)
      · exact keeps_ite Body.still (fun _ => (still_takeIn ..).trans hdest) fun _ => (still_takeIn ..).trans hdest
    · rw [hbyHdr]; exact hbump
    · rw [hbyHdr]; exact hbump

@[simp] theorem still_reenterQueued (l : Nat) : (s.reenterQueued l).still = s.still := by
  unfold Body.reenterQueued
  dsimp only
  refine (foldl_keeps Body.still _ (fun b e => ?_) _ _).trans (still_unqueueAll ..)
  refine (still_reenter ..).trans (keeps_ite Body.still (fun _ => ?_) fun _ => rfl)
  split <;> rfl

/-! ### What a link carried (02 R59; 04 R107, R109; 05 R144) -/

@[simp] theorem still_takeReplay (l : Nat) : (s.takeReplay l).2.still = s.still := by
  unfold Body.takeReplay
  dsimp only
  have hport : ∀ x : LPort, x.hold = (s.lp l).hold → (s.setLp l x).still = s.still := fun x h => still_setLp s (congrArg Option.isSome h)
  refine (foldl_keeps Body.still _ (fun b c => ?_) _ _).trans ?_
  · split
    · exact keeps_ite Body.still (fun _ => rfl) fun _ => rfl
    · rfl
  · split
    · exact keeps_ite Body.still (fun _ => hport _ rfl) fun _ => (still_releaseCopy ..).trans (hport _ rfl)
    · exact hport _ rfl

@[simp] theorem still_reenterReplay (l : Nat) : (s.reenterReplay l).still = s.still := by
  have htake := still_takeReplay s l
  unfold Body.reenterReplay
  generalize s.takeReplay l = p at htake ⊢
  exact (foldl_keeps Body.still _ (fun b c => still_reenter b c l) _ _).trans htake

/-- A copy that goes back to the head of a held port's queue. -/
def Body.requeue (s : Body) (l : Nat) (c : Copy) : Body :=
  match s.frame c.fid with
  | none => s
  | some f => (s.takeStream l (s.classOn l f) (s.streamOf f).1 (s.streamOf f).2).2.2.pushEntry f c l (s.classOn l f)
      (s.takeStream l (s.classOn l f) (s.streamOf f).1 (s.streamOf f).2).1
      (s.takeStream l (s.classOn l f) (s.streamOf f).1 (s.streamOf f).2).2.1

/-- A view that neither the entries of queues nor a port's hold can change sees nothing of a held port's frames going back to it. -/
theorem replayToQueue_keeps {γ : Type} (v : Body → γ) (hqueue : ∀ b q n, v { b with tms := { b.tms with queue := q, nextSeq := n } } = v b)
    (hrequeue : ∀ b l c, v (b.requeue l c) = v b) (hreserve : ∀ b l, v (b.toReserve l) = v b)
    (hhold : ∀ b l, v (b.modLp l fun x => { x with hold := x.hold.map fun h => { h with entering := false } }) = v b) (l : Nat) :
    v (s.replayToQueue l) = v (s.takeReplay l).2 := by
  unfold Body.replayToQueue
  refine (hreserve _ _).trans ((hhold _ _).trans ?_)
  refine (foldl_keeps v _ (fun b e => hqueue b _ _) _ _).trans ((foldl_keeps v _ (fun b c => ?_) _ _).trans (hqueue _ _ _))
  exact hrequeue b l c

@[simp] theorem still_requeue (l : Nat) (c : Copy) : (s.requeue l c).still = s.still := by
  unfold Body.requeue
  split
  · rfl
  · exact still_takeStream s ..

@[simp] theorem still_replayToQueue (l : Nat) : (s.replayToQueue l).still = s.still := by
  refine (replayToQueue_keeps s Body.still (fun _ _ _ => rfl) still_requeue still_toReserve (fun b l => ?_) l).trans (still_takeReplay ..)
  exact still_modLp b l fun x => by cases x.hold <;> rfl

@[simp] theorem still_cutIngress (l : Nat) : (s.cutIngress l).still = s.still := by
  unfold Body.cutIngress
  split
  · rfl
  · rename_i fid _
    dsimp only
    refine (still_doneHere ..).trans (Eq.trans (still_setLp _ rfl) ?_)
    refine (foldl_keeps Body.still _ (fun b _ => still_releaseCopy b fid) _ _).trans ?_
    exact (still_bumpBy _ rfl _ _).trans (still_unqueueAll ..)

/-! ### Leaving UP (03 R76; 10 R267) -/

@[simp] theorem still_returnCredit (l : Nat) : (s.returnCredit l).still = s.still := by
  unfold Body.returnCredit
  refine foldl_keeps Body.still _ (fun b v => ?_) _ s
  extract_lets x pl occ back
  exact still_setLp _ rfl

theorem portAct_portFlip (g : PortBank → PortBank) : (s.portFlip g).portAct = g s.portAct := by
  unfold Body.portFlip Body.portAct
  by_cases h : s.tables.portActive = true <;> simp [h]

theorem lpe_setLpe (l m : Nat) (g : LpEntry → LpEntry) : (s.setLpe l g).lpe m = if m = l then g (s.lpe l) else s.lpe m := by
  unfold Body.setLpe Body.lpe
  rw [portAct_portFlip]
  split
  · subst_vars; exact mgetD_mset_same ..
  · exact mgetD_mset_other _ _ _ ‹_›

@[simp] theorem lpe_setLpe_same (l : Nat) (g : LpEntry → LpEntry) : (s.setLpe l g).lpe l = g (s.lpe l) := by rw [lpe_setLpe, if_pos rfl]

/-- A flip of the port table that leaves DRAIN and HOLD as they were. -/
theorem still_setLpe (l : Nat) {g : LpEntry → LpEntry} (hdrain : ∀ e, (g e).drain = e.drain) (hhold : ∀ e, (g e).hold = e.hold) :
    (s.setLpe l g).still = s.still := by
  have hkept : ∀ m, ((s.setLpe l g).lpe m).drain = (s.lpe m).drain ∧ ((s.setLpe l g).lpe m).hold = (s.lpe m).hold := fun m => by
    rw [lpe_setLpe]
    split
    · subst_vars; exact ⟨hdrain _, hhold _⟩
    · exact ⟨rfl, rfl⟩
  exact congrArg₂ (fun d h => { s.still with drain := d, hold := h }) (funext fun m => (hkept m).1) (funext fun m => (hkept m).2)

@[simp] theorem still_clpApply (t : Nat) (c : ClpChange) : (s.clpApply t c).still = s.still := by
  have hnote : ∀ (b : Body) key m, (clpNote b t key m c).still = b.still := fun b key m => by cases c <;> rfl
  unfold Body.clpApply
  extract_lets x a b s1 y tables s2
  refine (still_auditModule ..).trans ((still_emit s2 ..).trans ?_)
  have hbanks : s2.still = s1.still := by
    dsimp only [s2, tables]
    split <;> rfl
  exact hbanks.trans ((hnote ..).trans (hnote ..))

@[simp] theorem still_clpChange (t : Nat) (c : ClpChange) : (s.clpChange t c).still = s.still := by
  unfold Body.clpChange
  exact keeps_ite Body.still (fun _ => rfl) fun _ => keeps_ite Body.still (fun _ => rfl) fun _ => still_clpApply ..

@[simp] theorem still_expressDown (l : Nat) : (s.expressDown l).still = s.still := by
  unfold Body.expressDown
  refine keeps_ite Body.still (fun _ => rfl) fun _ => ?_
  rw [still_clpChange, still_clpChange, still_setLpe _ l (by intro; rfl) (by intro; rfl), still_modLp s l (by intro; rfl)]

@[simp] theorem still_dropCand (l : Nat) : (s.dropCand l).still = s.still := rfl

@[simp] theorem still_leaveUp (l : Nat) : (s.leaveUp l).still = s.still := by
  show (((s.returnCredit l).expressDown l).dropCand l).still = s.still
  rw [still_dropCand, still_expressDown, still_returnCredit]

end Sys2Proof.Machine
end

section
/-! SUPPORT. The end of a drain (06 R151): what its port becomes, and who waited for it. -/
namespace Sys2Proof.Machine

variable (s : Body)

/-! ### A held port takes its frames back (05 R144) -/

theorem links_replayToQueue (l : Nat) : (s.replayToQueue l).links = (s.setLp l (s.lp l).unsent).links := by
  have hrequeue : ∀ (b : Body) m c, (b.requeue m c).links = b.links := fun b m c => by
    unfold Body.requeue
    split
    · rfl
    · rename_i f _
      show (b.takeStream m (b.classOn m f) (b.streamOf f).1 (b.streamOf f).2).2.2.links = b.links
      exact links_of_sansMarks (sansMarks_takeStream b ..)
  have hentered : ∀ (b : Body) m, (b.modLp m fun x => { x with hold := x.hold.map fun h => { h with entering := false } }).links = b.links :=
    fun b m => links_modLp b m fun _ => rfl
  exact (replayToQueue_keeps s Body.links (fun _ _ _ => rfl) hrequeue (fun b m => links_toReserve b m) hentered l).trans (links_takeReplay ..)

/-- What the port launched goes back: to the queue of a held port, else to Lookup. -/
def Body.recall (s : Body) (l : Nat) : Body := if (s.lp l).hold.isSome then s.replayToQueue l else s.reenterReplay l

theorem links_recall (l : Nat) : (s.recall l).links = (s.setLp l (s.lp l).unsent).links :=
  keeps_ite Body.links (fun _ => links_replayToQueue ..) fun _ => links_reenterReplay ..

@[simp] theorem still_recall (l : Nat) : (s.recall l).still = s.still :=
  keeps_ite Body.still (fun _ => still_replayToQueue ..) fun _ => still_reenterReplay ..

/-! ### The port's own part -/

/-- The end of a drain is counted when it is a timeout. -/
def Body.countTimeout (s : Body) (l : Nat) (timeout : Bool) : Body := if timeout then s.bump .drainTimeout l else s

theorem quiet_countTimeout (l : Nat) (timeout : Bool) : (s.countTimeout l timeout).quiet = s.quiet :=
  keeps_ite Body.quiet (fun _ => quiet_bump ..) fun _ => rfl

/-- The port after its drain, before what the drain's cause makes of it. -/
def Body.undrained (s : Body) (l : Nat) (timeout : Bool) : Body :=
  (((s.countTimeout l timeout).recall l).modLp l fun y => { y with drain := none }).setLpe l fun e => { e with drain := false }

/-- The port after its drain: one that has left DRAINING already stays as it is, a held one is UP again, another DISABLED. -/
def Body.portDrained (s : Body) (l : Nat) (c : DrainCause) (timeout : Bool) : Body :=
  let b := s.undrained l timeout
  if (s.lp l).state != .draining then b
  else if c = .hold then b.modLp l fun y => { y with state := .up }
  else (b.leaveUp l).modLp l fun y => { y with state := .disabled, lock := false, hold := y.hold.map fun h => { h with leftUp := true } }

/-- The transition of the port's group hears that the drain has ended, and writes its cells after the last one (06 R160). -/
def Body.tellTransition (s : Body) (l : Nat) : Body :=
  match mget s.portage.trans (physOf l / 8) with
  | some t =>
    if t.draining.contains l then
      let t := { t with draining := t.draining.filter (· != l) }
      if t.draining.isEmpty then (s.setTrans (physOf l / 8) t).beginWrites (physOf l / 8) t else s.setTrans (physOf l / 8) t
    else s
  | none => s

variable {s}

theorem concludeDrain_of_some {l : Nat} {c : DrainCause} (h : (s.lp l).drain = some c) (timeout : Bool) :
    s.concludeDrain l timeout = (((s.portDrained l c timeout).tellTransition l).laserSettle (physOf l / 8)).portSettle := by
  have hhold : (s.lp l).hold = ((s.countTimeout l timeout).lp l).hold := by rw [lp_of_quiet (quiet_countTimeout ..)]
  unfold Body.concludeDrain
  simp only [h]
  rw [hhold]
  rfl

theorem links_undrained (l : Nat) (timeout : Bool) :
    (s.undrained l timeout).links = (s.setLp l { (s.lp l).unsent with drain := none }).links := by
  have hcount := links_of_quiet (quiet_countTimeout s l timeout)
  have hback : ((s.countTimeout l timeout).recall l).links = (s.setLp l (s.lp l).unsent).links := by
    rw [links_recall, lp_of_quiet (quiet_countTimeout ..)]
    exact links_setLp_congr hcount rfl
  unfold Body.undrained
  rw [links_setLpe]
  exact links_setLp_of_links hback (congrArg (fun y : LPort => { y with drain := none }) (sansCells_lp_of_links hback))

theorem links_portDrained {l : Nat} {c : DrainCause} (hst : (s.lp l).state = .draining) (hc : c ≠ .hold) (timeout : Bool) :
    (s.portDrained l c timeout).links
      = ((s.dropCand l).setLp l { (s.lp l).unsent with drain := none, state := .disabled, lock := false }).links := by
  have hleft : ((s.undrained l timeout).leaveUp l).links = ((s.dropCand l).setLp l { (s.lp l).unsent with drain := none }).links := by
    rw [links_leaveUp, links_dropCand_congr (links_undrained ..), dropCand_setLp]
  unfold Body.portDrained
  simp only [hst, bne_self_eq_false, Bool.false_eq_true, if_false, if_neg hc]
  exact links_setLp_of_links hleft (congrArg (fun y : LPort => { y with state := .disabled, lock := false }) (sansCells_lp_of_links hleft))

/-- DRAIN of one port cleared, at a flip of the port table. -/
theorem still_clearedDrain (b : Body) (l : Nat) :
    (b.setLpe l fun e => { e with drain := false }).still = { b.still with drain := fun m => if m = l then false else (b.lpe m).drain } := by
  have hentry : ∀ m, ((b.setLpe l fun e => { e with drain := false }).lpe m).drain = (if m = l then false else (b.lpe m).drain)
      ∧ ((b.setLpe l fun e => { e with drain := false }).lpe m).hold = (b.lpe m).hold := fun m => by
    rw [lpe_setLpe]
    split
    · subst_vars; exact ⟨rfl, rfl⟩
    · exact ⟨rfl, rfl⟩
  exact congrArg₂ (fun d h => { b.still with drain := d, hold := h }) (funext fun m => (hentry m).1) (funext fun m => (hentry m).2)

/-- Of the view only the port's DRAIN and the count of a timeout change. -/
theorem still_portDrained (l : Nat) (c : DrainCause) (timeout : Bool) : (s.portDrained l c timeout).still
    = { (s.countTimeout l timeout).still with drain := fun m => if m = l then false else (s.countTimeout l timeout).still.drain m } := by
  have hundrained : (s.undrained l timeout).still
      = { (s.countTimeout l timeout).still with drain := fun m => if m = l then false else (s.countTimeout l timeout).still.drain m } := by
    have hback : (((s.countTimeout l timeout).recall l).modLp l fun y => { y with drain := none }).still = (s.countTimeout l timeout).still :=
      (still_modLp _ l (by intro; rfl)).trans (still_recall ..)
    rw [← hback]
    exact still_clearedDrain _ l
  have hup : ∀ b : Body, (b.modLp l fun y => { y with state := .up }).still = b.still := fun b => still_modLp b l fun _ => rfl
  rw [← hundrained]
  unfold Body.portDrained
  refine keeps_ite Body.still (fun _ => rfl) fun _ => keeps_ite Body.still (fun _ => hup _) fun _ => ?_
  exact (still_modLp _ l fun x => by cases x.hold <;> rfl).trans (still_leaveUp ..)

theorem portage_portDrained (l : Nat) (c : DrainCause) (timeout : Bool) : (s.portDrained l c timeout).portage = s.portage := by
  have h := congrArg Still.portage (still_portDrained (s := s) l c timeout)
  exact h.trans (portage_of_quiet (quiet_countTimeout ..))

theorem carts_portDrained (l : Nat) (c : DrainCause) (timeout : Bool) : (s.portDrained l c timeout).carts = s.carts := by
  have h := congrArg Still.carts (still_portDrained (s := s) l c timeout)
  exact h.trans (carts_of_quiet (quiet_countTimeout ..))

theorem drain_portDrained (l : Nat) (c : DrainCause) (timeout : Bool) : ((s.portDrained l c timeout).lpe l).drain = false := by
  have h := congrFun (congrArg Still.drain (still_portDrained (s := s) l c timeout)) l
  exact h.trans (if_pos rfl)

theorem timeouts_portDrained (l : Nat) (c : DrainCause) :
    (s.portDrained l c true).count .drainTimeout l = (s.count .drainTimeout l + 1) % 2 ^ 64 := by
  have h := congrFun (congrArg Still.timeouts (still_portDrained (s := s) l c true)) l
  exact h.trans (count_bump (s := s) (c := .drainTimeout) rfl l)

/-! ### Those that waited -/

theorem tellTransition_of_none {l : Nat} (h : mget s.portage.trans (physOf l / 8) = none) : s.tellTransition l = s := by
  unfold Body.tellTransition
  rw [h]

theorem laserSettle_of_no_spare {g : Nat} (h : (s.cart (g / 4)).spare = []) : s.laserSettle g = s := by
  have hnone : ∀ w, mget (s.cart (g / 4)).spare w ≠ some (g % 4) := fun w => by simp [h, mget]
  unfold Body.laserSettle
  dsimp only
  induction List.range 4 with
  | nil => rfl
  | cons w ws ih =>
    rw [List.foldl_cons, if_neg fun hw => hnone w hw.2.1]
    exact ih

theorem portSettle_of_none (h : s.portage.portCmds = []) : s.portSettle = s := by
  unfold Body.portSettle
  rw [h]
  rfl

/-- With no transition of its group, no reserved spare and no command that waits, the end of a drain is the port's alone. -/
theorem concludeDrain_alone {l : Nat} {c : DrainCause} (h : (s.lp l).drain = some c) (htrans : mget s.portage.trans (physOf l / 8) = none)
    (hspare : (s.cart (physOf l / 32)).spare = []) (hcmds : s.portage.portCmds = []) (timeout : Bool) :
    s.concludeDrain l timeout = s.portDrained l c timeout := by
  have hportage := portage_portDrained (s := s) l c timeout
  have hcart : ((s.portDrained l c timeout).cart (physOf l / 8 / 4)).spare = [] := by
    unfold Body.cart at hspare ⊢
    rw [carts_portDrained, Nat.div_div_eq_div_mul]
    exact hspare
  rw [concludeDrain_of_some h, tellTransition_of_none (by rw [hportage]; exact htrans), laserSettle_of_no_spare hcart,
    portSettle_of_none (by rw [hportage]; exact hcmds)]

end Sys2Proof.Machine
end

section
/-! SUPPORT. Drains and holds end. -/
namespace Sys2Proof.Machine

variable {s : State} {l : Nat}

/-- What the end of a drain makes of the port and its entry, when it is not that of a hold. -/
theorem ended_portDrained {b : Body} {c : DrainCause} (hst : (b.lp l).state = .draining) (hc : c ≠ .hold) (timeout : Bool) :
    let t := b.portDrained l c timeout
    (t.lp l).state = .disabled ∧ (t.lp l).drain = none ∧ (t.lp l).replay = [] ∧ (t.lp l).tx = [] ∧ (t.lpe l).drain = false := by
  have hport := sansCells_lp_of_links (links_portDrained hst hc timeout)
  exact ⟨congrArg LPort.state hport, congrArg LPort.drain hport, congrArg LPort.replay hport, congrArg LPort.tx hport, drain_portDrained ..⟩

theorem origWait_portDrained {b : Body} {c : DrainCause} (hst : (b.lp l).state = .draining) (hc : c ≠ .hold) (timeout : Bool) :
    (b.portDrained l c timeout).fwc.origWait = b.fwc.origWait :=
  (origWait_of_links (links_portDrained hst hc timeout)).trans rfl

/-- The port out of hold (09 R252). -/
theorem leaveHold_ends {b : Body} (h : (b.lp l).hold ≠ none) :
    ((b.leaveHold l).lp l).hold = none ∧ ((b.leaveHold l).lpe l).hold = false ∧ (b.leaveHold l).fwc.origWait = b.fwc.origWait := by
  obtain ⟨x, hx⟩ := Option.ne_none_iff_exists'.mp h
  set u := (b.modLp l fun y => { y with hold := none, allotLeft := y.allotLeft + x.allot }).setLpe l fun e => { e with hold := false } with hu
  have hout : u.still.held l = false ∧ u.still.hold l = false := by
    refine ⟨?_, congrArg LpEntry.hold (lpe_setLpe_same ..)⟩
    have hport : u.lp l = { b.lp l with hold := none, allotLeft := (b.lp l).allotLeft + x.allot } :=
      lp_modLp_same b l fun y => { y with hold := none, allotLeft := y.allotLeft + x.allot }
    exact congrArg (fun y : LPort => y.hold.isSome) hport
  have hallot : ∀ a : Body, (a.returnAllot l).still = a.still ∧ (a.returnAllot l).fwc = a.fwc := fun a => by
    unfold Body.returnAllot
    dsimp only
    split
    · exact ⟨rfl, rfl⟩
    · exact ⟨still_setLp _ rfl, rfl⟩
  have hends : (b.leaveHold l).still = u.still ∧ (b.leaveHold l).fwc.origWait = b.fwc.origWait := by
    unfold Body.leaveHold
    simp only [hx]
    split
    · obtain ⟨hstill, hfwc⟩ := hallot u
      exact ⟨hstill, congrArg Fwc.origWait hfwc⟩
    · obtain ⟨hstill, hfwc⟩ := hallot (u.reenterQueued l)
      refine ⟨(still_emit ..).trans (hstill.trans (still_reenterQueued ..)), ?_⟩
      rw [fwc_of_quiet (quiet_emit ..), hfwc]
      exact (origWait_of_links (links_reenterQueued u l)).trans rfl
  obtain ⟨hstill, hwait⟩ := hends
  rw [← hstill] at hout
  exact ⟨by simpa [Body.still] using hout.1, hout.2, hwait⟩

/-- Settles O51: where nothing else waits for the drain its end is `Body.portDrained`; no frame puts a port back into hold. -/
theorem drainsEnd : Obligations.DrainsEnd := by
  intro s l h b x
  refine ⟨fun c hst hdrain hc htrans hcmds hspare hgate => ⟨fun hlaunch htx hreplay => ?complete, ?timeout⟩, fun hhold => ?hold⟩
  case complete =>
    have hdrained : b.drained l = true := by
      show (x.launch.isNone && (b.isGateway (physOf l) || (x.tx.isEmpty && x.replay.isEmpty))) = true
      simp [hlaunch, htx, hreplay]
    refine ⟨_, becomes_of_link h (exec_drainComplete s l) ?_ ((origWait_portDrained hst hc false).trans h.none_waits),
      ended_portDrained hst hc false⟩
    exact (if_pos ⟨hst, hdrained⟩).trans (concludeDrain_alone hdrain htrans hspare hcmds false)
  case timeout =>
    refine ⟨_, becomes_of_link h (exec_drainTimeout s l) ?_ ((origWait_portDrained hst hc true).trans h.none_waits),
      ended_portDrained hst hc true, timeouts_portDrained l c⟩
    exact (if_pos ⟨hst, by rw [hgate]; rfl⟩).trans (concludeDrain_alone hdrain htrans hspare hcmds true)
  case hold =>
    obtain ⟨hout, hentry, hwait⟩ := leaveHold_ends hhold
    exact ⟨_, becomes_of_link h (exec_holdLimitExpiry s l) rfl (hwait.trans h.none_waits), hout, hentry⟩

end Sys2Proof.Machine
end

section
/-! SUPPORT. PORT PREPARE_REMOVE. -/
namespace Sys2Proof.Machine

/-- A command that names its SCOPE finds it in the descriptor. -/
theorem scopeIs_of_desc {b : Body} {r : CmdRef} {d : Desc} (h : b.desc r = some d) (scope : Nat) :
    scopeIs b r scope = (removeScope d == scope) := by
  unfold scopeIs
  rw [h]

/-- Settles O9: the ready command is carried out at once, and the SCOPE says which of the two it is. -/
theorem prepareRemoveRuns : Obligations.PrepareRemoveRuns := by
  intro r s d h b e
  have hrun : hostCmd specPrepare s.toBody r [] 0 = concludeRes r (specPrepare.run b r e e.buf) :=
    hostCmd_of_ready s.toBody h rfl fun _ _ _ _ => rfl
  have hscope : removeScope e = removeScope d := rfl
  refine ⟨fun hone => ?cartridge, fun hzero => ⟨?module, rfl, rfl⟩⟩
  case cartridge =>
    have hcart : specPrepare.run b r e e.buf = cartRun b r e [] := if_pos (hscope.trans hone)
    refine becomes_of_body (exec_portPrepareRemoveCartridge s r) ?_
    rw [scopeIs_of_desc h.found, hone, if_pos (by rfl), hrun, hcart]
  case module =>
    have hmodule : specPrepare.run b r e e.buf = { s := b.enterRemoving r, later := true } :=
      if_neg (by rw [hscope, hzero]; decide)
    refine becomes_of_body (exec_portPrepareRemoveModule s r) ?_
    rw [scopeIs_of_desc h.found, hzero, if_pos (by rfl), hrun, hmodule]
    rfl

end Sys2Proof.Machine
end

section
/-! SUPPORT. Frames that the module originates (03 R73) move as little as any other. -/
namespace Sys2Proof.Machine

variable (s : Body)

@[simp] theorem still_takeCopy (f : BufFrame) (cp : Copy) (l : Nat) : (s.takeCopy f cp l).still = s.still := by
  unfold Body.takeCopy
  split
  · exact keeps_ite Body.still (fun _ => still_takeIn ..) fun _ => (still_releaseCopy ..).trans (still_bump s rfl _)
  · exact still_takeIn ..

@[simp] theorem still_sendTargets (f : BufFrame) (ts : List (Option (Nat × W32))) : (s.sendTargets f ts).still = s.still := by
  unfold Body.sendTargets
  refine foldl_keeps Body.still _ (fun b t => ?_) _ s
  extract_lets cp
  split
  · rename_i c hdrop
    obtain rfl := resolveCopy_drop b hdrop
    exact (still_releaseCopy ..).trans (still_bump b rfl _)
  · split
    · rfl
    · exact still_releaseCopy ..
  · rename_i e m _
    have hspray := still_spray b f.die e m
    generalize b.spray f.die e m = p at hspray ⊢
    obtain ⟨_ | k, u⟩ := p
    · exact (still_releaseCopy ..).trans hspray
    · exact (still_takeCopy ..).trans hspray

theorem still_takeOwn {die : Nat} {f g : BufFrame} {t : Body} (h : s.takeOwn die f = some (g, t)) : t.still = s.still := by
  unfold Body.takeOwn at h
  dsimp only at h
  split at h
  · obtain ⟨-, rfl⟩ := h; rfl
  · split at h
    · obtain ⟨-, rfl⟩ := h; rfl
    · cases h

@[simp] theorem still_holdOwn (k : Nat) (f : BufFrame) (ts : List (Option (Nat × W32))) (cells : Bool) :
    (s.holdOwn k f ts cells).still = s.still := by
  unfold Body.holdOwn
  exact keeps_ite Body.still (fun _ => (still_bump _ rfl _).trans rfl) fun _ => rfl

@[simp] theorem still_originate (die : Nat) (h : Hdr) (x : BitVec 128) (r : Rest) (ts : List (Option (Nat × W32))) :
    (s.originate die h x r ts).still = s.still := by
  unfold Body.originate
  extract_lets fid sett f fwc s1 k
  have hnumber : s1.still = s.still := rfl
  refine keeps_ite Body.still (fun _ => hnumber) fun _ => keeps_ite Body.still (fun _ => (still_holdOwn ..).trans hnumber) fun _ => ?_
  split
  · rename_i g t htake
    exact (still_sendTargets ..).trans ((still_takeOwn s1 htake).trans hnumber)
  · exact (still_holdOwn ..).trans hnumber

@[simp] theorem still_sendMgmt (idx w0 : Nat) : (s.sendMgmt idx w0).still = s.still := by
  unfold Body.sendMgmt Body.sendMgmtTo
  split
  · rfl
  · exact still_originate ..

end Sys2Proof.Machine
end

section
/-! SUPPORT. Portage transitions (06 R160-R162): a write, its end, and the end of the whole transition. -/
namespace Sys2Proof.Machine

variable (s : Body)

/-! ### The matrix and the cartridges -/

/-- The matrix without the list of groups that host requests wait for, and the cartridges. -/
def Body.optics (s : Body) : Portage × Map Cart := ({ s.portage with open_ := [] }, s.carts)

theorem optics_of_still {a b : Body} (h : a.still = b.still) : a.optics = b.optics :=
  congrArg (fun k : Still => ({ k.portage with open_ := [] }, k.carts)) h

theorem optics_of_quiet {a b : Body} (h : a.quiet = b.quiet) : a.optics = b.optics := by
  unfold Body.optics; rw [portage_of_quiet h, carts_of_quiet h]

@[simp] theorem optics_retrain (l : Nat) : (s.retrain l).optics = s.optics := rfl

@[simp] theorem optics_reportGroup (g : Nat) (src : OcbSource) (status : Nat) : (s.reportGroup g src status).optics = s.optics := by
  unfold Body.reportGroup
  cases src with
  | host r =>
    dsimp only
    split
    · exact (optics_of_quiet (quiet_completeRef ..)).trans rfl
    · rfl
  | peer => exact (optics_of_still (still_sendMgmt ..)).trans (optics_of_quiet (quiet_auditModule ..))
  | clp => exact optics_of_quiet (quiet_auditModule ..)
  | fallback => rfl

@[simp] theorem optics_landPorts (ps : List Nat) : (s.landPorts ps).optics = s.optics := by
  unfold Body.landPorts
  refine foldl_keeps Body.optics _ (fun b p => ?_) _ s
  exact (foldl_keeps Body.optics _ (fun a l => optics_retrain a l) _ _).trans rfl

/-! ### One cell (06 R162) -/

/-- The body with another wear of a cell. -/
def Body.withWear (s : Body) (m : Map Nat) : Body := { s with portage := { s.portage with wear := m } }

theorem quiet_raiseWear (g : Nat) (w : CellWrite) :
    (s.raiseWear g w).quiet = (s.withWear (mset s.portage.wear (wearKey g w) (min 0xFFFFFFFF (s.wear g w + 1)))).quiet := by
  unfold Body.raiseWear
  exact keeps_ite Body.quiet (fun _ => quiet_emit ..) fun _ => rfl

theorem portage_raiseWear (g : Nat) (w : CellWrite) : (s.raiseWear g w).portage
    = { s.portage with wear := mset s.portage.wear (wearKey g w) (min 0xFFFFFFFF (s.wear g w + 1)) } :=
  portage_of_quiet (quiet_raiseWear ..)

@[simp] theorem wear_raiseWear (g : Nat) (w : CellWrite) : (s.raiseWear g w).wear g w = min 0xFFFFFFFF (s.wear g w + 1) := by
  unfold Body.wear
  rw [portage_raiseWear]
  exact mgetD_mset_same ..

/-- A written cell stands as written, and no other cell of its group changes. -/
theorem cellsOf_setCell (g : Nat) (w : CellWrite) (h : cellIdx w.tx w.row w.col < 128) :
    ((s.setCell g w).cellsOf g).getLsbD (cellIdx w.tx w.row w.col) = w.on
      ∧ ∀ j, j ≠ cellIdx w.tx w.row w.col → ((s.setCell g w).cellsOf g).getLsbD j = (s.cellsOf g).getLsbD j := by
  have hcells : (s.setCell g w).cellsOf g = if w.on then s.cellsOf g ||| (1 : BitVec 128) <<< cellIdx w.tx w.row w.col
      else s.cellsOf g &&& ~~~((1 : BitVec 128) <<< cellIdx w.tx w.row w.col) := mgetD_mset_same ..
  rw [hcells]
  generalize cellIdx w.tx w.row w.col = i at h
  cases w.on
  · refine ⟨by simp [h], fun j hj => ?_⟩
    by_cases hlt : j < 128
    · simp [hlt]; omega
    · have hge : 128 ≤ j := Nat.le_of_not_lt hlt
      exact (BitVec.getLsbD_of_ge _ j hge).trans (BitVec.getLsbD_of_ge _ j hge).symm
  · refine ⟨by simp [h], fun j hj => ?_⟩
    simp; omega

/-! ### A transition (06 R160, R161) -/

/-- The matrix with a group's target map in force under its next generation, and its transition over. -/
def Body.remapped (s : Body) (g : Nat) (target : W32) : Portage :=
  let p := s.portage
  let n : BypassEntry := { partner := target, gen := (s.bypass g).gen + 1 }
  { p with mapA := mset p.mapA g n, mapB := mset p.mapB g n, active := !p.active
           inconsistent := p.inconsistent &&& ~~~ ((1 : W64) <<< g), trans := mdel p.trans g, open_ := [] }

theorem optics_endTrans (g : Nat) (t : Transition) : (s.endTrans g t true).optics = (s.remapped g t.target, s.carts) := by
  unfold Body.endTrans
  refine (optics_reportGroup ..).trans ((optics_landPorts ..).trans ?_)
  exact optics_of_quiet (quiet_emit ..)

theorem bypass_of_remapped {t : Body} {g : Nat} {target : W32} (h : ({ t.portage with open_ := [] } : Portage) = s.remapped g target) :
    t.bypass g = { partner := target, gen := (s.bypass g).gen + 1 } := by
  have hmaps : t.bypass g = mgetD (if (s.remapped g target).active then (s.remapped g target).mapB else (s.remapped g target).mapA) g {} := by
    rw [← h]; rfl
  rw [hmaps]
  exact keeps_ite (fun m : Map BypassEntry => mgetD m g {}) (fun _ => mgetD_mset_same ..) fun _ => mgetD_mset_same ..

section write
variable {s} {g : Nat} {t : Transition} {w : CellWrite} {rest : List CellWrite} (htrans : mget s.portage.trans g = some t)
  (hdrained : t.draining = []) (htodo : t.todo = w :: rest)
include htrans hdrained htodo

/-- A write that reads back right: the next one. -/
theorem cellDone_good : s.cellDone g true = (s.setCell g w).nextWrite g { t with todo := rest, tries := 0 } := by
  unfold Body.cellDone
  simp only [htrans, hdrained, htodo]
  rfl

/-- A write that does not read back right the first or the second time: again. -/
theorem cellDone_again (htries : t.tries < 2) : s.cellDone g false = (s.setTrans g { t with tries := t.tries + 1 }).raiseWear g w := by
  unfold Body.cellDone
  simp only [htrans, hdrained, htodo, htries]
  rfl

end write

end Sys2Proof.Machine
end

section
/-! SUPPORT. Portage cells are written. -/
namespace Sys2Proof.Machine

theorem exec_cellWrite {s : State} {g : Fin 64} (h : g.val < s.hw.groups) (ok : Bool) :
    becomes (.portageCellWriteComplete g ok) s (s.toBody.cellDone g.val ok) :=
  (exec_portageCellWriteComplete s g ok).trans (if_pos h)

/-- Settles O52: after a good write the list goes on or the transition ends, and `Body.remapped` is what its end leaves. -/
theorem portageWritesCells : Obligations.PortageWritesCells := by
  intro s g t w rest hg b i htrans hdrained htodo hi
  obtain ⟨hwritten, hothers⟩ := cellsOf_setCell b g w hi
  refine ⟨fun v l hrest => ?next, fun hrest hback => ?last, fun htries => ?again⟩
  case next =>
    set t1 : Transition := { t with todo := rest, tries := 0 } with ht1
    have hdone : b.cellDone g true = ((b.setCell g w).setTrans g t1).raiseWear g v := by
      rw [cellDone_good htrans hdrained htodo]
      unfold Body.nextWrite
      simp only [ht1, hrest]
    have hcells : (((b.setCell g w).setTrans g t1).raiseWear g v).cellsOf g = (b.setCell g w).cellsOf g := by
      unfold Body.cellsOf
      rw [portage_raiseWear]
      rfl
    refine ⟨_, exec_cellWrite hg true, ?_⟩
    show mget (b.cellDone g true).portage.trans g = _ ∧ ((b.cellDone g true).cellsOf g).getLsbD i = _
      ∧ (∀ j, j ≠ i → ((b.cellDone g true).cellsOf g).getLsbD j = _) ∧ (b.cellDone g true).wear g v = _
    rw [hdone, hcells, portage_raiseWear, wear_raiseWear]
    exact ⟨mget_mset_same .., hwritten, hothers, rfl⟩
  case last =>
    set t1 : Transition := { t with todo := rest, tries := 0 } with ht1
    have hdone : b.cellDone g true = (b.setCell g w).endTrans g t1 true := by
      rw [cellDone_good htrans hdrained htodo]
      unfold Body.nextWrite
      simp only [ht1, hrest, hback]
      rfl
    have hmatrix : ({ (b.cellDone g true).portage with open_ := [] } : Portage) = (b.setCell g w).remapped g t.target := by
      rw [hdone]
      exact congrArg Prod.fst (optics_endTrans ..)
    refine ⟨_, exec_cellWrite hg true, bypass_of_remapped (b.setCell g w) hmatrix, congrArg Portage.trans hmatrix, ?_, ?_⟩
    · have hbits := congrArg (fun p : Portage => p.inconsistent.getLsbD g) hmatrix
      exact hbits.trans (by simp [Body.remapped])
    · have hcells := congrArg (fun p : Portage => (mgetD p.cells g (cellsOfMap allThrough)).getLsbD i) hmatrix
      exact hcells.trans hwritten
  case again =>
    have hdone := cellDone_again htrans hdrained htodo htries
    refine ⟨_, exec_cellWrite hg false, ?_⟩
    show mget (b.cellDone g false).portage.trans g = _ ∧ (b.cellDone g false).portage.cells = _ ∧ (b.cellDone g false).wear g w = _
    rw [hdone, portage_raiseWear, wear_raiseWear]
    exact ⟨mget_mset_same .., rfl, rfl⟩

end Sys2Proof.Machine
end

section
/-! SUPPORT. Links that lose their light (06 R155, R156; 04 R107; 09 R250): what is left of the port, and what of the others and of the
cartridges. -/
namespace Sys2Proof.Machine

variable {s : Body}

/-! ### Failing -/

/-- A link that leaves UP or DRAINING, held or not: its port is emptied and its candidate gone. -/
theorem links_failTo {l : Nat} (st : PState) (h : (s.lp l).state = .up ∨ (s.lp l).state = .draining) :
    (s.failTo l st).links = ((s.dropCand l).setLp l ((s.lp l).lost st)).links := by
  have hleft : ((s.setLp l ((s.lp l).leaving st)).leaveUp l).links = ((s.dropCand l).setLp l ((s.lp l).leaving st)).links := by
    rw [links_leaveUp, dropCand_setLp]
  unfold Body.failTo
  dsimp only
  rw [if_pos h]
  refine keeps_ite Body.links (fun _ => ?held) fun _ => ?free
  case held =>
    set b := ((s.setLp l ((s.lp l).leaving st)).leaveUp l).modLp l fun y => { y with hold := y.hold.map fun h => { h with leftUp := true } }
    have hb : b.links = ((s.dropCand l).setLp l ((s.lp l).leaving st)).links := (links_modLp _ l (by intro; rfl)).trans hleft
    refine links_cutIngress_of_links (x := ((s.lp l).leaving st).unsent) ?_
    rw [links_replayToQueue]
    exact links_setLp_of_links hb (congrArg LPort.unsent (sansCells_lp_of_links hb))
  case free => exact links_cutIngress_of_links (links_reenterReplay_of_links ((links_reenterQueued ..).trans hleft))

@[simp] theorem still_failTo (l : Nat) (st : PState) : (s.failTo l st).still = s.still := by
  have hleft : ((s.setLp l ((s.lp l).leaving st)).leaveUp l).still = s.still := (still_leaveUp ..).trans (still_setLp s rfl)
  unfold Body.failTo
  dsimp only
  refine keeps_ite Body.still (fun _ => keeps_ite Body.still (fun _ => ?held) fun _ => ?free) fun _ => still_setLp s rfl
  case held =>
    refine (still_cutIngress ..).trans ((still_replayToQueue ..).trans (Eq.trans (still_modLp _ l ?_) hleft))
    intro x
    cases x.hold <;> rfl
  case free => exact (still_cutIngress ..).trans ((still_reenterReplay ..).trans ((still_reenterQueued ..).trans hleft))

theorem failTo_same (l : Nat) (st : PState) : ((s.failTo l st).lp l).state = st ∧ ((s.failTo l st).lp l).drain = (s.lp l).drain := by
  by_cases h : (s.lp l).state = .up ∨ (s.lp l).state = .draining
  · have hport := sansCells_lp_of_links (links_failTo st h)
    exact ⟨congrArg LPort.state hport, (congrArg LPort.drain hport :)⟩
  · have hdark : s.failTo l st = s.setLp l { s.lp l with state := st, lock := false } := if_neg h
    rw [hdark, lp_setLp_same]
    exact ⟨rfl, rfl⟩

theorem failTo_other {l m : Nat} (st : PState) (h : l ≠ m) : ((s.failTo m st).lp l).sansCells = (s.lp l).sansCells := by
  by_cases hm : (s.lp m).state = .up ∨ (s.lp m).state = .draining
  · rw [sansCells_of_links (links_failTo st hm), lp_setLp, if_neg h]
    rfl
  · have hdark : s.failTo m st = s.setLp m { s.lp m with state := st, lock := false } := if_neg hm
    rw [hdark, lp_setLp, if_neg h]

theorem portDrained_other {l m : Nat} (c : DrainCause) (timeout : Bool) (h : l ≠ m) :
    ((s.portDrained m c timeout).lp l).sansCells = (s.lp l).sansCells := by
  let v := fun b : Body => (b.lp l).sansCells
  have hapart : v (s.undrained m timeout) = v s := by
    show ((s.undrained m timeout).lp l).sansCells = (s.lp l).sansCells
    rw [sansCells_of_links (links_undrained ..), lp_setLp, if_neg h]
  have hmod : ∀ (b : Body) g, v (b.modLp m g) = v b := fun b g => congrArg LPort.sansCells ((lp_setLp ..).trans (if_neg h))
  have hleave : ∀ b : Body, v (b.leaveUp m) = v b := fun b => sansCells_of_links (links_leaveUp b m) l
  unfold Body.portDrained
  refine keeps_ite v (fun _ => hapart) fun _ => keeps_ite v (fun _ => (hmod ..).trans hapart) fun _ => ?_
  exact (hmod ..).trans ((hleave _).trans hapart)

/-! ### What the end of a drain leaves of the cartridges -/

/-- Of the cartridges only degraded lasers whose spare is reserved have changed, and the same PORT commands wait. -/
structure OpticsKept (a b : Body) : Prop where
  cmds : b.portage.portCmds = a.portage.portCmds
  spare : ∀ c, (b.cart c).spare = (a.cart c).spare
  laser : ∀ c n, mgetD (a.cart c).lasers n .ok ≠ .degraded → mgetD (b.cart c).lasers n .ok = mgetD (a.cart c).lasers n .ok
  empty : ∀ c, (a.cart c).spare = [] → b.cart c = a.cart c

theorem OpticsKept.of_eq {a b : Body} (hcmds : b.portage.portCmds = a.portage.portCmds) (hcarts : b.carts = a.carts) : OpticsKept a b := by
  have hcart : ∀ c, b.cart c = a.cart c := fun c => by unfold Body.cart; rw [hcarts]
  exact ⟨hcmds, fun c => by rw [hcart], fun c n _ => by rw [hcart], fun c _ => hcart c⟩

theorem OpticsKept.of_still {a b : Body} (h : b.still = a.still) : OpticsKept a b :=
  .of_eq (congrArg (fun k : Still => k.portage.portCmds) h) (congrArg Still.carts h)

theorem OpticsKept.refl (a : Body) : OpticsKept a a := .of_eq rfl rfl

theorem OpticsKept.trans {a b d : Body} (h : OpticsKept a b) (k : OpticsKept b d) : OpticsKept a d where
  cmds := k.cmds.trans h.cmds
  spare c := (k.spare c).trans (h.spare c)
  laser c n hn := (k.laser c n (by rw [h.laser c n hn]; exact hn)).trans (h.laser c n hn)
  empty c hc := (k.empty c ((h.spare c).trans hc)).trans (h.empty c hc)

/-- The matrix is as it was, and so is every port but `m` and those DISABLED, apart from accounts of cells. -/
structure PortsKept (m : Nat) (a b : Body) : Prop where
  portage : b.portage = a.portage
  port : ∀ l, l ≠ m → (a.lp l).state ≠ .disabled → (b.lp l).sansCells = (a.lp l).sansCells

theorem PortsKept.refl (m : Nat) (a : Body) : PortsKept m a a := ⟨rfl, fun _ _ _ => rfl⟩

theorem PortsKept.trans {m : Nat} {a b d : Body} (h : PortsKept m a b) (k : PortsKept m b d) : PortsKept m a d where
  portage := k.portage.trans h.portage
  port l hl hst := by
    have hab := h.port l hl hst
    have hstate : (b.lp l).state = (a.lp l).state := (congrArg LPort.state hab :)
    exact (k.port l hl (by rw [hstate]; exact hst)).trans hab

/-- What a fold's every step brings about, the fold does. -/
theorem foldl_rel {α β : Type} {R : β → β → Prop} (hrefl : ∀ b, R b b) (htrans : ∀ {a b d}, R a b → R b d → R a d)
    (f : β → α → β) (hstep : ∀ b a, R b (f b a)) (l : List α) (b : β) : R b (l.foldl f b) :=
  List.foldlRecOn l f (motive := R b) (hrefl b) fun _ h a _ => htrans h (hstep _ a)

/-- A DISABLED port of a wavelength is trained again once its own drain is over. -/
def Body.rejoin (w : Nat) (s : Body) (l : Nat) : Body :=
  if s.usesLambda l w ∧ (s.lp l).state = .disabled ∧ (s.lp l).drain = none then s.retrain l else s

theorem rejoin_keeps (w l m : Nat) : OpticsKept s (s.rejoin w l) ∧ PortsKept m s (s.rejoin w l) := by
  unfold Body.rejoin
  split
  · rename_i hdark
    refine ⟨.of_eq rfl rfl, rfl, fun k _ hk => ?_⟩
    have hne : k ≠ l := fun e => hk (e ▸ hdark.2.1)
    exact congrArg LPort.sansCells ((lp_setLp ..).trans (if_neg hne))
  · exact ⟨.refl s, .refl m s⟩

/-- One wavelength's part when a laser's planned switch settles (06 R155). -/
def Body.switchSpare (g : Nat) (ls : List Nat) (s : Body) (w : Nat) : Body :=
  let x := s.cart (g / 4)
  let busy := ls.any fun l => s.usesLambda l w && (s.lp l).drain == some .laser
  if mgetD x.lasers (4 * w + g % 4) .ok = .degraded ∧ mget x.spare w = some (g % 4) ∧ !busy then
    ls.foldl (Body.rejoin w)
      ((s.setCart (g / 4) { x with lasers := mset x.lasers (4 * w + g % 4) .spared }).emit 0x201 [put (g % 4) 6 + put w 4 + g / 4])
  else s

theorem laserSettle_eq (g : Nat) : s.laserSettle g
    = (List.range 4).foldl (Body.switchSpare g (((List.range 8).map fun q => 8 * g + q).flatMap s.lportsOf)) s := rfl

theorem cart_setCart (c d : Nat) (x : Cart) : (s.setCart c x).cart d = if d = c then x else s.cart d := by
  unfold Body.cart Body.setCart
  dsimp only
  split
  · subst_vars; exact mgetD_mset_same ..
  · exact mgetD_mset_other _ _ _ ‹_›

theorem cart_of_quiet {a b : Body} (h : a.quiet = b.quiet) (c : Nat) : a.cart c = b.cart c := by
  unfold Body.cart; rw [carts_of_quiet h]

@[simp] theorem cart_setCart_same (c : Nat) (x : Cart) : (s.setCart c x).cart c = x := by rw [cart_setCart, if_pos rfl]

theorem switchSpare_keeps (g : Nat) (ls : List Nat) (w m : Nat) : OpticsKept s (s.switchSpare g ls w) ∧ PortsKept m s (s.switchSpare g ls w) := by
  unfold Body.switchSpare
  extract_lets x busy
  split
  · rename_i hswitch
    obtain ⟨hdegraded, hspare, -⟩ := hswitch
    set b := (s.setCart (g / 4) { x with lasers := mset x.lasers (4 * w + g % 4) .spared }).emit 0x201 [put (g % 4) 6 + put w 4 + g / 4]
    have hportage : b.portage = s.portage := (portage_of_quiet (quiet_emit ..)).trans rfl
    have hlp : ∀ l, b.lp l = s.lp l := fun l => (lp_of_quiet (quiet_emit ..) l).trans rfl
    have hcart : ∀ c, b.cart c = if c = g / 4 then { x with lasers := mset x.lasers (4 * w + g % 4) .spared } else s.cart c := fun c =>
      (cart_of_quiet (quiet_emit ..) c).trans (cart_setCart ..)
    have hbegun : OpticsKept s b := by
      refine ⟨congrArg Portage.portCmds hportage, fun c => ?_, fun c n hn => ?_, fun c hc => ?_⟩
      · rw [hcart]
        split
        · subst_vars; rfl
        · rfl
      · rw [hcart]
        split
        · subst_vars
          exact mgetD_mset_other _ _ _ fun e => hn (e ▸ hdegraded)
        · rfl
      · rw [hcart, if_neg]
        rintro rfl
        rw [show x.spare = [] from hc] at hspare
        cases hspare
    have hports : PortsKept m s b := ⟨hportage, fun l _ _ => congrArg LPort.sansCells (hlp l)⟩
    exact ⟨hbegun.trans (foldl_rel OpticsKept.refl OpticsKept.trans _ (fun a l => (rejoin_keeps (s := a) w l m).1) ls b),
      hports.trans (foldl_rel (PortsKept.refl m) PortsKept.trans _ (fun a l => (rejoin_keeps (s := a) w l m).2) ls b)⟩
  · exact ⟨.refl s, .refl m s⟩

theorem opticsKept_laserSettle (g : Nat) : OpticsKept s (s.laserSettle g) := by
  rw [laserSettle_eq]
  exact foldl_rel OpticsKept.refl OpticsKept.trans _ (fun b w => (switchSpare_keeps (s := b) g _ w 0).1) _ s

theorem portsKept_laserSettle (g m : Nat) : PortsKept m s (s.laserSettle g) := by
  rw [laserSettle_eq]
  exact foldl_rel (PortsKept.refl m) PortsKept.trans _ (fun b w => (switchSpare_keeps (s := b) g _ w m).2) _ s

/-- A transition that begins its writes changes no cartridge and completes no PORT command. -/
theorem opticsKept_beginWrites (g : Nat) (t : Transition) : OpticsKept s (s.beginWrites g t) := by
  let v := fun b : Body => (b.portage.portCmds, b.carts)
  have hoptics : ∀ {a b : Body}, a.optics = b.optics → v a = v b := fun h =>
    congrArg (fun p : Portage × Map Cart => (p.1.portCmds, p.2)) h
  have hquiet : ∀ {a b : Body}, a.quiet = b.quiet → v a = v b := fun h => hoptics (optics_of_quiet h)
  have hend : ∀ (b : Body) u ok, v (b.endTrans g u ok) = v b := fun b u ok => by
    unfold Body.endTrans
    refine (hoptics (optics_reportGroup ..)).trans ((hoptics (optics_landPorts ..)).trans ?_)
    cases ok
    · rfl
    · exact (hquiet (quiet_emit ..)).trans rfl
  have hnext : ∀ (b : Body) u, v (b.nextWrite g u) = v b := fun b u => by
    unfold Body.nextWrite
    split
    · exact (hquiet (quiet_raiseWear ..)).trans rfl
    · exact hend ..
  have hbegun : v (s.beginWrites g t) = v s := by
    unfold Body.beginWrites
    refine (hnext ..).trans ?_
    refine (foldl_keeps v _ (fun b p => ?_) _ _).trans (foldl_keeps v _ (fun b p => ?_) _ _)
    · exact foldl_keeps v _ (fun a l => show v (a.modLp l _) = v a from rfl) _ _
    · rfl
  exact .of_eq (congrArg Prod.fst hbegun) (congrArg Prod.snd hbegun)

theorem opticsKept_tellTransition (l : Nat) : OpticsKept s (s.tellTransition l) := by
  have hset : ∀ t, OpticsKept s (s.setTrans (physOf l / 8) t) := fun _ => .of_eq rfl rfl
  unfold Body.tellTransition
  split
  · split
    · dsimp only
      split
      · exact (hset _).trans (opticsKept_beginWrites ..)
      · exact hset _
    · exact .refl s
  · exact .refl s

end Sys2Proof.Machine
end

section
/-! SUPPORT. Links that are lost one after another (06 R155, R156). -/
namespace Sys2Proof.Machine

variable {s : Body}

theorem opticsKept_concludeDrain {m : Nat} (hcmds : s.portage.portCmds = []) (timeout : Bool) : OpticsKept s (s.concludeDrain m timeout) := by
  cases hdrain : (s.lp m).drain with
  | none =>
    have hsame : s.concludeDrain m timeout = s := by
      unfold Body.concludeDrain
      simp only [hdrain]
    rw [hsame]
    exact .refl s
  | some c =>
    have hport : OpticsKept s (s.portDrained m c timeout) :=
      .of_eq (congrArg Portage.portCmds (portage_portDrained ..)) (carts_portDrained ..)
    have hall := (hport.trans (opticsKept_tellTransition m)).trans (opticsKept_laserSettle (physOf m / 8))
    rw [concludeDrain_of_some hdrain, portSettle_of_none (hall.cmds.trans hcmds)]
    exact hall

theorem opticsKept_loseLink {m : Nat} (st : PState) (hcmds : s.portage.portCmds = []) : OpticsKept s (s.loseLink m st) := by
  have hfail : OpticsKept s (s.failTo m st) := .of_still (still_failTo ..)
  unfold Body.loseLink Body.settleDrain
  split
  · exact hfail.trans (opticsKept_concludeDrain (hfail.cmds.trans hcmds) _)
  · exact hfail

/-- Where no command and no transition waits, a lost link leaves the matrix alone and every other port that is not DISABLED. -/
theorem portsKept_loseLink {m : Nat} (st : PState) (hcmds : s.portage.portCmds = []) (htrans : s.portage.trans = []) :
    PortsKept m s (s.loseLink m st) := by
  have hfail : PortsKept m s (s.failTo m st) := ⟨congrArg Still.portage (still_failTo ..), fun l hl _ => failTo_other st hl⟩
  unfold Body.loseLink Body.settleDrain
  split
  · rename_i hparted
    obtain ⟨hdrain, -⟩ := (Bool.and_eq_true _ _).mp hparted
    obtain ⟨c, hc⟩ := Option.isSome_iff_exists.mp hdrain
    have hdrained : PortsKept m (s.failTo m st) ((s.failTo m st).portDrained m c false) :=
      ⟨portage_portDrained .., fun l hl _ => portDrained_other c false hl⟩
    have hport := hfail.trans hdrained
    have hall := hport.trans (portsKept_laserSettle (physOf m / 8) m)
    rw [concludeDrain_of_some hc, tellTransition_of_none (by rw [hport.portage, htrans]; rfl),
      portSettle_of_none (by rw [hall.portage]; exact hcmds)]
    exact hall
  · exact hfail

theorem loseLink_same {l : Nat} (st : PState) (h : (s.lp l).drain = none) :
    ((s.loseLink l st).lp l).state = st ∧ ((s.loseLink l st).lp l).drain = none := by
  obtain ⟨hstate, hdrain⟩ := failTo_same (s := s) l st
  unfold Body.loseLink
  rw [settleDrain_of_none (hdrain.trans h)]
  exact ⟨hstate, hdrain.trans h⟩

/-- The links of a list lost in turn. -/
def Body.loseLinks (s : Body) (ls : List Nat) (st : PState) : Body := ls.foldl (fun s l => s.loseLink l st) s

theorem opticsKept_loseLinks (ls : List Nat) (st : PState) (hcmds : s.portage.portCmds = []) : OpticsKept s (s.loseLinks ls st) := by
  unfold Body.loseLinks
  induction ls generalizing s with
  | nil => exact .refl s
  | cons m ms ih =>
    have hone := opticsKept_loseLink (m := m) st hcmds
    exact hone.trans (ih (hone.cmds.trans hcmds))

/-- A port in UP and not draining that is among them ends in the dark state given; one already there stays. -/
theorem state_loseLinks {l : Nat} {st : PState} (hst : st ≠ .disabled) {ls : List Nat} (hcmds : s.portage.portCmds = [])
    (htrans : s.portage.trans = []) (hdrain : (s.lp l).drain = none) (hstate : (s.lp l).state = st ∨ (s.lp l).state = .up ∧ l ∈ ls) :
    ((s.loseLinks ls st).lp l).state = st := by
  unfold Body.loseLinks
  induction ls generalizing s with
  | nil => exact hstate.resolve_right fun h => List.not_mem_nil h.2
  | cons m ms ih =>
    have hkept := portsKept_loseLink (m := m) st hcmds htrans
    obtain ⟨hdrain1, hstate1⟩ : ((s.loseLink m st).lp l).drain = none
        ∧ (((s.loseLink m st).lp l).state = st ∨ ((s.loseLink m st).lp l).state = .up ∧ l ∈ ms) := by
      by_cases hm : l = m
      · subst hm
        obtain ⟨hdark, hnone⟩ := loseLink_same st hdrain
        exact ⟨hnone, .inl hdark⟩
      · have hport := hkept.port l hm (by rcases hstate with h | h <;> simp [h, hst])
        have hsame : ((s.loseLink m st).lp l).state = (s.lp l).state := (congrArg LPort.state hport :)
        rw [hsame]
        exact ⟨(congrArg LPort.drain hport : _).trans hdrain,
          hstate.imp_right fun h => ⟨h.1, (List.mem_cons.mp h.2).resolve_left hm⟩⟩
    exact ih (by rw [hkept.portage]; exact hcmds) (by rw [hkept.portage]; exact htrans) hdrain1 hstate1

end Sys2Proof.Machine
end

section
/-! SUPPORT. Lasers and cartridges (06 R155, R156): what each command is in each case. -/
namespace Sys2Proof.Machine

variable {s : Body} {c w k : Nat}

/-! ### Degraded lasers -/

@[simp] theorem carts_drainPort (l : Nat) (cause : DrainCause) : (s.drainPort l cause).carts = s.carts := by
  unfold Body.drainPort Body.startDrain
  dsimp only
  refine keeps_ite Body.carts (fun _ => keeps_ite Body.carts (fun _ => rfl) fun _ => keeps_ite Body.carts (fun _ => rfl) fun _ => ?_) fun _ => rfl
  exact congrArg Still.carts (still_reenterQueued ..)

/-- A laser that is already replaced by a reserve elsewhere in its wavelength is marked, and no more. -/
theorem laserDegraded_of_reserved (hst : (s.cart c).state = .atPower) (hok : mgetD (s.cart c).lasers (4 * w + k) .ok = .ok)
    (hspare : (mget (s.cart c).spare w).isSome) : s.laserDegraded c w k
      = (s.setCart c { s.cart c with lasers := mset (s.cart c).lasers (4 * w + k) .degraded }).emit 0x200 [laserWord c w k] := by
  unfold Body.laserDegraded
  simp only [hst, hok, hspare, bne_self_eq_false, Bool.or_self, Bool.false_eq_true, if_false, if_true]

/-- A degraded laser reserves its wavelength's free spare. -/
theorem spare_laserDegraded (hst : (s.cart c).state = .atPower) (hok : mgetD (s.cart c).lasers (4 * w + k) .ok = .ok)
    (hspare : mget (s.cart c).spare w = none) : ((s.laserDegraded c w k).cart c).spare = mset (s.cart c).spare w k := by
  unfold Body.laserDegraded
  simp only [hst, hok, hspare, bne_self_eq_false, Bool.or_self, Bool.false_eq_true, if_false, Option.isSome_none]
  rw [(opticsKept_laserSettle _).spare]
  unfold Body.cart
  rw [foldl_keeps Body.carts _ fun b l => carts_drainPort (s := b) l .laser]
  exact congrArg Cart.spare (cart_setCart_same ..)

/-! ### Failed lasers -/

/-- The wavelength's spare can stand in for the laser: it is free, or it is reserved for this very one. -/
def Cart.spareFor (x : Cart) (w k : Nat) : Prop := mget x.spare w = none ∨ (mget x.spare w = some k ∧ mgetD x.lasers (4 * w + k) .ok = .degraded)

theorem spareFor_iff (x : Cart) (w k : Nat) :
    ((mget x.spare w).isNone || (mget x.spare w == some k && mgetD x.lasers (4 * w + k) .ok == .degraded)) = true ↔ x.spareFor w k := by
  simp [Cart.spareFor]

/-- The body after the laser has been replaced by its spare. -/
def Body.spared (s : Body) (c w k : Nat) : Body :=
  (s.setCart c { s.cart c with lasers := mset (s.cart c).lasers (4 * w + k) .spared, spare := mset (s.cart c).spare w k }).emit 0x201
    [laserWord c w k]

/-- The body after the laser has been lost. -/
def Body.laserLost (s : Body) (c w k : Nat) : Body := s.setCart c { s.cart c with lasers := mset (s.cart c).lasers (4 * w + k) .lost }

section failed
variable (hst : (s.cart c).state = .atPower) (hlit : mgetD (s.cart c).lasers (4 * w + k) .ok ≠ .lost)
include hst hlit

theorem laserFailed_guard : ¬ ((s.cart c).state != .atPower || mgetD (s.cart c).lasers (4 * w + k) .ok == .lost) = true := by
  simp [hst, hlit]

theorem laserFailed_of_spare (h : (s.cart c).spareFor w k) : s.laserFailed c w k = (s.spared c w k).loseLinks
    ((laserPorts s c w k).filter fun l => ((s.spared c w k).lp l).state == .up || ((s.spared c w k).lp l).state == .draining) .failed :=
  (if_neg (laserFailed_guard hst hlit)).trans (if_pos ((spareFor_iff ..).mpr h))

theorem laserFailed_of_none (h : ¬ (s.cart c).spareFor w k) : s.laserFailed c w k
    = ((s.laserLost c w k).loseLinks (laserPorts s c w k) .noLightSource).emit 0x202 [laserWord c w k] :=
  (if_neg (laserFailed_guard hst hlit)).trans (if_neg fun e => h ((spareFor_iff ..).mp e))

end failed

theorem cart_spared (s : Body) (c w k : Nat) : (s.spared c w k).cart c
    = { s.cart c with lasers := mset (s.cart c).lasers (4 * w + k) .spared, spare := mset (s.cart c).spare w k } :=
  (cart_of_quiet (quiet_emit ..) c).trans (cart_setCart_same ..)

theorem portage_spared (s : Body) (c w k : Nat) : (s.spared c w k).portage = s.portage := (portage_of_quiet (quiet_emit ..)).trans rfl

theorem lp_spared (s : Body) (c w k l : Nat) : (s.spared c w k).lp l = s.lp l := (lp_of_quiet (quiet_emit ..) l).trans rfl

/-- What a laser's failure leaves: the laser's new state, its wavelength's spare, and the state of its ports that were in UP. -/
structure LaserEnds (s t : Body) (c w k : Nat) (laser : LaserState) (spare : Map Nat) (port : PState) : Prop where
  laser : mgetD (t.cart c).lasers (4 * w + k) .ok = laser
  spare : (t.cart c).spare = spare
  ports : ∀ l ∈ laserPorts s c w k, (s.lp l).state = .up → (s.lp l).drain = none → (t.lp l).state = port

section failed
variable (hst : (s.cart c).state = .atPower) (hlit : mgetD (s.cart c).lasers (4 * w + k) .ok ≠ .lost)
  (hcmds : s.portage.portCmds = []) (htrans : s.portage.trans = [])
include hst hlit hcmds htrans

theorem laserEnds_of_spare (h : (s.cart c).spareFor w k) :
    LaserEnds s (s.laserFailed c w k) c w k .spared (mset (s.cart c).spare w k) .failed := by
  have hcart := cart_spared s c w k
  have hcmds1 := (congrArg Portage.portCmds (portage_spared s c w k)).trans hcmds
  have htrans1 := (congrArg Portage.trans (portage_spared s c w k)).trans htrans
  have hlaser : mgetD ((s.spared c w k).cart c).lasers (4 * w + k) .ok = .spared := by rw [hcart]; exact mgetD_mset_same ..
  rw [laserFailed_of_spare hst hlit h]
  set hit := (laserPorts s c w k).filter fun l => ((s.spared c w k).lp l).state == .up || ((s.spared c w k).lp l).state == .draining
  have hkept := opticsKept_loseLinks hit .failed hcmds1
  refine ⟨(hkept.laser c _ (by rw [hlaser]; decide)).trans hlaser, (hkept.spare c).trans (by rw [hcart]), fun l hl hup hdrain => ?_⟩
  have hup1 : ((s.spared c w k).lp l).state = .up := by rw [lp_spared]; exact hup
  refine state_loseLinks (by decide) hcmds1 htrans1 (by rw [lp_spared]; exact hdrain) (.inr ⟨hup1, List.mem_filter.mpr ⟨hl, ?_⟩⟩)
  simp [hup1]

theorem laserEnds_of_none (h : ¬ (s.cart c).spareFor w k) :
    LaserEnds s (s.laserFailed c w k) c w k .lost (s.cart c).spare .noLightSource := by
  have hcart : (s.laserLost c w k).cart c = { s.cart c with lasers := mset (s.cart c).lasers (4 * w + k) .lost } := cart_setCart_same ..
  have hlaser : mgetD ((s.laserLost c w k).cart c).lasers (4 * w + k) .ok = .lost := by rw [hcart]; exact mgetD_mset_same ..
  have hkept := opticsKept_loseLinks (s := s.laserLost c w k) (laserPorts s c w k) .noLightSource hcmds
  rw [laserFailed_of_none hst hlit h]
  set dark := (s.laserLost c w k).loseLinks (laserPorts s c w k) .noLightSource with hdark
  have hreport : (dark.emit 0x202 [laserWord c w k]).cart c = dark.cart c := cart_of_quiet (quiet_emit ..) c
  refine ⟨?_, ?_, fun l hl hup hdrain => ?_⟩
  · rw [hreport]; exact (hkept.laser c _ (by rw [hlaser]; decide)).trans hlaser
  · rw [hreport]; exact (hkept.spare c).trans (by rw [hcart])
  · rw [lp_of_quiet (quiet_emit ..)]
    exact state_loseLinks (s := s.laserLost c w k) (by decide) hcmds htrans hdrain (.inr ⟨hup, hl⟩)

end failed

/-! ### Cartridges -/

theorem cart_cartRemoved (hcmds : s.portage.portCmds = []) :
    (s.cartRemoved c).cart c = { s.cart c with state := .absent, lasers := [], spare := [] } := by
  set x : Cart := { s.cart c with state := .absent, lasers := [], spare := [] } with hx
  have hgone : (s.setCart c x).cart c = x := cart_setCart_same ..
  have hlost : ∀ ls, (((s.setCart c x).loseLinks ls .noLightSource).emit 0x203 [put c 4 + 1]).cart c = x := fun ls => by
    have hkept := opticsKept_loseLinks (s := s.setCart c x) ls .noLightSource hcmds
    have hcart := hkept.empty c (by rw [hgone])
    rw [hgone] at hcart
    exact (cart_of_quiet (quiet_emit ..) c).trans hcart
  unfold Body.cartRemoved
  dsimp only
  split
  · exact hgone
  · exact hgone
  · exact hlost _

theorem cartInserted_of_out (h : (s.cart c).state = .absent ∨ (s.cart c).state = .prepared) :
    s.cartInserted c = s.setCart c { s.cart c with state := .inserted, lasers := [], spare := [] } := by
  refine if_neg ?_
  rcases h with h | h <;> simp [h]

/-- A dark port is trained again. -/
def Body.relight (s : Body) (l : Nat) : Body := if (s.lp l).state = .noLightSource ∨ (s.lp l).state = .disabled then s.retrain l else s

theorem cartAtPower_of_inserted (h : (s.cart c).state = .inserted) :
    s.cartAtPower c = (cartPorts s c).foldl Body.relight (s.setCart c { s.cart c with state := .atPower }) := by
  refine if_neg ?_
  simp [h]

theorem state_retrain {l : Nat} (h : s.mayTrain l = true) : ((s.retrain l).lp l).state = .training := by
  obtain ⟨hthrough, hconsistent⟩ : s.through (physOf l) = true ∧ s.portage.inconsistent.getLsbD (physOf l / 8) = false := by
    simp only [Body.mayTrain, Bool.and_eq_true, Bool.not_eq_true'] at h
    obtain ⟨⟨⟨⟨_, hthrough⟩, hconsistent⟩, _⟩, _⟩ := h
    exact ⟨hthrough, hconsistent⟩
  unfold Body.retrain
  rw [lp_modLp_same]
  simp [h, hthrough, hconsistent]

theorem relight_keeps (m : Nat) : (s.relight m).carts = s.carts ∧ (∀ l, (s.relight m).mayTrain l = s.mayTrain l)
    ∧ ∀ l, l ≠ m → (s.relight m).lp l = s.lp l := by
  unfold Body.relight
  split
  · exact ⟨rfl, fun _ => rfl, fun l hl => (lp_setLp ..).trans (if_neg hl)⟩
  · exact ⟨rfl, fun _ => rfl, fun _ _ => rfl⟩

/-- A port without a light source that may train does so when its turn comes, and goes on training. -/
theorem state_relit {l : Nat} {ls : List Nat} (hmay : s.mayTrain l = true)
    (hstate : (s.lp l).state = .training ∨ (s.lp l).state = .noLightSource ∧ l ∈ ls) : ((ls.foldl Body.relight s).lp l).state = .training := by
  induction ls generalizing s with
  | nil => exact hstate.resolve_right fun h => List.not_mem_nil h.2
  | cons m ms ih =>
    obtain ⟨-, hmays, hother⟩ := relight_keeps (s := s) m
    refine ih ((hmays l).trans hmay) ?_
    by_cases hm : l = m
    · subst hm
      rcases hstate with h | ⟨h, -⟩
      · left
        unfold Body.relight
        rw [if_neg (by simp [h])]
        exact h
      · left
        unfold Body.relight
        rw [if_pos (.inl h)]
        exact state_retrain hmay
    · rw [hother l hm]
      exact hstate.imp_right fun h => ⟨h.1, (List.mem_cons.mp h.2).resolve_left hm⟩

/-! ### EXPRESS_DWELL (10 R268) -/

theorem dwellOver_of_no_deferred {g : Nat} (h : s.portage.deferred.find? (fun x => x.1 == g) = none) :
    s.dwellOver g = { s with portage := { s.portage with dwell := s.portage.dwell.filter (· != g) } } := by
  unfold Body.dwellOver
  simp only [h]

end Sys2Proof.Machine
end

section
/-! SUPPORT. The optics change. -/
namespace Sys2Proof.Machine

variable {s : State} {cmd : Instr} {f : Body → Body}

/-- A command of a part that the variant has. -/
theorem becomes_of_part {p : Prop} [Decidable p] {absent : Ans} (hp : p) (hc : exec cmd s = if p then onBody s f else absent) :
    becomes cmd s (f s.toBody) := hc.trans (if_pos hp)

/-- One that needs links to run, where they do. -/
theorem becomes_of_lit_part {p : Prop} [Decidable p] {absent : Ans} (hp : p) (hlit : s.toBody.linksRun = true)
    (hc : exec cmd s = if p then onBody s fun b => if b.linksRun then f b else b else absent) : becomes cmd s (f s.toBody) :=
  becomes_of_body (hc.trans (if_pos hp)) (if_pos hlit)

/-- Settles O53: the lost links leave the laser, its spare and the other ports as `OpticsKept` and `PortsKept` say. -/
theorem opticsChange : Obligations.OpticsChange := by
  intro s c w k hc b x n
  refine ⟨fun hlit hpower => ⟨fun hok => ⟨fun hspare => ?reserved, fun hspare => ?reserves⟩, fun hlost hcmds htrans => ?failed⟩,
    fun hcmds => ?removed, fun hout => ?inserted, fun hlit hin => ?atPower, fun g hlit hg => ⟨fun hrestart => ?queued,
    fun hserves hfind => ?passes⟩⟩
  case reserved =>
    refine ⟨_, becomes_of_lit_part hc hlit (exec_laserDegraded s c w k), ?_, rfl, rfl⟩
    show (b.laserDegraded c w k).quiet = _
    rw [laserDegraded_of_reserved hpower hok hspare]
    exact quiet_emit ..
  case reserves => exact ⟨_, becomes_of_lit_part hc hlit (exec_laserDegraded s c w k), spare_laserDegraded hpower hok hspare⟩
  case failed =>
    intro spare
    refine ⟨_, becomes_of_lit_part hc hlit (exec_laserFailed s c w k), ?_⟩
    by_cases hfree : x.spareFor w k
    · obtain ⟨hlaser, hspare, hports⟩ := laserEnds_of_spare hpower hlost hcmds htrans hfree
      have hyes : spare = true := decide_eq_true hfree
      rw [hyes]
      exact ⟨hlaser, hspare, hports⟩
    · obtain ⟨hlaser, hspare, hports⟩ := laserEnds_of_none hpower hlost hcmds htrans hfree
      have hno : spare = false := decide_eq_false hfree
      rw [hno]
      exact ⟨hlaser, hspare, hports⟩
  case removed => exact ⟨_, becomes_of_part hc (exec_cartridgeRemoved s c), cart_cartRemoved hcmds⟩
  case inserted => exact cartInserted_of_out hout ▸ becomes_of_part hc (exec_cartridgeInserted s c)
  case atPower =>
    intro lit
    refine ⟨_, becomes_of_lit_part hc hlit (exec_cartridgeAtPower s c), ?_⟩
    show (b.cartAtPower c).cart c = _ ∧ ∀ l ∈ cartPorts b c, _ → _ → ((b.cartAtPower c).lp l).state = _
    rw [cartAtPower_of_inserted hin]
    refine ⟨?_, fun l hl hdark hmay => state_relit hmay (.inr ⟨hdark, hl⟩)⟩
    unfold Body.cart
    rw [foldl_keeps Body.carts _ fun a m => (relight_keeps (s := a) m).1]
    exact cart_setCart_same ..
  case queued => exact becomes_of_body (becomes_of_lit_part hg hlit (exec_expressDwellExpiry s g)) (if_pos hrestart)
  case passes =>
    have hends : b.dwellEnds g = b.dwellOver g := if_neg (by simp [b, hserves])
    exact hends.trans (dwellOver_of_no_deferred hfind) ▸ becomes_of_lit_part hg hlit (exec_expressDwellExpiry s g)

end Sys2Proof.Machine
end

section
/-! SUPPORT. Frames touch the buffer, the queues and the ports' accounts alone (03 R72-R93; 05 R126-R141): what a Sett sends, and what it
withdraws, leaves Setts, contexts, stages, tables and fabric memory as they were (`Body.sansFrames`). -/
namespace Sys2Proof.Machine

variable (s : Body)

/-- The body without its reports, its buffer, its queues and its ports. -/
def Body.sansFrames (s : Body) : Body := { s.quiet with fwc := {}, tms := {}, lports := [] }

theorem sansFrames_of_quiet {a b : Body} (h : a.quiet = b.quiet) : a.sansFrames = b.sansFrames := by unfold Body.sansFrames; rw [h]

theorem sansFrames_of_sansMarks {a b : Body} (h : a.sansMarks = b.sansMarks) : a.sansFrames = b.sansFrames := by
  show a.sansMarks.sansFrames = b.sansMarks.sansFrames; rw [h]

@[simp] theorem sansFrames_bump (c : Ctr) (i : Nat) : (s.bump c i).sansFrames = s.sansFrames := sansFrames_of_quiet (quiet_bump ..)

@[simp] theorem sansFrames_bumpBy (c : Ctr) (i n : Nat) : (s.bumpBy c i n).sansFrames = s.sansFrames := sansFrames_of_quiet (quiet_bumpBy ..)

section view
variable {a b : Body} (h : a.sansFrames = b.sansFrames)
include h

theorem setts_of_sansFrames : a.setts = b.setts := by
  show a.sansFrames.setts = b.sansFrames.setts; rw [h]

theorem coll_of_sansFrames : a.coll = b.coll := by
  show a.sansFrames.coll = b.sansFrames.coll; rw [h]

theorem isRoot_of_sansFrames (c : Ctx) : a.isRoot c = b.isRoot c := by
  show a.sansFrames.isRoot c = b.sansFrames.isRoot c; rw [h]

end view

/-! ### The buffer (03 R72-R79) -/

@[simp] theorem sansFrames_returnCells (f : BufFrame) (n : Nat) : (s.returnCells f n).sansFrames = s.sansFrames := by
  have huncredit : ∀ (b : Body) l c, (b.uncredit l c false n).sansFrames = b.sansFrames := fun b l c => by
    obtain ⟨u, off, o, h⟩ := uncredit_eq_setUncred b l c false n
    rw [h]; rfl
  unfold Body.returnCells
  cases f.origin with
  | own => rfl
  | alp => rfl
  | udp => exact huncredit ..
  | eth => exact huncredit ..

@[simp] theorem sansFrames_collect (fid : Nat) : (s.collect fid).sansFrames = s.sansFrames := by
  unfold Body.collect
  split
  · exact keeps_ite Body.sansFrames (fun _ => rfl) fun _ => rfl
  · rfl

@[simp] theorem sansFrames_releaseCopy (fid : Nat) : (s.releaseCopy fid).sansFrames = s.sansFrames := by
  unfold Body.releaseCopy
  split
  · rfl
  · exact keeps_ite Body.sansFrames (fun _ => (sansFrames_collect ..).trans (sansFrames_returnCells s _ _)) fun _ => rfl

@[simp] theorem sansFrames_doneHere (fid : Nat) : (s.doneHere fid).sansFrames = s.sansFrames := by
  unfold Body.doneHere
  split
  · rfl
  · exact keeps_ite Body.sansFrames (fun _ => (sansFrames_releaseCopy ..).trans rfl) fun _ => rfl

/-! ### The queues (05 R126-R141) -/

@[simp] theorem sansFrames_sweepStreams (die : Nat) : (s.sweepStreams die).sansFrames = s.sansFrames :=
  sansFrames_of_sansMarks (sansMarks_sweepStreams ..)

@[simp] theorem sansFrames_unqueueAll (out : QEntry → Bool) : (s.unqueueAll out).sansFrames = s.sansFrames := by
  unfold Body.unqueueAll
  dsimp only
  refine keeps_ite Body.sansFrames (fun _ => rfl) fun _ => ?_
  exact (foldl_keeps Body.sansFrames _ (fun b d => sansFrames_sweepStreams b d) _ _).trans rfl

@[simp] theorem sansFrames_toReserve (l : Nat) : (s.toReserve l).sansFrames = s.sansFrames := by
  unfold Body.toReserve
  refine foldl_keeps Body.sansFrames _ (fun b e => ?_) _ s
  split
  · exact keeps_ite Body.sansFrames (fun _ => (sansFrames_releaseCopy ..).trans rfl) fun _ => rfl
  · rfl

@[simp] theorem sansFrames_pushEntry (f : BufFrame) (cp : Copy) (l c key prof : Nat) :
    (s.pushEntry f cp l c key prof).sansFrames = s.sansFrames := rfl

@[simp] theorem sansFrames_markOcc (l c key : Nat) : (s.markOcc l c key).sansFrames = s.sansFrames := rfl

@[simp] theorem sansFrames_enqueue (f : BufFrame) (cp : Copy) (l : Nat) : (s.enqueue f cp l).sansFrames = s.sansFrames := by
  have hsweep := fun b : Body => keeps_ite (p := b.streamsOn (dieOf l) + 1024 ≤ 65536) (b := b.sweepStreams (dieOf l)) Body.sansFrames
    (fun _ => rfl) fun _ => sansFrames_sweepStreams b _
  have hmeter := fun (b : Body) c key prof bytes colour => sansFrames_of_sansMarks (sansMarks_meter b l c key prof bytes colour)
  have htake := sansFrames_of_sansMarks (sansMarks_takeStream s l (s.classOn l f) (s.streamOf f).1 (s.streamOf f).2)
  unfold Body.enqueue
  dsimp only
  refine keeps_ite Body.sansFrames (fun _ => ?_) fun _ => ?_
  · rw [sansFrames_sweepStreams, sansFrames_releaseCopy, sansFrames_bump, hmeter, htake]
  · refine keeps_ite Body.sansFrames (fun _ => (sansFrames_toReserve ..).trans ?_) fun _ => ?_
    all_goals rw [hsweep, sansFrames_markOcc, sansFrames_pushEntry, hmeter, htake]

@[simp] theorem sansFrames_takeIn (f : BufFrame) (cp : Copy) (l : Nat) : (s.takeIn f cp l).sansFrames = s.sansFrames := by
  unfold Body.takeIn
  refine keeps_ite Body.sansFrames (fun _ => rfl) fun _ => ?_
  dsimp only
  set avg := s.congAvg l (s.classOn l f) cp.colour.toNat
  have hjudge : (if profiled f then avg.2.congJudge f.die l (s.classOn l f) cp.colour.toNat (if avg.2.cutThrough f l then 0 else avg.1)
      else (.pass, avg.2)).2.sansFrames = s.sansFrames :=
    keeps_ite (fun p : CongAct × Body => p.2.sansFrames) (fun _ => sansFrames_of_sansMarks (sansMarks_congJudge avg.2 ..)) fun _ => rfl
  split
  · exact (sansFrames_enqueue ..).trans hjudge
  · have hcount := fun c i => (sansFrames_bump _ c i).trans hjudge
    exact keeps_ite Body.sansFrames (fun _ => (sansFrames_releaseCopy ..).trans (hcount ..)) fun _ =>
      (sansFrames_enqueue ..).trans (hcount ..)

@[simp] theorem sansFrames_takeCopy (f : BufFrame) (cp : Copy) (l : Nat) : (s.takeCopy f cp l).sansFrames = s.sansFrames := by
  unfold Body.takeCopy
  split
  · exact keeps_ite Body.sansFrames (fun _ => sansFrames_takeIn ..) fun _ => (sansFrames_releaseCopy ..).trans (sansFrames_bump ..)
  · exact sansFrames_takeIn ..

/-! ### Frames that the module originates (03 R73) -/

@[simp] theorem sansFrames_sendTargets (f : BufFrame) (ts : List (Option (Nat × W32))) : (s.sendTargets f ts).sansFrames = s.sansFrames := by
  unfold Body.sendTargets
  refine foldl_keeps Body.sansFrames _ (fun b t => ?_) _ s
  extract_lets cp
  split
  · exact (sansFrames_releaseCopy ..).trans (sansFrames_bump ..)
  · split
    · rfl
    · exact sansFrames_releaseCopy ..
  · rename_i e m _
    have hspray := sansFrames_of_sansMarks (sansMarks_spray b f.die e m)
    split
    next u h => rw [h] at hspray; exact (sansFrames_releaseCopy ..).trans hspray
    next k u h => rw [h] at hspray; exact (sansFrames_takeCopy ..).trans hspray

theorem sansFrames_takeOwn {die : Nat} {f g : BufFrame} {t : Body} (h : s.takeOwn die f = some (g, t)) : t.sansFrames = s.sansFrames := by
  unfold Body.takeOwn at h
  dsimp only at h
  split at h
  · obtain ⟨-, rfl⟩ := h; rfl
  · split at h
    · obtain ⟨-, rfl⟩ := h; rfl
    · cases h

@[simp] theorem sansFrames_holdOwn (k : Nat) (f : BufFrame) (ts : List (Option (Nat × W32))) (cells : Bool) :
    (s.holdOwn k f ts cells).sansFrames = s.sansFrames := by
  unfold Body.holdOwn
  exact keeps_ite Body.sansFrames (fun _ => (sansFrames_bump ..).trans rfl) fun _ => rfl

@[simp] theorem sansFrames_originate (die : Nat) (h : Hdr) (x : BitVec 128) (r : Rest) (ts : List (Option (Nat × W32))) :
    (s.originate die h x r ts).sansFrames = s.sansFrames := by
  unfold Body.originate
  extract_lets fid sett f fwc s1 k
  have hnumber : s1.sansFrames = s.sansFrames := rfl
  refine keeps_ite Body.sansFrames (fun _ => hnumber) fun _ => keeps_ite Body.sansFrames (fun _ => sansFrames_holdOwn ..) fun _ => ?_
  split
  · rename_i g t htake
    exact (sansFrames_sendTargets ..).trans ((sansFrames_takeOwn s1 htake).trans hnumber)
  · exact sansFrames_holdOwn ..

theorem sansFrames_retryOne (p : List Nat × Body) (w : OrigWait) : (Body.retryOne p w).2.sansFrames = p.2.sansFrames := by
  unfold Body.retryOne
  refine keeps_ite (fun p : List Nat × Body => p.2.sansFrames) (fun _ => rfl) fun _ => ?_
  dsimp only
  split
  · rename_i g t htake
    have hfrom : t.sansFrames = p.2.sansFrames := sansFrames_takeOwn p.2 htake
    show (Body.sendTargets _ g w.to_).sansFrames = _
    rw [sansFrames_sendTargets]
    exact hfrom
  · exact keeps_ite Body.sansFrames (fun _ => rfl) fun _ => (sansFrames_bump ..).trans rfl

@[simp] theorem sansFrames_retryAll : s.retryAll.sansFrames = s.sansFrames := by
  unfold Body.retryAll
  exact foldl_keeps (fun p : List Nat × Body => p.2.sansFrames) Body.retryOne sansFrames_retryOne s.fwc.origWait ([], s)

end Sys2Proof.Machine
end

section
/-! SUPPORT. What a stage's receivers are told (03 R85-R89; 08 R199, R428): results, verdicts, CONF and records are frames alone. -/
namespace Sys2Proof.Machine

variable (s : Body) (c : Ctx) (g : Group)

/-! ### Frames of a result (03 R85-R87) -/

@[simp] theorem sansFrames_sendOut (t : Stage) (f : OutFrame) (dst : W32) (ts : List (Option (Nat × W32))) (retx spec : Bool) (status : Nat) :
    (s.sendOut c t f dst ts retx spec status).sansFrames = s.sansFrames := sansFrames_originate ..

@[simp] theorem sansFrames_sendConf (t : Stage) (verdict : Nat) (dst : W32) (ts : List (Option (Nat × W32))) :
    (s.sendConf c t verdict dst ts).sansFrames = s.sansFrames := sansFrames_originate ..

@[simp] theorem sansFrames_replicaTargets (rs : List Repl) : (s.replicaTargets g rs).2.sansFrames = s.sansFrames := sansFrames_bumpBy ..

@[simp] theorem sansFrames_resultTargets (n : Nat) : (s.resultTargets c g n).2.sansFrames = s.sansFrames := by
  let v := fun p : List (Option (Nat × W32)) × Body => p.2.sansFrames
  have hone : ∀ r, v (if (g.member r).fenced then ([], s.bump .replFenced 0) else ([none], s)) = s.sansFrames := fun r =>
    keeps_ite v (fun _ => sansFrames_bump ..) fun _ => rfl
  unfold Body.resultTargets
  refine keeps_ite v (fun _ => rfl) fun _ => ?_
  dsimp only
  split
  · exact hone _
  · exact hone _
  · exact sansFrames_replicaTargets ..

@[simp] theorem sansFrames_sendResult (t : Stage) (f : OutFrame) : (s.sendResult c g t f).1.sansFrames = s.sansFrames :=
  (sansFrames_sendOut ..).trans (sansFrames_resultTargets ..)

@[simp] theorem sansFrames_sendPoison (t : Stage) : (s.sendPoison c g t).sansFrames = s.sansFrames :=
  (sansFrames_sendOut ..).trans (sansFrames_resultTargets ..)

@[simp] theorem sansFrames_sendRecord (kind : Nat) (words : List W64) : (s.sendRecord c g kind words).sansFrames = s.sansFrames := by
  unfold Body.sendRecord
  dsimp only
  exact keeps_ite Body.sansFrames (fun _ => sansFrames_originate ..) fun _ =>
    (sansFrames_originate ..).trans (sansFrames_replicaTargets ..)

/-! ### Verdicts (03 R85, R89) -/

theorem sansFrames_tellCopy (t : Stage) (verdict fid : Nat) (dst : W32) {ts : Body → List (Option (Nat × W32)) × Body}
    (h : ∀ b, (ts b).2.sansFrames = b.sansFrames) : (s.tellCopy c g t verdict fid dst ts).sansFrames = s.sansFrames := by
  unfold Body.tellCopy
  refine keeps_ite Body.sansFrames (fun _ => rfl) fun _ => ?_
  exact Eq.trans (b := ((ts s).2.sendConf c t verdict dst (ts s).1).sansFrames) rfl ((sansFrames_sendConf ..).trans (h s))

@[simp] theorem sansFrames_tellAskers (t : Stage) (verdict : Nat) : (s.tellAskers c g t verdict).1.sansFrames = s.sansFrames :=
  foldl_keeps Body.sansFrames _ (fun b _ => sansFrames_tellCopy b c g t verdict _ _ fun _ => rfl) _ s

@[simp] theorem sansFrames_tellVerdict (t : Stage) (verdict : Nat) : (s.tellVerdict c g t verdict).1.sansFrames = s.sansFrames := by
  unfold Body.tellVerdict
  refine keeps_ite (fun p : Body × Stage => p.1.sansFrames) (fun _ => rfl) fun _ => ?_
  exact (sansFrames_tellAskers ..).trans (sansFrames_tellCopy s c g t verdict _ _ fun b => sansFrames_resultTargets ..)

/-- A verdict told marks the stage as told and forgets who asked. -/
theorem tellVerdict_stage (t : Stage) (verdict : Nat) :
    ∃ told askers, (s.tellVerdict c g t verdict).2 = { t with confSent := told, askers } := by
  unfold Body.tellVerdict
  split
  · exact ⟨_, _, rfl⟩
  · exact ⟨_, _, rfl⟩

/-- Receivers of a result whose CLAST frame has not been handed on wait for that frame. -/
theorem tellVerdict_of_unsent {t : Stage} (h : t.clastSent = false) (verdict : Nat) : s.tellVerdict c g t verdict = (s, t) :=
  if_pos (by simp [h])

@[simp] theorem sansFrames_pullFrames (fids : List Nat) : (s.pullFrames fids).sansFrames = s.sansFrames := by
  unfold Body.pullFrames
  dsimp only
  refine (foldl_keeps Body.sansFrames _ (fun b e => ?_) _ _).trans ((sansFrames_unqueueAll ..).trans rfl)
  exact keeps_ite Body.sansFrames (fun _ => sansFrames_collect ..) fun _ => sansFrames_releaseCopy ..

@[simp] theorem sansFrames_disown (t : Stage) : (s.disown c g t).1.sansFrames = s.sansFrames := by
  let v := fun p : Body × Stage => p.1.sansFrames
  unfold Body.disown
  refine keeps_ite v (fun _ => rfl) fun _ => keeps_ite v (fun _ => sansFrames_tellVerdict ..) fun _ => ?_
  exact (sansFrames_tellAskers ..).trans ((sansFrames_sendPoison ..).trans (sansFrames_pullFrames ..))

/-! ### Work slots (13 R359) -/

@[simp] theorem sansFrames_settleTd (n : Nat) (ctr : Ctr) (k : Nat) : (s.settleTd n ctr k).sansFrames = s.sansFrames := by
  unfold Body.settleTd
  exact keeps_ite Body.sansFrames (fun _ => rfl) fun _ => Eq.trans rfl (sansFrames_bumpBy s ctr n k)

@[simp] theorem sansFrames_settleSlots (n : Nat) (t : Stage) (ctr : Ctr) : (s.settleSlots n t ctr).1.sansFrames = s.sansFrames :=
  sansFrames_settleTd ..

end Sys2Proof.Machine
end

section
/-! SUPPORT. States of Setts (12 Table 12-3): results, verdicts, confirmation, rebuilding and the close of a context put no Sett in
another state (`Body.settStates`). -/
namespace Sys2Proof.Machine

variable (s : Body)

/-- The state of each Sett. -/
def Body.settStates (s : Body) (n : Nat) : SettState := (s.sett n).state

theorem settStates_of_setts {a b : Body} (h : a.setts = b.setts) : a.settStates = b.settStates :=
  funext fun n => congrArg Sett.state (sett_of_setts h n)

theorem settStates_of_sansFrames {a b : Body} (h : a.sansFrames = b.sansFrames) : a.settStates = b.settStates :=
  settStates_of_setts (setts_of_sansFrames h)

theorem settStates_of_quiet {a b : Body} (h : a.quiet = b.quiet) : a.settStates = b.settStates := settStates_of_setts (setts_of_quiet h)

theorem settStates_modSett (n : Nat) {f : Sett → Sett} (h : ∀ x, (f x).state = x.state) :
    (s.modSett n f).settStates = s.settStates := funext fun m => by
  unfold Body.settStates
  rw [sett_modSett]
  split
  · subst_vars; exact h _
  · rfl

@[simp] theorem settStates_bump (c : Ctr) (i : Nat) : (s.bump c i).settStates = s.settStates := settStates_of_quiet (quiet_bump ..)

@[simp] theorem settStates_bumpBy (c : Ctr) (i n : Nat) : (s.bumpBy c i n).settStates = s.settStates := settStates_of_quiet (quiet_bumpBy ..)

@[simp] theorem settStates_emit (c : Nat) (p : List Nat) : (s.emit c p).settStates = s.settStates := settStates_of_quiet (quiet_emit ..)

@[simp] theorem settStates_putStage (t : Stage) : (s.putStage t).settStates = s.settStates := rfl

@[simp] theorem settStates_modCtx (k : CtxKey) (f : Ctx → Ctx) : (s.modCtx k f).settStates = s.settStates := rfl

/-! ### State of an UPDATE chunk (07 R189, R191; 09 R243, R244) -/

@[simp] theorem settStates_ownPut (die plane idx wid off : Nat) (words : List W64) (what : Option Sent) :
    (s.ownPut die plane idx wid off words what).settStates = s.settStates :=
  (settStates_of_sansFrames (sansFrames_originate ..)).trans rfl

@[simp] theorem settStates_sendGradients (die wid : Nat) (w : Window) (n : Nat) (gs : List W32) (what : Option Sent) :
    (s.sendGradients die wid w n gs what).settStates = s.settStates :=
  foldl_keeps Body.settStates _ (fun b _ => settStates_ownPut b ..) _ s

@[simp] theorem settStates_regionDone (wid n : Nat) (step : W64) : (s.regionDone wid n step).settStates = s.settStates := by
  unfold Body.regionDone
  split <;> rfl

@[simp] theorem settStates_commit (c : Ctx) (t : Stage) : (s.commit c t).1.settStates = s.settStates := by
  let v := fun p : Body × Stage => p.1.settStates
  unfold Body.commit
  extract_lets wid n step
  split
  · rfl
  · rename_i w _
    extract_lets pl st s1 die slot
    have hslot : ∀ b, (slot b).settStates = b.settStates := fun b =>
      keeps_ite Body.settStates (fun _ => rfl) fun _ => (settStates_ownPut ..).trans (settStates_modCtx b ..)
    have hwritten : s1.settStates = s.settStates := rfl
    refine keeps_ite v (fun _ => rfl) fun _ => keeps_ite v (fun _ => rfl) fun _ => keeps_ite v (fun _ => ?_) fun _ => ?_
    · exact (settStates_sendGradients ..).trans ((hslot s1).trans hwritten)
    · have hdone : (s1.regionDone wid n step).settStates = s.settStates := (settStates_regionDone ..).trans hwritten
      refine keeps_ite Body.settStates (fun _ => ?_) fun _ => hdone
      exact (settStates_ownPut ..).trans ((settStates_sendGradients ..).trans ((hslot _).trans hdone))

/-! ### Close (08 R206, R225) -/

@[simp] theorem settStates_dropStages (c : Ctx) : (s.dropStages c).settStates = s.settStates := by
  unfold Body.dropStages
  refine foldl_keeps Body.settStates _ (fun b t => ?_) _ s
  unfold Body.dropStage
  exact (settStates_of_sansFrames (sansFrames_settleTd ..)).trans
    (Eq.trans (b := (b.modSett _ fun x => { x with log := x.log - t.logged }).settStates) rfl (settStates_modSett b _ fun _ => rfl))

@[simp] theorem settStates_dropWaiting (c : Ctx) : (s.dropWaiting c).settStates = s.settStates :=
  foldl_keeps Body.settStates _ (fun b _ => settStates_of_sansFrames ((sansFrames_doneHere ..).trans (sansFrames_bump b ..))) _ s

@[simp] theorem settStates_releaseCtx (c : Ctx) : (s.releaseCtx c).settStates = s.settStates := by
  unfold Body.releaseCtx
  refine keeps_ite Body.settStates (fun _ => rfl) fun _ => ?_
  extract_lets s1 n s2
  have hfreed : s1.settStates = s.settStates := settStates_modSett s c.sett fun _ => rfl
  exact (settStates_modCtx ..).trans (keeps_ite Body.settStates (fun _ => hfreed) fun _ => hfreed)

@[simp] theorem settStates_modGroup (a : W32) (f : Group → Group) : (s.modGroup a f).settStates = s.settStates := by
  unfold Body.modGroup
  split
  · rfl
  · split <;> rfl

@[simp] theorem settStates_raiseOplow (a : W32) : (s.raiseOplow a).settStates = s.settStates := by
  unfold Body.raiseOplow
  split
  · rfl
  · exact Eq.trans rfl (settStates_modGroup s a _)

@[simp] theorem settStates_closeCtx (k : CtxKey) (status cause : Nat) : (s.closeCtx k status cause).settStates = s.settStates := by
  unfold Body.closeCtx
  split
  · rename_i c g _ _
    extract_lets ranks list s1 s2 s3 s4 coll s5
    have hrecord : s1.settStates = s.settStates :=
      keeps_ite Body.settStates (fun _ => settStates_of_sansFrames (sansFrames_sendRecord ..)) fun _ => rfl
    have hevent : s2.settStates = s.settStates :=
      keeps_ite Body.settStates (fun _ => hrecord) fun _ => (settStates_emit ..).trans hrecord
    have hfreed : s4.settStates = s.settStates :=
      (settStates_releaseCtx ..).trans ((settStates_dropWaiting ..).trans ((settStates_dropStages ..).trans hevent))
    have hgone : s5.settStates = s4.settStates := rfl
    exact (settStates_of_sansFrames (sansFrames_retryAll ..)).trans ((settStates_raiseOplow ..).trans (hgone.trans hfreed))
  · rfl

@[simp] theorem settStates_closeIfDone (k : CtxKey) : (s.closeIfDone k).settStates = s.settStates := by
  unfold Body.closeIfDone
  split
  · exact keeps_ite Body.settStates (fun _ => settStates_closeCtx ..) fun _ => rfl
  · rfl

/-! ### Confirmation (03 R85; 08 R206; 12 R308) -/

@[simp] theorem settStates_chunkBoundary (k : CtxKey) : (s.chunkBoundary k).settStates = s.settStates := by
  unfold Body.chunkBoundary
  split
  · rfl
  · rename_i c _
    refine keeps_ite Body.settStates (fun _ => rfl) fun _ => ?_
    extract_lets s1
    have hfreed : s1.settStates = s.settStates := settStates_modSett s c.sett fun _ => rfl
    exact keeps_ite Body.settStates (fun _ => hfreed) fun _ => hfreed

@[simp] theorem settStates_deliver (c : Ctx) (t : Stage) : (s.deliver c t).settStates = s.settStates := by
  unfold Body.deliver
  extract_lets sett
  have hcommit : (if c.ar.rop = ropUpdate then s.commit c t else (s, t)).1.settStates = s.settStates :=
    keeps_ite (fun p : Body × Stage => p.1.settStates) (fun _ => settStates_commit ..) fun _ => rfl
  generalize (if c.ar.rop = ropUpdate then s.commit c t else (s, t)) = p at hcommit ⊢
  dsimp only
  have hslots := (settStates_of_sansFrames (sansFrames_settleSlots p.1 sett p.2 .tdRetired)).trans hcommit
  refine keeps_ite Body.settStates (fun _ => ?_) fun _ => (settStates_closeIfDone ..).trans ((settStates_modCtx ..).trans ?_)
  all_goals exact (settStates_putStage ..).trans ((settStates_modSett _ sett (by intro; rfl)).trans hslots)

@[simp] theorem settStates_settleStage (k : StageKey) : (s.settleStage k).settStates = s.settStates := by
  unfold Body.settleStage
  split
  · rfl
  · rename_i t _
    split
    · rename_i c g _ _
      have htell := fun v => settStates_of_sansFrames (sansFrames_tellVerdict s c g t v)
      have hmoved : (if k.chunk = 0 then (s.tellVerdict c g t tGood).1.chunkBoundary c.key else (s.tellVerdict c g t tGood).1).settStates
          = s.settStates := keeps_ite Body.settStates (fun _ => (settStates_chunkBoundary ..).trans (htell _)) fun _ => htell _
      refine keeps_ite Body.settStates (fun _ => rfl) fun _ => keeps_ite Body.settStates (fun _ => htell _) fun _ => ?_
      refine keeps_ite Body.settStates (fun _ => (settStates_deliver ..).trans hmoved) fun _ => ?_
      exact (settStates_putStage ..).trans ((settStates_of_sansFrames (sansFrames_settleSlots ..)).trans hmoved)
    · rfl

/-! ### Poison and rebuilding (03 R89) -/

@[simp] theorem settStates_rebuild (c : Ctx) (g : Group) (t : Stage) (keep : Input → Bool) :
    (s.rebuild c g t keep).settStates = s.settStates := by
  have hdisown := (sansFrames_disown (s.settleSlots (s.settFor c) t .tdWasted).1 c g (s.settleSlots (s.settFor c) t .tdWasted).2).trans
    (sansFrames_settleSlots ..)
  unfold Body.rebuild
  exact (settStates_putStage ..).trans ((settStates_modSett _ _ (by intro; rfl)).trans (settStates_of_sansFrames hdisown))

@[simp] theorem settStates_poisonInput (c : Ctx) (g : Group) (k : StageKey) (bad : Input → Bool) :
    (s.poisonInput c g k bad).settStates = s.settStates := by
  unfold Body.poisonInput
  split
  · rfl
  · exact keeps_ite Body.settStates (fun _ => rfl) fun _ => keeps_ite Body.settStates (fun _ => settStates_rebuild ..) fun _ => rfl

@[simp] theorem settStates_poisonChunk (c : Ctx) (g : Group) (k : StageKey) : (s.poisonChunk c g k).settStates = s.settStates := by
  unfold Body.poisonChunk
  split
  · exact settStates_rebuild ..
  · rfl

/-! ### Arbitration (12 R310, R314; 13 R359) -/

@[simp] theorem settStates_releaseResult (c : Ctx) (g : Group) (t : Stage) : (s.releaseResult c g t).settStates = s.settStates := by
  let v := fun p : Body × Stage => p.1.settStates
  have htold : v (if t.clastSent then s.tellVerdict c g t tChkfail else s.disown c g t) = s.settStates :=
    keeps_ite v (fun _ => settStates_of_sansFrames (sansFrames_tellVerdict ..)) fun _ => settStates_of_sansFrames (sansFrames_disown ..)
  unfold Body.releaseResult
  dsimp only
  rw [settStates_settleStage, settStates_putStage]
  exact (foldl_keeps v _ (fun p f => settStates_of_sansFrames (sansFrames_sendResult p.1 c g p.2 f)) _ _).trans htold

@[simp] theorem settStates_arbEvent (k : StageKey) (sett verdict : Nat) : (s.arbEvent k sett verdict).settStates = s.settStates :=
  settStates_emit ..

@[simp] theorem settStates_freeArbiter (a : Nat) : (s.freeArbiter a).settStates = s.settStates := by
  unfold Body.freeArbiter
  exact keeps_ite Body.settStates (fun _ => rfl) fun _ => settStates_modSett s a fun _ => keeps_ite Sett.state (fun _ => rfl) fun _ => rfl

/-- A view that neither counters nor the load of a Sett can change sees nothing of a stage having been computed again. -/
theorem recomputed_keeps {γ : Type} (v : Body → γ) (hbump : ∀ b c i n, v (b.bumpBy c i n) = v b) (m : Nat)
    (hload : ∀ f : Sett → Sett, (∀ x, (f x).state = x.state) → v (s.modSett m f) = v s) (t : Stage) (c : Ctr) :
    v (s.recomputed m t c) = v s := by
  unfold Body.recomputed Body.countSlots
  extract_lets add all s1
  have hadd : ∀ c n b, v (add c n b) = v b := fun c n b => keeps_ite v (fun _ => rfl) fun _ => hbump ..
  refine keeps_ite v (fun _ => rfl) fun _ => ?_
  rw [hadd, hadd, hadd, hadd]
  exact hload _ fun _ => rfl

@[simp] theorem settStates_recomputed (m : Nat) (t : Stage) (c : Ctr) : (s.recomputed m t c).settStates = s.settStates :=
  recomputed_keeps s Body.settStates settStates_bumpBy m (fun _ h => settStates_modSett s m h) t c

end Sys2Proof.Machine
end

section
/-! SUPPORT. Quarantine (12 R311, R315, R316): whoever is called to help, a quarantined Sett stays so, and its number stands in MRAM. -/
namespace Sys2Proof.Machine

variable (s : Body)

/-! ### Helpers (12 R311) -/

@[simp] theorem settStates_returnSpare (n : Nat) : (s.returnSpare n).settStates = s.settStates := by
  unfold Body.returnSpare
  split
  · rfl
  · rename_i x _
    have hfree : (s.modSett x.2 fun y => { y with use := .none }).settStates = s.settStates := settStates_modSett s x.2 fun _ => rfl
    exact hfree

theorem settStates_withInteg (x : Integ) : ({ s with integ := x } : Body).settStates = s.settStates := rfl

theorem settStates_abortTest_other {n k : Nat} (h : n ≠ k) : (s.abortTest k).settStates n = s.settStates n := by
  unfold Body.abortTest
  rw [settStates_bump, settStates_returnSpare]
  exact congrArg Sett.state (sett_modSett_other s h _)

@[simp] theorem coll_abortTest (k : Nat) : (s.abortTest k).coll = s.coll := by
  unfold Body.abortTest Body.returnSpare
  rw [coll_of_sansFrames (sansFrames_bump ..)]
  split <;> rfl

/-- A helper is found as things stand, or is a SUBJECT whose test is abandoned. -/
theorem helper_cases (n : Nat) : (∃ h, s.helper n = (h, s))
    ∨ ∃ k, (s.sett k).state = .subject ∧ s.helper n = (some k, s.abortTest k) := by
  unfold Body.helper
  dsimp only
  split
  · exact .inl ⟨_, rfl⟩
  · split
    · rename_i k hfind
      have hsubject := List.find?_some hfind
      exact .inr ⟨k, by simp_all, rfl⟩
    · exact .inl ⟨_, rfl⟩

@[simp] theorem coll_helper (n : Nat) : (s.helper n).2.coll = s.coll := by
  obtain ⟨h, heq⟩ | ⟨k, -, heq⟩ := helper_cases s n <;> rw [heq]
  exact coll_abortTest ..

/-- Whom the Setts' states and loads name does not hang on stages. -/
theorem helper_putStage (t : Stage) (n : Nat) : ((s.putStage t).helper n).1 = (s.helper n).1 := by
  have hsett : (s.putStage t).sett = s.sett := rfl
  have hload : (s.putStage t).leastLoaded = s.leastLoaded := rfl
  unfold Body.helper
  simp only [hsett, hload]
  split
  · rfl
  · split <;> rfl

/-! ### A quarantined Sett stays so -/

@[simp] theorem settStates_callSpare (n : Nat) (use : SettUse) : (s.callSpare n use).settStates = s.settStates :=
  settStates_modSett s n fun _ => rfl

@[simp] theorem settStates_reselect : s.reselect.settStates = s.settStates := by
  unfold Body.reselect Body.fillSelection
  split
  · rfl
  · dsimp only; split <;> rfl

section kept
variable {s} {n : Nat} (h : s.settStates n = .quarantined)
include h

theorem quarantined_helper (m : Nat) : (s.helper m).2.settStates n = .quarantined := by
  obtain ⟨k, heq⟩ | ⟨k, hsubject, heq⟩ := helper_cases s m <;> rw [heq]
  · exact h
  · have hne : n ≠ k := by
      rintro rfl
      exact absurd (hsubject.symm.trans h) (by decide)
    exact (settStates_abortTest_other s hne).trans h

theorem quarantined_takePartner (m : Nat) : (s.takePartner m).settStates n = .quarantined := by
  have hhelper := quarantined_helper h m
  unfold Body.takePartner
  split
  next k b heq =>
    rw [heq] at hhelper
    refine Eq.trans (congrFun (keeps_ite Body.settStates (fun _ => settStates_callSpare ..) fun _ => ?_) n) hhelper
    exact settStates_modSett b k (by intro; rfl)
  next b heq => rw [heq] at hhelper; exact hhelper

theorem quarantined_openArb (c : Ctx) (g : Group) (k : StageKey) : (s.openArb c g k).settStates n = .quarantined := by
  have hhelper := quarantined_helper h (s.settFor c)
  unfold Body.openArb
  dsimp only
  split
  next a b heq =>
    rw [heq] at hhelper
    have hcalled : (if (b.sett a).state = SettState.spare then b.callSpare a .arbiter else b).settStates = b.settStates :=
      keeps_ite Body.settStates (fun _ => settStates_callSpare ..) fun _ => rfl
    split
    · rw [settStates_putStage, hcalled]; exact hhelper
    · rw [hcalled]; exact hhelper
  next b heq =>
    rw [heq] at hhelper
    refine Eq.trans (congrFun ?_ n) hhelper
    rw [settStates_withInteg]
    exact (settStates_poisonChunk ..).trans ((settStates_arbEvent ..).trans ((settStates_bump ..).trans (settStates_bump ..)))

theorem quarantined_leaveHelped (m : Nat) (was : SettUse) : (s.leaveHelped m was).settStates n = .quarantined := by
  unfold Body.leaveHelped
  dsimp only
  refine List.foldlRecOn (motive := fun b : Body => b.settStates n = .quarantined) _ _ ?_ fun b hb t _ => ?_
  · split
    · exact quarantined_takePartner h _
    · exact h
  · split
    · exact quarantined_openArb hb ..
    · exact hb

theorem quarantined_intoService {m : Nat} (hm : s.settStates m ≠ .quarantined) : (s.intoService m).settStates n = .quarantined := by
  have hne : n ≠ m := by
    rintro rfl
    exact hm h
  have hput : ∀ (b : Body) f, b.settStates n = .quarantined → (b.modSett m f).settStates n = .quarantined := fun b f hb =>
    (congrArg Sett.state (sett_modSett_other b hne f)).trans hb
  unfold Body.intoService Body.enterDuplicate
  dsimp only
  split
  · exact quarantined_takePartner (hput _ _ (hput _ _ h)) m
  · exact hput _ _ h

end kept

/-! ### Quarantine (12 R316) -/

theorem mget_map_snd {α : Type} (f : α → α) (m : Map α) (k : Nat) : mget (m.map fun x => (x.1, f x.2)) k = (mget m k).map f := by
  induction m with
  | nil => rfl
  | cons x t ih =>
    obtain ⟨i, v⟩ := x
    rw [List.map_cons, mget_cons, mget_cons, ih]
    split <;> rfl

/-- Setts that lose their use are in the state they were in. -/
theorem settStates_mapUse (p : Sett → Prop) [DecidablePred p] :
    ({ s with setts := s.setts.map fun (x : Nat × Sett) => (x.1, if p x.2 then { x.2 with use := .none } else x.2) } : Body).settStates
      = s.settStates := funext fun n => by
  unfold Body.settStates Body.sett mgetD
  rw [mget_map_snd fun x => if p x then { x with use := .none } else x]
  cases mget s.setts n with
  | none => rfl
  | some x => exact keeps_ite Sett.state (fun _ => rfl) fun _ => rfl

/-- Quarantine's first part: the stages placed on Sett n are built again, and their arbiters are free. -/
def Body.clearedOf (s : Body) (n : Nat) : Body :=
  let s1 := (s.stagesOn n).foldl (fun s p =>
    match s.group p.1.key.g, s.stage p.2.key with
    | some g, some t => if t.confirmed then s else s.rebuild p.1 g t fun _ => true
    | _, _ => s) s
  (s.stagesOn n).foldl (fun s p => match p.2.arb with | some a => s.freeArbiter a | none => s) s1

/-- Its second part: Sett n is out, and no other is its partner. -/
def Body.putAside (s : Body) (n : Nat) : Body :=
  let s := s.modSett n fun x => { x with state := .quarantined, use := .none, test := .none, energy := 0 }
  { s with setts := s.setts.map fun (x : Nat × Sett) => (x.1, if x.2.use = SettUse.partner n then { x.2 with use := .none } else x.2) }

/-- Who stands in for Sett n (12 R316). -/
def Body.heirOf (s : Body) (n : Nat) : Option Nat × Body :=
  match s.helper n with
  | (some h, s) => (some h, s)
  | (none, s) => (s.leastLoaded ((settsOf (n / 5)).filter fun k => k != n && (s.sett k).state == SettState.inService), s)

/-- Its third part: the stand-in takes over. -/
def Body.handOver (s : Body) (n : Nat) : Option Nat → Body
  | none => s
  | some h =>
    let s := s.modSett n fun x => { x with heir := some h }
    if (s.sett h).state = SettState.spare then (s.callSpare h (.standIn n)).intoService h else s

/-- Its last part: MRAM names Sett n. -/
def Body.listOut (s : Body) (n : Nat) : Body := { s with mram := { s.mram with quarantine := s.mram.quarantine ++ [n] } }

theorem quarantine_eq {n : Nat} (h : (s.sett n).state ≠ .quarantined) (cause : Nat) :
    s.quarantine n cause =
      (let t := (((s.clearedOf n).putAside n).leaveHelped n (s.sett n).use).heirOf n
       ((t.2.handOver n t.1).listOut n).reselect.emit 0x501 [put cause 8 + n]) := if_neg h

theorem quarantined_putAside (n : Nat) : (s.putAside n).settStates n = .quarantined := by
  unfold Body.putAside
  dsimp only
  rw [settStates_mapUse _ fun x => x.use = SettUse.partner n]
  exact congrArg Sett.state (sett_modSett_same ..)

theorem quarantined_heirOf {s : Body} {n : Nat} (h : s.settStates n = .quarantined) : (s.heirOf n).2.settStates n = .quarantined := by
  have hhelper := quarantined_helper h n
  unfold Body.heirOf
  split
  next k b heq => rw [heq] at hhelper; exact hhelper
  next b heq => rw [heq] at hhelper; exact hhelper

theorem quarantined_handOver {s : Body} {n : Nat} (h : s.settStates n = .quarantined) (heir : Option Nat) :
    (s.handOver n heir).settStates n = .quarantined := by
  unfold Body.handOver
  split
  · exact h
  next k =>
    extract_lets s1
    have hput : s1.settStates = s.settStates := settStates_modSett s n fun _ => rfl
    have hcalled := (settStates_callSpare s1 k (.standIn n)).trans hput
    split
    · rename_i hspare
      refine quarantined_intoService ((congrFun hcalled n).trans h) (m := k) ?_
      rw [settStates_callSpare]
      exact fun hk => absurd (hk.symm.trans hspare) (by decide)
    · exact (congrFun hput n).trans h

theorem mram_reselect : s.reselect.mram = s.mram := by
  unfold Body.reselect Body.fillSelection
  split
  · rfl
  · dsimp only; split <;> rfl

theorem quarantine_of_quiet {a b : Body} (h : a.quiet = b.quiet) : a.mram.quarantine = b.mram.quarantine := by
  show a.quiet.mram.quarantine = b.quiet.mram.quarantine; rw [h]

/-- Sett n is quarantined, and MRAM names it. -/
def Body.banned (s : Body) (n : Nat) : Prop := s.settStates n = .quarantined ∧ n ∈ s.mram.quarantine

/-- Quarantine, whatever its cause, bans a Sett that is not quarantined yet. -/
theorem banned_quarantine {n : Nat} (h : s.settStates n ≠ .quarantined) (cause : Nat) : (s.quarantine n cause).banned n := by
  have haside := quarantined_leaveHelped (quarantined_putAside (s.clearedOf n) n) n (s.sett n).use
  have hout := fun heir => quarantined_handOver (quarantined_heirOf haside) heir
  rw [quarantine_eq s h]
  unfold Body.banned
  dsimp only
  rw [settStates_emit, settStates_reselect, quarantine_of_quiet (quiet_emit ..), mram_reselect]
  exact ⟨hout _, List.mem_append_right _ List.mem_cons_self⟩

end Sys2Proof.Machine
end

section
/-! SUPPORT. Checks, arbitration and duplicate operation (07 R197; 12 R310-R316): what each verdict makes of a stage. -/
namespace Sys2Proof.Machine

variable {s : Body} {k : StageKey} {u : Stage} {c : Ctx} {g : Group}

/-! ### A stage with its context and its group -/

theorem stage_putStage (s : Body) {t : Stage} (h : t.key = k) : (s.putStage t).stage k = some t := by
  subst h
  have hfind : ∀ l, (stageIn t l).find? (fun u => u.key == t.key) = some t := fun l => by
    induction l with
    | nil => simp [stageIn]
    | cons u l ih =>
      by_cases hkey : u.key = t.key
      · simp [stageIn, hkey]
      · simp [stageIn, hkey, ih]
  exact hfind _

theorem stage_of_coll {a b : Body} (h : a.coll = b.coll) (k : StageKey) : a.stage k = b.stage k := by unfold Body.stage; rw [h]

/-- The module holds the stage, its context and its group. -/
structure StageOf (s : Body) (k : StageKey) (u : Stage) (c : Ctx) (g : Group) : Prop where
  stage : s.stage k = some u
  key : u.key = k
  ctx : s.ctx k.ctx = some c
  group : s.group k.ctx.g = some g

/-- Another stage put in its place. -/
theorem StageOf.putStage (h : StageOf s k u c g) {t : Stage} (ht : t.key = k) : StageOf (s.putStage t) k t c g :=
  ⟨stage_putStage s ht, ht, h.ctx, h.group⟩

/-- A stage computed again is still there, with its context and its group. -/
theorem StageOf.recomputed (h : StageOf s k u c g) (m : Nat) (t : Stage) (ctr : Ctr) : StageOf (s.recomputed m t ctr) k u c g := by
  let v := fun b : Body => (b.stage k, b.ctx k.ctx, b.group k.ctx.g)
  have hv : v (s.recomputed m t ctr) = v s := recomputed_keeps s v (fun b c i n => by
    have hquiet := quiet_bumpBy b c i n
    simp only [v, Body.stage, Body.ctx, Body.group, Body.groupIndex, coll_of_quiet hquiet, tables_of_quiet hquiet]) m (fun _ _ => rfl) t ctr
  obtain ⟨hstage, hctx, hgroup⟩ : _ ∧ _ ∧ _ := by simpa only [v, Prod.mk.injEq] using hv
  exact ⟨hstage.trans h.stage, h.key, hctx.trans h.ctx, hgroup.trans h.group⟩

theorem isRoot_recomputed (s : Body) (m : Nat) (t : Stage) (ctr : Ctr) (c : Ctx) : (s.recomputed m t ctr).isRoot c = s.isRoot c :=
  recomputed_keeps s (fun b => b.isRoot c) (fun b d i n => isRoot_of_sansFrames (sansFrames_bumpBy b d i n) c) m (fun _ _ => rfl) t ctr

/-! ### Confirmation (03 R85) -/

/-- Nothing is settled before the CLAST frame has been handed on. -/
theorem settleStage_of_unsent (h : StageOf s k u c g) (hunsent : u.clastSent = false) : s.settleStage k = s := by
  unfold Body.settleStage
  simp only [h.stage, h.ctx, h.group, hunsent]
  exact if_pos (by simp)

@[simp] theorem isRoot_chunkBoundary (s : Body) (x : CtxKey) (c : Ctx) : (s.chunkBoundary x).isRoot c = s.isRoot c := by
  unfold Body.chunkBoundary
  split
  · rfl
  · refine keeps_ite (fun b : Body => b.isRoot c) (fun _ => rfl) fun _ => ?_
    exact keeps_ite (fun b : Body => b.isRoot c) (fun _ => rfl) fun _ => rfl

/-- Below the root a GOOD stage whose inputs are confirmed is confirmed, its result as it was. -/
theorem settleStage_of_below (h : StageOf s k u c g) (hopen : u.confirmed = false) (hgood : u.verdict = .good) (hsent : u.clastSent = true)
    (hinputs : c.inputsConfirmed u = true) (hroot : s.isRoot c = false) :
    ∃ v, (s.settleStage k).stage k = some v ∧ v.verdict = .good ∧ v.confirmed = true ∧ v.out = u.out := by
  obtain ⟨told, askers, htold⟩ := tellVerdict_stage s c g u tGood
  have hbelow : (if k.chunk = 0 then (s.tellVerdict c g u tGood).1.chunkBoundary c.key else (s.tellVerdict c g u tGood).1).isRoot c = false := by
    have htell := (isRoot_of_sansFrames (sansFrames_tellVerdict s c g u tGood) c).trans hroot
    exact keeps_ite (fun b : Body => b.isRoot c) (fun _ => (isRoot_chunkBoundary ..).trans htell) fun _ => htell
  have hgoes : ¬ (u.confirmed || u.verdict == .pending || !s.inputsAllow c u || !u.clastSent) = true := by
    simp [hopen, hgood, hsent, Body.inputsAllow, hinputs]
  unfold Body.settleStage
  simp only [h.stage, h.ctx, h.group]
  rw [if_neg hgoes, if_neg (by simp [hgood]), if_neg (by simp [hbelow]), htold]
  exact ⟨_, stage_putStage _ h.key, hgood, rfl, rfl⟩

/-! ### ICK's verdict (07 R197; 12 R310) -/

/-- The checks of a stage may give their verdict: its data is complete and added, and no partner computes it too. -/
structure CheckDue (s : Body) (u : Stage) (c : Ctx) (g : Group) : Prop where
  pending : u.verdict = .pending
  complete : c.inputsDone g u = true
  added : c.allIn u = true
  begun : u.acc ≠ []
  alone : (s.sett (s.settFor c)).state ≠ .duplicate

theorem CheckDue.goes (h : CheckDue s u c g) :
    ¬ (u.verdict != .pending || !(c.inputsDone g u && c.allIn u && !u.acc.isEmpty) || (s.sett (s.settFor c)).state = .duplicate) = true := by
  simp [h.pending, h.complete, h.added, h.begun, h.alone]

/-- A failed check, whose result has not been handed on whole, opens an arbitration. -/
theorem verdict_of_fault (h : StageOf s k u c g) (hdue : CheckDue s u c g) (hunsent : u.clastSent = false) {bad : Bool}
    (hbad : bad = true ∨ c.accOk u = false ∨ (u.out.length = s.outFrames c k.chunk ∧ s.outsPass c u = false)) :
    s.verdict k bad = (s.putStage { u with verdict := .chkfail }).openArb c g k := by
  have hfails : (bad || !c.accOk u || (u.out.length == s.outFrames c k.chunk && !s.outsPass c u)) = true := by
    rcases hbad with hbad | hbad | ⟨hwhole, hbad⟩ <;> simp [*]
  have htold : ∀ p : Bool, (if p then s.tellVerdict c g { u with verdict := .chkfail } tChkfail else (s, { u with verdict := .chkfail }))
      = (s, { u with verdict := .chkfail }) := fun p => by
    split
    · exact tellVerdict_of_unsent s c g (t := { u with verdict := .chkfail }) hunsent _
    · rfl
  unfold Body.verdict
  simp only [h.stage, h.ctx, h.group]
  rw [if_neg hdue.goes, if_pos hfails, htold]

/-- A stage whose arbitration is opened is given to the helper that is found (12 R311). -/
theorem stage_openArb (h : StageOf s k u c g) {a : Nat} (ha : (s.helper (s.settFor c)).1 = some a) :
    (s.openArb c g k).stage k = some { u with arb := some a } := by
  have hcoll := coll_helper s (s.settFor c)
  unfold Body.openArb
  dsimp only
  split
  next a' b heq =>
    rw [heq] at ha hcoll
    obtain rfl : a' = a := Option.some.inj ha
    have hfound : b.stage k = some u := (stage_of_coll hcoll k).trans h.stage
    have hstage : (if (b.sett a').state = SettState.spare then b.callSpare a' .arbiter else b).stage k = some u :=
      keeps_ite (fun b : Body => b.stage k) (fun _ => hfound) fun _ => hfound
    rw [hstage]
    exact stage_putStage _ h.key
  next b heq => rw [heq] at ha; cases ha

/-- Checks that all pass make a whole result GOOD. -/
theorem verdict_of_pass (h : StageOf s k u c g) (hdue : CheckDue s u c g) (hunsent : u.clastSent = false)
    (hwhole : u.out.length = s.outFrames c k.chunk) (hacc : c.accOk u = true) (houts : s.outsPass c u = true) :
    s.verdict k false = s.putStage { u with verdict := .good } := by
  have hpasses : ¬ (false || !c.accOk u || (u.out.length == s.outFrames c k.chunk && !s.outsPass c u)) = true := by simp [hacc, houts]
  unfold Body.verdict
  simp only [h.stage, h.ctx, h.group]
  rw [if_neg hdue.goes, if_neg hpasses, if_pos (by simp [hwhole])]
  exact settleStage_of_unsent (h.putStage (t := { u with verdict := .good }) h.key) hunsent

/-! ### Arbitration (12 R312-R314, Table 12-2) -/

/-- What has put no Sett in another state leaves the quarantine to ban its Sett. -/
theorem banned_of_settStates {t : Body} {n : Nat} (h : t.settStates = s.settStates) (hn : (s.sett n).state ≠ .quarantined) (cause : Nat) :
    (t.quarantine n cause).banned n :=
  banned_quarantine t (fun ht => hn ((congrFun h n).symm.trans ht)) cause

/-- A result that differs is the original Sett's fault, whatever else the arbiter found. -/
theorem judge_of_differs (s : Body) (c : Ctx) (g : Group) (t : Stage) (a : Nat) (checkOk : Bool) (cause : Nat)
    (h : (s.sett (s.settFor c)).state ≠ .quarantined) : (s.judge c g t a true checkOk cause).banned (s.settFor c) := by
  unfold Body.judge
  extract_lets n k bad isBad s1 s2 s3 s4
  have hfree : s2.settStates = s.settStates :=
    (settStates_freeArbiter ..).trans ((settStates_recomputed ..).trans (settStates_putStage ..))
  have htold : ∀ c' v, ((s2.bump c' n).arbEvent k n v).settStates = s.settStates := fun c' v =>
    (settStates_arbEvent ..).trans ((settStates_bump ..).trans hfree)
  split
  · exact banned_of_settStates ((settStates_releaseResult ..).trans (htold ..)) h cause
  · split
    · exact banned_of_settStates ((settStates_poisonInput ..).trans (htold ..)) h cause
    · rw [if_pos rfl]
      have hban : s4.banned n := banned_of_settStates ((settStates_poisonChunk ..).trans (htold ..)) h cause
      clear_value s4
      exact hban

theorem arbitration_of_arbiter (h : StageOf s k u c g) {a : Nat} (ha : u.arb = some a) (differs checkOk : Bool) :
    s.arbitration k differs checkOk = s.judge c g u a differs checkOk 1 := by
  unfold Body.arbitration
  simp only [h.stage, h.ctx, h.group, ha]

/-! ### Duplicate operation (12 R315) -/

/-- The comparison of a DUPLICATE Sett's result with that of a partner. -/
theorem duplicate_of_partner (h : StageOf s k u c g) (hpending : u.verdict = .pending) (hstate : (s.sett (s.settFor c)).state = .duplicate)
    (hwhole : u.out.length = s.outFrames c k.chunk) {p : Nat} (hp : p < 20) (huse : (s.sett p).use = .partner (s.settFor c)) :
    ∃ q, ∀ checkOk,
      s.duplicate k false checkOk = ((s.recomputed q u .tdRetired).putStage { u with verdict := .good }).settleStage k
      ∧ s.duplicate k true checkOk =
        if checkOk then ((s.recomputed q u .tdRetired).releaseResult c g u).quarantine (s.settFor c) 2
        else s.judge c g u q true false 2 := by
  obtain ⟨q, hq⟩ : ∃ q, ((List.range 20).find? fun m => (s.sett m).use == .partner (s.settFor c)) = some q := by
    rw [← Option.isSome_iff_exists, List.find?_isSome]
    exact ⟨p, List.mem_range.mpr hp, beq_iff_eq.mpr huse⟩
  have hgoes : ¬ ((s.sett (s.settFor c)).state != .duplicate || u.verdict != .pending || u.out.length != s.outFrames c k.chunk) = true := by
    simp [hpending, hstate, hwhole]
  unfold Body.duplicate
  simp only [h.stage, h.ctx, h.group, if_neg hgoes, hq]
  exact ⟨q, fun _ => ⟨if_pos rfl, if_neg (by decide)⟩⟩

end Sys2Proof.Machine
end

section
/-! SUPPORT. Checks decide the result. -/
namespace Sys2Proof.Machine

variable {s : State}

theorem becomes_of_runs {cmd : Instr} {f : Body → Body} (hruns : s.toBody.dataRuns = true)
    (hc : exec cmd s = onBody s fun b => if b.dataRuns then f b else b) : becomes cmd s (f s.toBody) :=
  becomes_of_body hc (if_pos hruns)

/-- Settles O46: each verdict takes one branch of `Body.verdict`, `Body.judge` or `Body.duplicate`, and what it sends, confirms or
builds again puts no Sett in another state before the quarantine. -/
theorem checksDecideTheResult : Obligations.ChecksDecideTheResult := by
  intro s k u c g hruns b n hstage hkey hctx hgroup
  have hof : StageOf b k u c g := ⟨hstage, hkey, hctx, hgroup⟩
  refine ⟨fun hunsent hpending hdone hin hacc halone => ?checks, fun a ha hstate _ => ?arbiter,
    fun p ok hpending hstate hwhole _ hp huse => ?partner⟩
  case checks =>
    have hdue : CheckDue b u c g := ⟨hpending, hdone, hin, hacc, halone⟩
    refine ⟨fun a bad ha hbad => ⟨_, becomes_of_runs hruns (exec_checkVerdict s k bad), ?_⟩,
      fun hwhole hsums houts => ⟨_, becomes_of_runs hruns (exec_checkVerdict s k false), ?_⟩⟩
    · show (b.verdict k bad).stage k = _
      rw [verdict_of_fault hof hdue hunsent hbad]
      exact stage_openArb (hof.putStage (t := { u with verdict := .chkfail }) hkey) ((helper_putStage ..).trans ha)
    · show (b.verdict k false).stage k = _ ∧ (b.verdict k false).setts = _
      rw [verdict_of_pass hof hdue hunsent hwhole hsums houts]
      exact ⟨stage_putStage b hkey, rfl⟩
  case arbiter =>
    refine ⟨_, becomes_of_runs hruns (exec_arbitrationComplete s k true true), ?_⟩
    show (b.arbitration k true true).banned n
    rw [arbitration_of_arbiter hof ha]
    exact judge_of_differs b c g u a true 1 hstate
  case partner =>
    obtain ⟨q, hcompare⟩ := duplicate_of_partner hof hpending hstate hwhole hp huse
    have hagain := (hof.recomputed q u .tdRetired).putStage (t := { u with verdict := .good }) hkey
    have hnot : (b.sett n).state ≠ .quarantined := by rw [hstate]; decide
    refine ⟨fun hunsent => ⟨_, becomes_of_runs hruns (exec_duplicateCompare s k false ok), ?_⟩,
      fun hsent hopen hinputs hroot => ?_, ⟨_, becomes_of_runs hruns (exec_duplicateCompare s k true ok), ?_⟩⟩
    · show (b.duplicate k false ok).stage k = _ ∧ ∀ m, (b.duplicate k false ok).settStates m = b.settStates m
      rw [(hcompare ok).1, settleStage_of_unsent hagain hunsent, settStates_putStage, settStates_recomputed]
      exact ⟨hagain.stage, fun _ => rfl⟩
    · obtain ⟨v, hv⟩ := settleStage_of_below hagain hopen rfl hsent hinputs ((isRoot_recomputed ..).trans hroot)
      refine ⟨_, v, becomes_of_runs hruns (exec_duplicateCompare s k false ok), ?_⟩
      show (b.duplicate k false ok).stage k = _ ∧ _
      rw [(hcompare ok).1]
      exact hv
    · show (b.duplicate k true ok).banned n
      rw [(hcompare ok).2]
      split
      · exact banned_of_settStates ((settStates_releaseResult ..).trans (settStates_recomputed ..)) hnot 2
      · exact judge_of_differs b c g u q false 2 hnot

end Sys2Proof.Machine
end

section
/-! SUPPORT. Group descriptors (08 R201, Tables 8-3 to 8-5; 11 Table 11-5): where a group's descriptor stands, and what changes in it. -/
namespace Sys2Proof.Machine

variable {s : Body} {a : W32} {i : Nat} {g : Group}

/-! ### The descriptor of a group -/

/-- The module holds group `g` under address `a`, its descriptor at index `i`. -/
structure GroupAt (s : Body) (a : W32) (i : Nat) (g : Group) : Prop where
  index : s.groupIndex a = some i
  entry : mget s.coll.groups i = some g

theorem GroupAt.group (h : GroupAt s a i g) : s.group a = some g := by
  unfold Body.group
  rw [h.index]
  exact h.entry

theorem GroupAt.of_quiet {t : Body} (h : GroupAt s a i g) (hq : t.quiet = s.quiet) : GroupAt t a i g := by
  refine ⟨?_, by rw [coll_of_quiet hq]; exact h.entry⟩
  unfold Body.groupIndex
  rw [tables_of_quiet hq]
  exact h.index

/-- Another descriptor at a group's index. -/
def Body.putGroup (s : Body) (i : Nat) (g : Group) : Body := { s with coll := { s.coll with groups := mset s.coll.groups i g } }

theorem quiet_putGroup {t : Body} (h : t.quiet = s.quiet) (i : Nat) (g : Group) : (t.putGroup i g).quiet = (s.putGroup i g).quiet := by
  show t.quiet.putGroup i g = s.quiet.putGroup i g
  rw [h]

theorem modGroup_of_groupAt (h : GroupAt s a i g) (f : Group → Group) : s.modGroup a f = s.putGroup i (f g) := by
  unfold Body.modGroup
  rw [h.index]
  dsimp only
  rw [h.entry]
  rfl

/-! ### Refusals that need no host data (08 R201; 11 Table 11-8) -/

theorem pre_of_preStatus_eq_zero {sp : CmdSpec} {r : CmdRef} {d : Desc} (h : s.preStatus sp r d = 0) : sp.pre s r d = 0 := by
  unfold Body.preStatus at h
  split at h
  · cases h
  · exact h

/-- A command that a greater epoch admits (08 R201). -/
theorem epoch_lt_of_needEpoch {d : Desc} (hg : s.group (grpAddr d) = some g) (h : needEpoch s d = 0) :
    g.epoch.toNat < (grpEpoch d).toNat := by
  unfold needEpoch at h
  rw [hg] at h
  dsimp only at h
  split at h
  · cases h
  · split at h
    · cases h
    · exact Nat.lt_of_not_le ‹_›

theorem rank_lt_of_rankBad {d : Desc} {b : List Byte} (hg : s.group (grpAddr d) = some g) (h : rankBad s d b = false) {k : Nat}
    (hk : k ∈ rankRecs d b) : k < g.members.length := by
  unfold rankBad at h
  rw [hg] at h
  simpa using List.any_eq_false.mp h k hk

/-! ### Fences (08 R201, Table 8-4) -/

theorem mem_dedupNat {l : List Nat} {k : Nat} : k ∈ dedupNat l ↔ k ∈ l := by
  suffices h : ∀ acc : List Nat, k ∈ l.foldl (fun acc a => if acc.contains a then acc else acc ++ [a]) acc ↔ k ∈ acc ∨ k ∈ l from
    (h []).trans (by simp)
  induction l with
  | nil => simp
  | cons a l ih =>
    intro acc
    rw [List.foldl_cons, ih]
    split
    next ha =>
      have ha : a ∈ acc := by simpa using ha
      rw [List.mem_cons, ← or_assoc, or_iff_left_of_imp (a := k ∈ acc) (b := k = a) fun hk => hk ▸ ha]
    next => simp [or_assoc]

/-- One member's FENCED bit brought to `v`; FEPOCH is the epoch of its last change. -/
def Member.setFence (v : Bool) (epoch : W32) (m : Member) : Member := if m.fenced = v then m else { m with fenced := v, fepoch := epoch }

variable {v : Bool} {epoch : W32}

@[simp] theorem fenced_setFence (m : Member) : (m.setFence v epoch).fenced = v := by
  unfold Member.setFence
  split
  · assumption
  · rfl

theorem fepoch_setFence (m : Member) : (m.setFence v epoch).fepoch = if m.fenced = v then m.fepoch else epoch := by
  unfold Member.setFence
  split <;> rfl

@[simp] theorem setFence_setFence (m : Member) : (m.setFence v epoch).setFence v epoch = m.setFence v epoch := if_pos (fenced_setFence m)

/-- A rank's fence changes that member, if the group has it. -/
theorem fenceRank_eq_modify (l : List Member) (r : Nat) : fenceRank v epoch l r = l.modify r (Member.setFence v epoch) := by
  rw [List.modify_eq_set_getElem?]
  unfold fenceRank
  cases h : l[r]? with
  | none => rfl
  | some m =>
    obtain ⟨hlt, rfl⟩ := List.getElem?_eq_some_iff.mp h
    show (if _ then l else _) = l.set r (if _ then _ else _)
    split
    · exact (List.set_getElem_self hlt).symm
    · rfl

/-- Fencing or unfencing ranks changes those members alone, each once. -/
theorem getElem?_foldl_fenceRank (ranks : List Nat) (l : List Member) (k : Nat) :
    (ranks.foldl (fenceRank v epoch) l)[k]? = if k ∈ ranks then l[k]?.map (Member.setFence v epoch) else l[k]? := by
  induction ranks generalizing l with
  | nil => rfl
  | cons r ranks ih =>
    rw [List.foldl_cons, ih, fenceRank_eq_modify, List.getElem?_modify]
    by_cases hr : r = k
    · cases l[k]? <;> simp [hr]
    · simp [hr, Ne.symm hr]

theorem length_foldl_fenceRank (ranks : List Nat) (l : List Member) : (ranks.foldl (fenceRank v epoch) l).length = l.length := by
  refine foldl_keeps List.length _ (fun l r => ?_) ranks l
  rw [fenceRank_eq_modify, List.length_modify]

/-- LIVE of each POD entry counts its members that are not fenced (08 Table 8-4). -/
theorem live_of_mem_relive (g : Group) {e : Repl} (he : e ∈ g.relive.repl) (hpod : e.kind = 0) : e.live = g.relive.liveIn e.target := by
  obtain ⟨r, -, rfl⟩ := List.mem_map.mp he
  by_cases hr : r.kind = 0
  · rw [if_pos hr]; rfl
  · rw [if_neg hr] at hpod; exact absurd hpod hr

/-- The group after a FENCE or UNFENCE of ranks. -/
def Group.withFences (g : Group) (v : Bool) (epoch : W32) (ranks : List Nat) : Group :=
  ({ g with members := ranks.foldl (fenceRank v epoch) g.members, epoch } : Group).relive

/-- UNFENCE changes its group and, since the contexts keep what they wait for, nothing else. -/
theorem fenceRun_false {d : Desc} (h : s.group (grpAddr d) = some g) (r : CmdRef) (b : List Byte) :
    (fenceRun false s r d b).s = s.modGroup g.addr fun _ => g.withFences false (grpEpoch d) (dedupNat (rankRecs d b)) := by
  unfold fenceRun
  rw [h]
  rfl

theorem member_withFences {ranks : List Nat} {k : Nat} (hk : k < g.members.length) (hmem : k ∈ ranks) :
    (g.withFences v epoch ranks).member k = (g.member k).setFence v epoch := by
  have hlist : (g.withFences v epoch ranks).members[k]? = g.members[k]?.map (Member.setFence v epoch) :=
    (getElem?_foldl_fenceRank ranks g.members k).trans (if_pos hmem)
  unfold Group.member nth
  rw [hlist, List.getElem?_eq_getElem hk]
  rfl

/-- Settles O15: the command's own effect is one descriptor put in the place of another. -/
theorem groupUnfenceClearsFences : Obligations.GroupUnfenceClearsFences := by
  intro r data s d i g h hi hentry haddr
  have hat : GroupAt s.toBody (grpAddr d) i g := ⟨hi, hentry⟩
  have hrun := hat.of_quiet (quiet_atRun s.toBody (specFence 4 false) r d data)
  have hcheck := hat.of_quiet (quiet_putDesc s.toBody r (s.toBody.startDesc (specFence 4 false) r d))
  have hquiet := quiet_of_ready (u := 0) s.toBody h rfl fun d1 d2 hw _ => by simp [CmdSpec.need, specFence, memCount, Desc.f, hw]
  let ranks := rankRecs d (data.take (4 * memCount d))
  have hput : (hostCmd (specFence 4 false) s.toBody r data 0).quiet
      = (s.toBody.putGroup i (g.withFences false (grpEpoch d) (dedupNat ranks))).quiet := by
    refine hquiet.trans ((congrArg Body.quiet (fenceRun_false hrun.group r _)).trans ?_)
    rw [haddr, modGroup_of_groupAt hrun]
    exact quiet_putGroup (quiet_atRun ..) i _
  have hrank : ∀ k ∈ ranks, k < g.members.length := fun k hk => rank_lt_of_rankBad hcheck.group h.good1 hk
  have hfence : ∀ k ∈ ranks, (g.withFences false (grpEpoch d) (dedupNat ranks)).member k = (g.member k).setFence false (grpEpoch d) :=
    fun k hk => member_withFences (hrank k hk) (mem_dedupNat.mpr hk)
  refine ⟨_, g.withFences false (grpEpoch d) (dedupNat ranks), exec_groupUnfence s r data, hput,
    epoch_lt_of_needEpoch hrun.group (pre_of_preStatus_eq_zero h.pre), rfl, rfl, rfl, length_foldl_fenceRank _ _,
    fun k hk => ⟨?_, ?_⟩, fun e he => live_of_mem_relive _ he, fun k hk => ?_⟩
  · rw [hfence k hk, fenced_setFence]
  · rw [hfence k hk, fepoch_setFence]
    cases (g.member k).fenced <;> rfl
  · exact (getElem?_foldl_fenceRank ..).trans (if_neg fun hmem => hk (mem_dedupNat.mp hmem))

end Sys2Proof.Machine
end

section
/-! SUPPORT. Policy slots (08 R203; 11 Table 11-5): room for a slot, and what CTX POLICY writes. -/
namespace Sys2Proof.Machine

variable {s : Body} {g : Group} {d : Desc} {b : List Byte}

/-- Bytes that all policy slots point to: what a variant without fabric memory bounds (00 Table 0-3). -/
def Body.policyPool (s : Body) : Nat := s.coll.groups.foldl (fun a x => x.2.policies.foldl (fun a q => a + q.2.bytes) a) 0

/-- There is room for `n` more bytes of policy slots (08 Table 8-5). -/
def Body.policyFits (s : Body) (n : Nat) : Prop :=
  if s.variant.hasFmem then s.room 0 0 n false = .fits else s.policyPool + n ≤ 2097152

/-- Room for some bytes is room for fewer. -/
theorem room_fits_of_le (hmem : s.variant.hasFmem = true) {m n : Nat} (hle : m ≤ n) (h : s.room 0 0 n false = .fits) :
    s.room 0 0 m false = .fits := by
  unfold Body.room at h ⊢
  rw [if_pos hmem] at h ⊢
  dsimp only at h ⊢
  split at h
  · exact if_pos (by omega)
  · split at h <;> cases h

theorem policyFits_of_quiet {t : Body} (hq : t.quiet = s.quiet) {n : Nat} (h : s.policyFits n) : t.policyFits n := by
  show t.quiet.policyFits n
  rw [hq]
  exact h

/-- CTX POLICY with CLEAR removes the slot. -/
theorem polRun_of_clear (hg : s.group (grpAddr d) = some g) (hclear : polClear d = true) (r : CmdRef) :
    (polRun s r d b).s = s.modGroup g.addr fun x => { x with policies := mdel g.policies (polSlot d) } := by
  unfold polRun
  rw [hg]
  dsimp only
  rw [if_pos hclear]

/-- CTX POLICY without CLEAR writes the slot where its bytes fit; those of the slot's last policy are free with it. -/
theorem polRun_of_fits (hg : s.group (grpAddr d) = some g) (hclear : polClear d = false) (hfits : s.policyFits (polOf d b).bytes)
    (r : CmdRef) : (polRun s r d b).s = s.modGroup g.addr fun x => { x with policies := mset g.policies (polSlot d) (polOf d b) } := by
  unfold polRun
  rw [hg]
  dsimp only
  rw [if_neg (by simp [hclear])]
  unfold Body.policyFits at hfits
  refine congrArg HostRes.s (if_pos ?_)
  cases hmem : s.variant.hasFmem with
  | true =>
    rw [hmem, if_pos rfl] at hfits
    rw [if_pos rfl, room_fits_of_le hmem (Nat.sub_le ..) hfits]
    rfl
  | false =>
    rw [hmem, if_neg Bool.false_ne_true] at hfits
    unfold Body.policyPool at hfits
    rw [if_neg Bool.false_ne_true, Nat.ble_eq]
    omega

/-- Settles O16: the slot is removed, or written where it fits, in the descriptor of the named group alone. -/
theorem ctxPolicyWritesItsSlot : Obligations.CtxPolicyWritesItsSlot := by
  intro r data s d i g h hi hentry haddr new hroom
  have hat : GroupAt s.toBody (grpAddr d) i g := ⟨hi, hentry⟩
  have hstart := quiet_atRun s.toBody specPolicySlot r d data
  have hrun := hat.of_quiet hstart
  have hquiet := quiet_of_ready (u := 0) s.toBody h rfl fun d1 d2 hw h0 => by
    simp [CmdSpec.need, specPolicySlot, polNeed, polClear, Desc.f, Desc.word, hw, h0]
  have hput : ∀ m, ((s.toBody.atRun specPolicySlot r d data).modGroup g.addr fun x => { x with policies := m }).quiet
      = (s.toBody.putGroup i { g with policies := m }).quiet := fun m =>
    (congrArg Body.quiet (modGroup_of_groupAt (haddr ▸ hrun) _)).trans (quiet_putGroup hstart i _)
  let e := s.toBody.runDesc specPolicySlot r d data
  have hgroup : (s.toBody.atRun specPolicySlot r d data).group (grpAddr e) = some g := hrun.group
  have hclearOf : polClear e = polClear d := rfl
  refine ⟨_, exec_ctxPolicySlot s r data, hquiet.trans ?_⟩
  show (polRun _ r e e.buf).s.quiet
    = (s.toBody.putGroup i { g with policies := if polClear d then mdel g.policies (polSlot d) else mset g.policies (polSlot d) new }).quiet
  cases hclear : polClear d with
  | true =>
    rw [polRun_of_clear hgroup (hclearOf.trans hclear), if_pos rfl]
    exact hput _
  | false =>
    have hfits : s.toBody.policyFits (polOf e e.buf).bytes := by
      unfold Body.policyFits
      rcases hroom with hc | ⟨hmem, hfit⟩ | ⟨hmem, hfit⟩
      · rw [hclear] at hc; cases hc
      · rw [if_pos (by exact hmem)]; exact hfit
      · rw [if_neg (by exact Bool.eq_false_iff.mp hmem)]; exact hfit
    rw [polRun_of_fits hgroup (hclearOf.trans hclear) (policyFits_of_quiet hstart hfits), if_neg Bool.false_ne_true]
    exact hput _

end Sys2Proof.Machine
end

section
/-! SUPPORT. Counts that rise (13 R357, R358): a sample, and what frees a frame's cells, count nothing else. -/
namespace Sys2Proof.Machine

variable (s : Body)

/-- Taking a sample counts at most that one was dropped. -/
theorem count_sampleNow {c : Ctr} (hc : c ≠ .sampleDrop) (u id v i : Nat) : (s.sampleNow u id v).count c i = s.count c i := by
  unfold Body.sampleNow
  extract_lets skip w
  refine keeps_ite (fun b : Body => b.count c i) (fun _ => countIn_bumpIn_other _ hc.symm ..) fun _ => ?_
  exact congrArg (countIn · c i) (counters_emit ..)

theorem count_sample {c : Ctr} (hc : c ≠ .sampleDrop) (d : Ctr) (j old new i : Nat) : (s.sample d j old new).count c i = s.count c i := by
  unfold Body.sample
  refine foldl_keeps (fun b : Body => b.count c i) _ (fun b w => ?_) _ s
  exact keeps_ite (fun b : Body => b.count c i) (fun _ => rfl) fun _ =>
    keeps_ite (fun b : Body => b.count c i) (fun _ => count_sampleNow b hc ..) fun _ => rfl

/-- A counter's count rises by one, sampled or not. -/
theorem count_bump_self (c : Ctr) (i : Nat) : (s.bump c i).count c i = (s.count c i + 1) % 2 ^ 64 := by
  cases hc : c.perSett with
  | false => exact count_bump hc i
  | true =>
    have hne : c ≠ .sampleDrop := by rintro rfl; cases hc
    unfold Body.bump Body.bumpBy
    rw [if_pos hc]
    exact (count_sample _ hne ..).trans (countIn_bumpIn ..)

@[simp] theorem counters_returnCells (f : BufFrame) (n : Nat) : (s.returnCells f n).counters = s.counters := by
  have huncredit : ∀ (b : Body) l c, (b.uncredit l c false n).counters = b.counters := fun b l c => by
    obtain ⟨u, off, o, h⟩ := uncredit_eq_setUncred b l c false n
    rw [h]; rfl
  unfold Body.returnCells
  cases f.origin with
  | own => rfl
  | alp => rfl
  | udp => exact huncredit ..
  | eth => exact huncredit ..

@[simp] theorem counters_collect (fid : Nat) : (s.collect fid).counters = s.counters := by
  unfold Body.collect
  split
  · exact keeps_ite Body.counters (fun _ => rfl) fun _ => rfl
  · rfl

@[simp] theorem counters_releaseCopy (fid : Nat) : (s.releaseCopy fid).counters = s.counters := by
  unfold Body.releaseCopy
  split
  · rfl
  · exact keeps_ite Body.counters (fun _ => (counters_collect ..).trans (counters_returnCells s _ _)) fun _ => rfl

@[simp] theorem counters_doneHere (fid : Nat) : (s.doneHere fid).counters = s.counters := by
  unfold Body.doneHere
  split
  · rfl
  · exact keeps_ite Body.counters (fun _ => (counters_releaseCopy ..).trans rfl) fun _ => rfl

end Sys2Proof.Machine
end

section
/-! SUPPORT. An RPUT on its way to its stage (08 R203, R207, R216; 02 R50; 12 R308, R319). -/
namespace Sys2Proof.Machine

variable {s : Body} {fid : Nat} {k : CtxKey} {f : BufFrame} {r : Rest} {g : Group} {c : Ctx}

/-! ### Arrival (08 R203, R207) -/

/-- Where no member is SUSPECT the failure detector has nothing to clear (12 R319). -/
theorem heard_of_none_suspect {a : W32} (hg : s.group a = some g) (h : ∀ m ∈ g.members, m.suspect = false) (src : W32) :
    s.heard a src = s := by
  unfold Body.heard
  rw [hg]
  refine List.foldlRecOn (motive := (· = s)) _ _ rfl fun b hb m hm => ?_
  rw [h _ (List.fst_mem_of_mem_zipIdx hm), if_neg (by simp)]
  exact hb

/-- A whole RPUT of a group, no record, waits in the buffer for its context, and no member of the group is SUSPECT. -/
structure Contribution (s : Body) (fid : Nat) (k : CtxKey) (f : BufFrame) (r : Rest) (g : Group) : Prop extends ForSett s fid k f r where
  rput : f.hdr.opc.toNat = 5
  data : rxChunk f.ext ≠ recordChunk
  group : s.group k.g = some g
  trusted : ∀ m ∈ g.members, m.suspect = false

section arrival
variable (h : Contribution s fid k f r g)
include h

/-- One whose context waits for its reservation waits with it, once. -/
theorem rput_of_admitting (hctx : s.ctx k = some c) (hst : c.st = .admitting) (hnew : fid ∉ c.waiting) :
    s.rput fid = s.putCtx { c with waiting := c.waiting ++ [fid] } := by
  unfold Body.rput
  simp [h.found, h.here, h.rest, h.rput, opRput, h.data, h.group, heard_of_none_suspect h.group h.trusted, hctx, hst, hnew]

/-- One that may open no context is counted and dropped. -/
theorem rput_of_openFails (hctx : s.ctx k = none) {ctr : Ctr} (hfails : s.openFails g k (rxEpoch f.ext) = some ctr) :
    s.rput fid = (s.bump ctr 0).doneHere fid := by
  unfold Body.rput
  simp [h.found, h.here, h.rest, h.rput, opRput, h.data, h.group, heard_of_none_suspect h.group h.trusted, hctx, hfails]

/-- One whose context's descriptor is valid goes to its Sett. -/
theorem rput_of_valid (hctx : s.ctx k = some c) (hst : c.st ≠ .admitting) : s.rput fid = s.acceptRput k fid := by
  unfold Body.rput
  simp [h.found, h.here, h.rest, h.rput, opRput, h.data, h.group, heard_of_none_suspect h.group h.trusted, hctx, hst]

/-! ### The checks of an open context (08 R213-R220; 12 R308) -/

/-- A Sett that takes no RPUT leaves it where it waits. -/
theorem acceptRput_of_blocked (hctx : s.ctx k = some c) (hblocked : s.settBlocked (s.settFor c) = true) : s.acceptRput k fid = s := by
  unfold Body.acceptRput
  simp [hctx, h.group, h.found, h.rest, hblocked]

/-- One that fails a check is counted and dropped. -/
theorem acceptRput_of_formBars (hctx : s.ctx k = some c) (hfree : s.settBlocked (s.settFor c) = false) {ctr : Ctr}
    (hbars : c.formBars g f.hdr f.ext = some ctr) : s.acceptRput k fid = (s.bump ctr (s.settFor c)).doneHere fid := by
  unfold Body.acceptRput
  simp [hctx, h.group, h.found, h.rest, hfree, hbars]

/-- One of a running context that passes every check, its chunk's result not made yet, is judged by the bitmap. -/
theorem acceptRput_of_running (hctx : s.ctx k = some c) (hst : c.st = .running) (hfree : s.settBlocked (s.settFor c) = false)
    (hform : c.formBars g f.hdr f.ext = none) (hbars : s.rputBars c g f.ext = none) (hresult : s.holdsResult c (rxChunk f.ext) = false)
    (hearly : s.heldEarly c (rxChunk f.ext) = none) (hcrc : Rest.crcGood r f.hdr f.ext = true) (hstatus : r.status = 0 ∨ r.status = 3) :
    s.acceptRput k fid = (s.bitmap c g f.hdr f.ext r true).doneHere fid := by
  have hgood : (Rest.crcGood r f.hdr f.ext && r.status.toNat != tPoison && r.status.toNat != tChkfail && r.status.toNat ≤ 3) = true := by
    rcases hstatus with hs | hs <;> simp [hcrc, hs, tPoison, tChkfail]
  unfold Body.acceptRput
  simp [hctx, h.group, h.found, h.rest, hfree, hst, hform, hbars, hresult, hearly, hgood]

end arrival

end Sys2Proof.Machine
end

section
/-! SUPPORT. The first frame of an input in its chunk's stage (08 R216; 02 R50; 03 R84). -/
namespace Sys2Proof.Machine

variable {s : Body}

/-! ### The input (08 R216; 02 R50) -/

/-- An input as its first frame leaves it. -/
def Input.first (i : InIdx) (src : W32) (clast : Bool) (f : InFrame) : Input :=
  ({ idx := i, src, frames := [f], last := if clast then some f.k else none } : Input).refresh

@[simp] theorem complete_refresh (x : Input) : x.refresh.complete = x.isComplete := rfl

@[simp] theorem confirmed_refresh (x : Input) : x.refresh.confirmed =
    (x.confirmed || (x.isComplete && (x.clastStatus == some tGood || (x.clastStatus == some tLate && x.confGood)))) := rfl

variable {i : InIdx} {src : W32} {clast : Bool} {y : InFrame}

/-- One frame completes its input when it is the CLAST frame at position 0. -/
theorem complete_first : (Input.first i src clast y).complete = true ↔ clast = true ∧ y.k = 0 := by
  unfold Input.first
  rw [complete_refresh]
  unfold Input.isComplete
  cases clast with
  | false => simp
  | true =>
    simp only [if_true, List.all_eq_true, List.mem_range, List.any_cons, List.any_nil, Bool.or_false, beq_iff_eq, true_and]
    exact ⟨fun hall => hall 0 (Nat.succ_pos _), fun h j hj => by omega⟩

/-- A complete input is confirmed at once where its CLAST frame came good, and awaits its CONF otherwise. -/
theorem confirmed_first (h : (Input.first i src clast y).complete = true) :
    (Input.first i src clast y).confirmed = true ↔ y.status = tGood := by
  obtain ⟨rfl, -⟩ := complete_first.mp h
  unfold Input.first at h ⊢
  rw [complete_refresh] at h
  rw [confirmed_refresh, h]
  simp [Input.clastStatus]

/-! ### The stage (03 R84; 08 R216) -/

theorem mem_setInput_of_new {t : Stage} {x : Input} (h : ∀ z ∈ t.inputs, z.idx ≠ x.idx) : x ∈ (t.setInput x).inputs := by
  have hnone : t.inputs.any (fun z => z.idx == x.idx && z.alias_ == x.alias_) = false :=
    List.any_eq_false.mpr fun z hz => by simp [h z hz]
  unfold Stage.setInput
  simp [hnone]

/-- The order of completion is noted in the stage alone. -/
theorem stage_markDone {c : Ctx} {g : Group} {k : StageKey} {t : Stage} (hstage : s.stage k = some t) (hkey : t.key = k) :
    ∃ doneSeq, (s.markDone c g k).stage k = some { t with doneSeq } := by
  unfold Body.markDone
  rw [hstage]
  dsimp only
  split
  · exact ⟨_, stage_putStage _ hkey⟩
  · exact ⟨_, hstage⟩

@[simp] theorem setts_markDone (s : Body) (c : Ctx) (g : Group) (k : StageKey) : (s.markDone c g k).setts = s.setts := by
  unfold Body.markDone
  split
  · exact keeps_ite Body.setts (fun _ => rfl) fun _ => rfl
  · rfl

/-- Nothing is settled before the check's verdict. -/
theorem settleStage_of_pending {k : StageKey} {t : Stage} (hstage : s.stage k = some t) (hpending : t.verdict = .pending) :
    s.settleStage k = s := by
  unfold Body.settleStage
  rw [hstage]
  dsimp only
  split
  · exact if_pos (by simp [hpending])
  · rfl

@[simp] theorem sansFrames_ackFrame (s : Body) (die : Nat) (h : Hdr) : (s.ackFrame die h).sansFrames = s.sansFrames := by
  unfold Body.ackFrame
  exact keeps_ite Body.sansFrames (fun _ => sansFrames_originate ..) fun _ => rfl

/-! ### The contributor bitmap (08 R216, R217) -/

/-- The stage that a frame for `key` finds: the one held, or a new one. -/
def Body.stageOrNew (s : Body) (key : StageKey) : Stage := (s.stage key).getD { key }

theorem stageOrNew_of_all (s : Body) (key : StageKey) {p : Stage → Prop} (hnew : p { key }) (hheld : ∀ u, s.stage key = some u → p u) :
    p (s.stageOrNew key) := by
  unfold Body.stageOrNew
  cases h : s.stage key with
  | none => exact hnew
  | some u => exact hheld u h

theorem key_stageOrNew (s : Body) (key : StageKey) : (s.stageOrNew key).key = key :=
  stageOrNew_of_all s key (p := fun u => u.key = key) rfl fun u h => by simpa using List.find?_some h

/-- The stage with the first frame of an input in it. -/
def Stage.withFirst (t : Stage) (x : Input) : Stage := { t.setInput x with nextOrder := t.nextOrder + 1 }

variable {c : Ctx} {g : Group} {h : Hdr} {x : BitVec 128} {r : Rest}

/-- A frame that begins an input: of one of the chunk's inputs, sent under its own address, in the chunk's range, the stage without a verdict and
nothing of the input held. -/
structure BeginsInput (s : Body) (c : Ctx) (g : Group) (h : Hdr) (x : BitVec 128) (i : InIdx) : Prop where
  index : c.frameIdx g h x = some i
  plain : ∀ q, i = .rank q → q ∉ c.aliases
  direct : rxAlias x = false
  wanted : i ∈ (c.wanted g (rxChunk x)).1
  range : 32 * h.tag.toNat < c.inElems i (rxChunk x)
  pending : (s.stageOrNew ⟨c.key, rxChunk x⟩).verdict = .pending
  fresh : ∀ z ∈ (s.stageOrNew ⟨c.key, rxChunk x⟩).inputs, z.idx ≠ i

/-- The frame of such an input, as its stage keeps it. -/
def Body.firstFrame (s : Body) (c : Ctx) (h : Hdr) (x : BitVec 128) (r : Rest) (i : InIdx) : InFrame :=
  toIn (32 * h.tag.toNat / max 1 (c.inFull i)) h x r (s.stageOrNew ⟨c.key, rxChunk x⟩).nextOrder

/-- The stage with that frame. -/
def Body.stageWithFirst (s : Body) (c : Ctx) (h : Hdr) (x : BitVec 128) (r : Rest) (i : InIdx) : Stage :=
  (s.stageOrNew ⟨c.key, rxChunk x⟩).withFirst (.first i h.src (rxClast x) (s.firstFrame c h x r i))

/-- The Sett has taken input (10 R272), and the root's result of the chunk DEPTH before has left its staging (08 R219). -/
def Body.takesInput (s : Body) (c : Ctx) (n : Nat) : Body :=
  let s := s.modSett (s.settFor c) fun y => { y with recent := 4 }
  let old := fun (u : Stage) => u.key.ctx == c.key && u.key.chunk + c.depth == n && u.confirmed && !u.owed
  if n ≥ c.depth then { s with coll := { s.coll with stages := s.coll.stages.filter fun u => !old u } } else s

theorem recent_takesInput (s : Body) (c : Ctx) (n : Nat) : ((s.takesInput c n).sett (s.settFor c)).recent = 4 := by
  have hsett : ((s.modSett (s.settFor c) fun y => { y with recent := 4 }).sett (s.settFor c)).recent = 4 :=
    congrArg Sett.recent (sett_modSett_same ..)
  unfold Body.takesInput
  exact keeps_ite (fun b : Body => (b.sett (s.settFor c)).recent) (fun _ => hsett) fun _ => hsett

section beginsInput
variable (hb : BeginsInput s c g h x i)
include hb

/-- A good frame that begins an input goes into its stage. -/
theorem bitmap_of_beginsInput :
    s.bitmap c g h x r true = ((((s.takesInput c (rxChunk x)).putStage (s.stageWithFirst c h x r i)).markDone c g
      ⟨c.key, rxChunk x⟩).settleStage ⟨c.key, rxChunk x⟩).ackFrame (s.settFor c / 5) h := by
  have hnot : (match (generalizing := false) i with | .rank q => c.aliases.contains q | _ => false) = false := by
    cases i with
    | rank q => simpa using hb.plain q rfl
    | pod => rfl
    | module => rfl
  unfold Body.bitmap
  extract_lets sett key t al off past
  simp -zeta only [hb.index]
  extract_lets aliased pos held inp
  have hheld : held = none := List.find?_eq_none.mpr fun z hz => by
    have hz : z.idx ≠ i := hb.fresh z hz
    simp [hz]
  have hinp : inp = { idx := i, src := h.src } := by
    show held.getD { idx := i, alias_ := al, src := h.src } = _
    rw [hheld, show al = false from hb.direct]
    rfl
  have haliased : aliased = false := hnot
  have hal : al = false := hb.direct
  have hoff : off < c.inElems i key.chunk := hb.range
  have hwant : i ∈ (c.wanted g key.chunk).1 := hb.wanted
  clear_value aliased inp
  subst haliased hinp
  rw [if_neg (by simp [hwant, hal, hoff]), if_neg (by simp), if_neg (by simp), if_neg (by simp)]
  rfl

/-- The input stands in the stage afterwards, and its Sett counts as taking input. -/
theorem stage_bitmap_of_beginsInput :
    (∃ u, (s.bitmap c g h x r true).stage ⟨c.key, rxChunk x⟩ = some u ∧ .first i h.src (rxClast x) (s.firstFrame c h x r i) ∈ u.inputs)
      ∧ ((s.bitmap c g h x r true).sett (s.settFor c)).recent = 4 := by
  have hkey : (s.stageWithFirst c h x r i).key = ⟨c.key, rxChunk x⟩ := key_stageOrNew ..
  obtain ⟨doneSeq, hdone⟩ := stage_markDone (c := c) (g := g) (stage_putStage (s.takesInput c (rxChunk x)) hkey) hkey
  have hsame := sansFrames_ackFrame (((s.takesInput c (rxChunk x)).putStage (s.stageWithFirst c h x r i)).markDone c g
    ⟨c.key, rxChunk x⟩) (s.settFor c / 5) h
  rw [bitmap_of_beginsInput hb, settleStage_of_pending hdone hb.pending]
  refine ⟨⟨_, (stage_of_coll (coll_of_sansFrames hsame) _).trans hdone, mem_setInput_of_new hb.fresh⟩, ?_⟩
  rw [sett_of_setts ((setts_of_sansFrames hsame).trans (setts_markDone ..))]
  exact recent_takesInput s c (rxChunk x)

end beginsInput

end Sys2Proof.Machine
end

section
/-! SUPPORT. Contributions reach their stage. -/
namespace Sys2Proof.Machine

theorem key_of_ctx {s : Body} {k : CtxKey} {c : Ctx} (h : s.ctx k = some c) : c.key = k := by
  simpa using List.find?_some h

/-- An RPUT that is counted and dropped changes no collective's state. -/
theorem counted_of_dropped {s : State} {fid i : Nat} {ctr : Ctr} (hdata : DataReady s)
    (h : s.toBody.rput fid = (s.toBody.bump ctr i).doneHere fid) :
    ∃ t, exec (.rputArrival fid) s = .next t ∧ t.coll = s.coll ∧ t.toBody.count ctr i = (s.toBody.count ctr i + 1) % 2 ^ 64 := by
  have hwait := origWait_of_links ((links_doneHere _ fid).trans (links_bump s.toBody ctr i))
  refine ⟨_, becomes_of_data_of_none hdata (exec_rputArrival s fid) h (hwait.trans hdata.none_waits), ?_, ?_⟩
  · exact coll_of_sansFrames ((sansFrames_doneHere ..).trans (sansFrames_bump ..))
  · exact (congrArg (countIn · ctr i) (counters_doneHere ..)).trans (count_bump_self ..)

/-- Settles O43: each clause is one way through `Body.rput`, and what follows it in the command moves no stage and no Sett. -/
theorem contributionsReachTheirStage : Obligations.ContributionsReachTheirStage := by
  intro s fid k f r g hdata b n key hsett hopc hn hgroup htrusted
  have h : Contribution b fid k f r g := { toForSett := hsett, rput := hopc, data := hn, group := hgroup, trusted := htrusted }
  refine ⟨fun c hctx hst hnew => ?waits, fun ctr hctx hfails => ?refused, fun c hctx hst hblocked => ?blocked,
    fun c ctr hctx hst hfree hbars => ?barred,
    fun c i hctx hst hfree hform hbars hresult hearly hidx hplain hdirect hwanted hrange hcrc hstatus hstage => ?taken⟩
  case waits =>
    exact becomes_of_data_of_none hdata (exec_rputArrival s fid) (rput_of_admitting h hctx hst hnew) hdata.none_waits
  case refused => exact counted_of_dropped hdata (rput_of_openFails h hctx hfails)
  case blocked =>
    exact becomes_of_data_of_none hdata (exec_rputArrival s fid) ((rput_of_valid h hctx hst).trans (acceptRput_of_blocked h hctx hblocked))
      hdata.none_waits
  case barred =>
    exact counted_of_dropped hdata ((rput_of_valid h hctx hst).trans (acceptRput_of_formBars h hctx hfree hbars))
  case taken =>
    have hkey : (⟨c.key, rxChunk f.ext⟩ : StageKey) = key := by rw [key_of_ctx hctx]
    have hopen : (b.stageOrNew key).verdict = .pending ∧ ∀ z ∈ (b.stageOrNew key).inputs, z.idx ≠ i :=
      stageOrNew_of_all b key (p := fun u => u.verdict = .pending ∧ ∀ z ∈ u.inputs, z.idx ≠ i) ⟨rfl, by simp⟩ hstage
    have hb : BeginsInput b c g f.hdr f.ext i :=
      { index := hidx, plain := fun q hq => by subst hq; exact hplain, direct := hdirect, wanted := hwanted, range := hrange
        pending := hkey ▸ hopen.1, fresh := hkey ▸ hopen.2 }
    obtain ⟨⟨u, hu, hmem⟩, hrecent⟩ := stage_bitmap_of_beginsInput (r := r) hb
    have hrput : b.rput fid = (b.bitmap c g f.hdr f.ext r true).doneHere fid :=
      (rput_of_valid h hctx (by simp [hst])).trans (acceptRput_of_running h hctx hst hfree hform hbars hresult hearly hcrc hstatus)
    have hsame := (sansFrames_retryAll ((b.bitmap c g f.hdr f.ext r true).doneHere fid)).trans (sansFrames_doneHere ..)
    refine ⟨_, u, _, b.firstFrame c f.hdr f.ext r i, becomes_of_data hdata (exec_rputArrival s fid) hrput,
      (stage_of_coll (coll_of_sansFrames hsame) key).trans (hkey ▸ hu), hmem, rfl, rfl, rfl, rfl, rfl, rfl, complete_first,
      fun hcomplete => ?_, ?_⟩
    · exact (confirmed_first hcomplete).trans (BitVec.toNat_inj (y := 0))
    · exact (congrArg Sett.recent (sett_of_setts (setts_of_sansFrames hsame) _)).trans hrecent

end Sys2Proof.Machine
end

section
/-! SUPPORT. FMEM CREATE (09 R228, Table 9-2): a window placed in a free run of 2 MiB units, its bytes cleared. -/
namespace Sys2Proof.Machine

variable {s : Body}

theorem findRun_of_mss {t : Body} (h : t.mss = s.mss) (n : Nat) : t.findRun n = s.findRun n := by
  unfold Body.findRun; rw [h]

theorem win_of_mss {t : Body} (h : t.mss = s.mss) (wid : Nat) : t.win wid = s.win wid := by
  unfold Body.win; rw [h]

@[simp] theorem win_setWin (s : Body) (wid : Nat) (w : Window) : (s.setWin wid w).win wid = some w := mget_mset_same ..

/-- Fabric memory with window `wid` placed at unit `base`, the bytes of its units cleared. -/
def Mss.placed (m : Mss) (wid : Nat) (w : Window) (base : Nat) : Mss :=
  { m with windows := mset m.windows wid { w with base, units := ceilDiv w.size unitBytes }
           mem := Memory.clear m.mem (base * unitBytes) (ceilDiv w.size unitBytes * unitBytes) }

theorem placeWindow_of_findRun {w : Window} {base : Nat} (h : s.findRun (ceilDiv w.size unitBytes) = some base) (wid : Nat) :
    s.placeWindow wid w = some { s with mss := s.mss.placed wid w base } := by
  unfold Body.placeWindow
  dsimp only
  rw [h]
  rfl

theorem mss_createRun {d : Desc} {base : Nat} (h : s.findRun (ceilDiv (fmSize d) unitBytes) = some base) (r : CmdRef) (data : List Byte) :
    (specFmemCreate.run s r d data).s.mss = s.mss.placed (fmWid d) (fmWindow d) base := by
  have hplace : s.placeWindow (fmWid d) (fmWindow d) = some { s with mss := s.mss.placed (fmWid d) (fmWindow d) base } :=
    placeWindow_of_findRun h _
  simp only [CmdSpec.run, specFmemCreate, hplace]

/-- CREATE is carried out only for a window that is FREE (11 Table 11-5). -/
theorem win_none_of_createPre {r : CmdRef} {d : Desc} (h : specFmemCreate.pre s r d = 0) : s.win (fmWid d) = none := by
  change (if fmAbsent s || (s.win (fmWid d)).isSome then stIllegal else 0) = 0 at h
  split at h
  · cases h
  · exact Option.not_isSome_iff_eq_none.mp fun hs => ‹¬ _› (by simp [hs])

/-- Settles O18: beyond reports CREATE does its own effect alone, which is to clear a free run and place the window there. -/
theorem fmemCreateFillsWithZeros : Obligations.FmemCreateFillsWithZeros := by
  intro r s d base h hrun
  have hstart : (s.toBody.atRun specFmemCreate r d []).mss = s.mss := mss_of_quiet (quiet_atRun ..)
  have hmss : (hostCmd specFmemCreate s.toBody r [] 0).mss = s.mss.placed (fmWid d) (fmWindow d) base :=
    calc (hostCmd specFmemCreate s.toBody r [] 0).mss
      _ = _ := mss_of_quiet (quiet_of_ready s.toBody h rfl fun _ _ _ _ => rfl)
      _ = (s.toBody.atRun specFmemCreate r d []).mss.placed (fmWid d) (fmWindow d) base :=
        mss_createRun (d := s.toBody.runDesc specFmemCreate r d []) ((findRun_of_mss hstart _).trans hrun) r _
      _ = _ := by rw [hstart]
  have hfree : s.toBody.win (fmWid d) = none :=
    (win_of_mss hstart _).symm.trans (win_none_of_createPre (r := r) (pre_of_preStatus_eq_zero h.pre))
  exact ⟨_, _, exec_fmemCreate s r, congrArg Mss.windows hmss, hfree, rfl, rfl, rfl,
    fun a => (congrArg (Memory.get ·.mem a) hmss).trans (Memory.get_clear ..)⟩

end Sys2Proof.Machine
end

section
/-! SUPPORT. Frames are numbered as they come (03 R72, R73): of all that a frame meets in the module, only its making takes a number. -/
namespace Sys2Proof.Machine

variable (s : Body)

/-- The number that the next frame takes. -/
def Body.nextFid (s : Body) : Nat := s.fwc.nextFid

theorem nextFid_of_sansMarks {a b : Body} (h : a.sansMarks = b.sansMarks) : a.nextFid = b.nextFid := by
  show a.sansMarks.nextFid = b.sansMarks.nextFid; rw [h]

theorem nextFid_of_quiet {a b : Body} (h : a.quiet = b.quiet) : a.nextFid = b.nextFid := nextFid_of_sansMarks (sansMarks_of_quiet h)

@[simp] theorem nextFid_bump (c : Ctr) (i : Nat) : (s.bump c i).nextFid = s.nextFid := nextFid_of_quiet (quiet_bump ..)

/-! ### The buffer (03 R72-R79) -/

@[simp] theorem nextFid_returnCells (f : BufFrame) (n : Nat) : (s.returnCells f n).nextFid = s.nextFid := by
  have huncredit : ∀ (b : Body) l c, (b.uncredit l c false n).nextFid = b.nextFid := fun b l c => by
    obtain ⟨u, off, o, h⟩ := uncredit_eq_setUncred b l c false n
    rw [h]; rfl
  unfold Body.returnCells
  cases f.origin with
  | own => rfl
  | alp => rfl
  | udp => exact huncredit ..
  | eth => exact huncredit ..

@[simp] theorem nextFid_collect (fid : Nat) : (s.collect fid).nextFid = s.nextFid := by
  unfold Body.collect
  split
  · exact keeps_ite Body.nextFid (fun _ => rfl) fun _ => rfl
  · rfl

@[simp] theorem nextFid_releaseCopy (fid : Nat) : (s.releaseCopy fid).nextFid = s.nextFid := by
  unfold Body.releaseCopy
  split
  · rfl
  · exact keeps_ite Body.nextFid (fun _ => (nextFid_collect ..).trans (nextFid_returnCells s _ _)) fun _ => rfl

@[simp] theorem nextFid_doneHere (fid : Nat) : (s.doneHere fid).nextFid = s.nextFid := by
  unfold Body.doneHere
  split
  · rfl
  · exact keeps_ite Body.nextFid (fun _ => (nextFid_releaseCopy ..).trans rfl) fun _ => rfl

/-! ### The queues (05 R126-R141) -/

@[simp] theorem nextFid_sweepStreams (die : Nat) : (s.sweepStreams die).nextFid = s.nextFid := nextFid_of_sansMarks (sansMarks_sweepStreams ..)

@[simp] theorem nextFid_toReserve (l : Nat) : (s.toReserve l).nextFid = s.nextFid := by
  unfold Body.toReserve
  refine foldl_keeps Body.nextFid _ (fun b e => ?_) _ s
  split
  · exact keeps_ite Body.nextFid (fun _ => (nextFid_releaseCopy ..).trans rfl) fun _ => rfl
  · rfl

@[simp] theorem nextFid_enqueue (f : BufFrame) (cp : Copy) (l : Nat) : (s.enqueue f cp l).nextFid = s.nextFid := by
  have hsweep := fun b : Body => keeps_ite (p := b.streamsOn (dieOf l) + 1024 ≤ 65536) (b := b.sweepStreams (dieOf l)) Body.nextFid
    (fun _ => rfl) fun _ => nextFid_sweepStreams b _
  have hmeter := fun (b : Body) c key prof bytes colour => nextFid_of_sansMarks (sansMarks_meter b l c key prof bytes colour)
  have htake := nextFid_of_sansMarks (sansMarks_takeStream s l (s.classOn l f) (s.streamOf f).1 (s.streamOf f).2)
  have hpush : ∀ (b : Body) c l n key prof, ((b.pushEntry f c l n key prof).markOcc l n key).nextFid = b.nextFid := fun _ _ _ _ _ _ => rfl
  unfold Body.enqueue
  dsimp only
  refine keeps_ite Body.nextFid (fun _ => ?_) fun _ => ?_
  · rw [nextFid_sweepStreams, nextFid_releaseCopy, nextFid_bump, hmeter, htake]
  · refine keeps_ite Body.nextFid (fun _ => (nextFid_toReserve ..).trans ?_) fun _ => ?_
    all_goals rw [hsweep, hpush, hmeter, htake]

@[simp] theorem nextFid_takeIn (f : BufFrame) (cp : Copy) (l : Nat) : (s.takeIn f cp l).nextFid = s.nextFid := by
  unfold Body.takeIn
  refine keeps_ite Body.nextFid (fun _ => rfl) fun _ => ?_
  dsimp only
  set avg := s.congAvg l (s.classOn l f) cp.colour.toNat
  have hjudge : (if profiled f then avg.2.congJudge f.die l (s.classOn l f) cp.colour.toNat (if avg.2.cutThrough f l then 0 else avg.1)
      else (.pass, avg.2)).2.nextFid = s.nextFid :=
    keeps_ite (fun p : CongAct × Body => p.2.nextFid) (fun _ => nextFid_of_sansMarks (sansMarks_congJudge avg.2 ..)) fun _ => rfl
  split
  · exact (nextFid_enqueue ..).trans hjudge
  · have hcount := fun c i => (nextFid_bump _ c i).trans hjudge
    exact keeps_ite Body.nextFid (fun _ => (nextFid_releaseCopy ..).trans (hcount ..)) fun _ => (nextFid_enqueue ..).trans (hcount ..)

@[simp] theorem nextFid_takeCopy (f : BufFrame) (cp : Copy) (l : Nat) : (s.takeCopy f cp l).nextFid = s.nextFid := by
  unfold Body.takeCopy
  split
  · exact keeps_ite Body.nextFid (fun _ => nextFid_takeIn ..) fun _ => (nextFid_releaseCopy ..).trans (nextFid_bump ..)
  · exact nextFid_takeIn ..

/-! ### Frames that the module originates (03 R73) -/

@[simp] theorem nextFid_sendTargets (f : BufFrame) (ts : List (Option (Nat × W32))) : (s.sendTargets f ts).nextFid = s.nextFid := by
  unfold Body.sendTargets
  refine foldl_keeps Body.nextFid _ (fun b t => ?_) _ s
  extract_lets cp
  split
  · exact (nextFid_releaseCopy ..).trans (nextFid_bump ..)
  · split
    · rfl
    · exact nextFid_releaseCopy ..
  · rename_i e m _
    have hspray := nextFid_of_sansMarks (sansMarks_spray b f.die e m)
    split
    next u h => rw [h] at hspray; exact (nextFid_releaseCopy ..).trans hspray
    next k u h => rw [h] at hspray; exact (nextFid_takeCopy ..).trans hspray

theorem nextFid_takeOwn {die : Nat} {f g : BufFrame} {t : Body} (h : s.takeOwn die f = some (g, t)) : t.nextFid = s.nextFid := by
  unfold Body.takeOwn at h
  dsimp only at h
  split at h
  · obtain ⟨-, rfl⟩ := h; rfl
  · split at h
    · obtain ⟨-, rfl⟩ := h; rfl
    · cases h

@[simp] theorem nextFid_holdOwn (k : Nat) (f : BufFrame) (ts : List (Option (Nat × W32))) (cells : Bool) :
    (s.holdOwn k f ts cells).nextFid = s.nextFid := by
  unfold Body.holdOwn
  exact keeps_ite Body.nextFid (fun _ => (nextFid_bump ..).trans rfl) fun _ => rfl

/-- A frame that the module makes takes one number, whether it goes at once or waits for cells. -/
theorem nextFid_originate (die : Nat) (h : Hdr) (x : BitVec 128) (r : Rest) (ts : List (Option (Nat × W32))) :
    (s.originate die h x r ts).nextFid = s.nextFid + 1 := by
  unfold Body.originate
  extract_lets fid sett f fwc s1 k
  have hnumber : s1.nextFid = s.nextFid + 1 := rfl
  refine keeps_ite Body.nextFid (fun _ => hnumber) fun _ => keeps_ite Body.nextFid (fun _ => (nextFid_holdOwn ..).trans hnumber) fun _ => ?_
  split
  · rename_i g t htake
    exact (nextFid_sendTargets ..).trans ((nextFid_takeOwn s1 htake).trans hnumber)
  · exact (nextFid_holdOwn ..).trans hnumber

theorem nextFid_retryOne (p : List Nat × Body) (w : OrigWait) : (Body.retryOne p w).2.nextFid = p.2.nextFid := by
  unfold Body.retryOne
  refine keeps_ite (fun p : List Nat × Body => p.2.nextFid) (fun _ => rfl) fun _ => ?_
  dsimp only
  split
  · rename_i g t htake
    have hfrom : t.nextFid = p.2.nextFid := nextFid_takeOwn p.2 htake
    show (Body.sendTargets _ g w.to_).nextFid = _
    rw [nextFid_sendTargets]
    exact hfrom
  · exact keeps_ite Body.nextFid (fun _ => rfl) fun _ => (nextFid_bump ..).trans rfl

@[simp] theorem nextFid_retryAll : s.retryAll.nextFid = s.nextFid := by
  unfold Body.retryAll
  exact foldl_keeps (fun p : List Nat × Body => p.2.nextFid) Body.retryOne nextFid_retryOne s.fwc.origWait ([], s)

/-- A management message takes a number where a plane key is held to sign it (13 R356). -/
theorem nextFid_sendMgmtTo (h : s.planeKey ≠ none) (plane idx w0 : Nat) : (s.sendMgmtTo plane idx w0).nextFid = s.nextFid + 1 := by
  unfold Body.sendMgmtTo
  split
  · exact absurd ‹_› h
  · exact nextFid_originate ..

end Sys2Proof.Machine
end

section
/-! SUPPORT. Fabric memory is untouched (09): by frames on their way, by reports, and by the close of a context (08 R206, R225). -/
namespace Sys2Proof.Machine

variable (s : Body)

theorem mss_of_sansFrames {a b : Body} (h : a.sansFrames = b.sansFrames) : a.mss = b.mss := by
  show a.sansFrames.mss = b.sansFrames.mss; rw [h]

@[simp] theorem mss_retryAll : s.retryAll.mss = s.mss := mss_of_sansFrames (sansFrames_retryAll s)

@[simp] theorem sansFrames_sendMgmtTo (plane idx w0 : Nat) : (s.sendMgmtTo plane idx w0).sansFrames = s.sansFrames := by
  unfold Body.sendMgmtTo
  split
  · rfl
  · exact sansFrames_originate ..

@[simp] theorem sansFrames_fmemAnswer (die : Nat) (src : W32) (tag : W16) (kind wid off : Nat) (old : W64) :
    (s.fmemAnswer die src tag kind wid off old).sansFrames = s.sansFrames := by
  unfold Body.fmemAnswer
  split
  · exact sansFrames_originate ..
  · exact sansFrames_originate ..
  · rfl

@[simp] theorem mss_dropStages (c : Ctx) : (s.dropStages c).mss = s.mss := by
  unfold Body.dropStages
  refine foldl_keeps Body.mss _ (fun b t => ?_) _ s
  exact (mss_of_sansFrames (sansFrames_settleTd ..)).trans rfl

@[simp] theorem mss_dropWaiting (c : Ctx) : (s.dropWaiting c).mss = s.mss :=
  foldl_keeps Body.mss _ (fun b _ => mss_of_sansFrames ((sansFrames_doneHere ..).trans (sansFrames_bump b ..))) _ s

@[simp] theorem mss_releaseCtx (c : Ctx) : (s.releaseCtx c).mss = s.mss := by
  unfold Body.releaseCtx
  dsimp only
  split
  · rfl
  · split <;> rfl

@[simp] theorem mss_raiseOplow (a : W32) : (s.raiseOplow a).mss = s.mss := by
  have hmod : ∀ f : Group → Group, (s.modGroup a f).mss = s.mss := fun f => by
    unfold Body.modGroup
    split
    · rfl
    · split <;> rfl
  unfold Body.raiseOplow
  split
  · rfl
  · exact hmod _

@[simp] theorem mss_closeCtx (k : CtxKey) (status cause : Nat) : (s.closeCtx k status cause).mss = s.mss := by
  unfold Body.closeCtx
  split
  · rename_i c g _ _
    extract_lets ranks list s1 s2 s3 s4 coll s5
    have hrecord : s1.mss = s.mss := keeps_ite Body.mss (fun _ => mss_of_sansFrames (sansFrames_sendRecord ..)) fun _ => rfl
    have hevent : s2.mss = s.mss :=
      keeps_ite Body.mss (fun _ => hrecord) fun _ => (mss_of_quiet (quiet_emit ..)).trans hrecord
    have hfreed : s4.mss = s.mss := (mss_releaseCtx ..).trans ((mss_dropWaiting ..).trans ((mss_dropStages ..).trans hevent))
    exact (mss_of_sansFrames (sansFrames_retryAll ..)).trans ((mss_raiseOplow ..).trans hfreed)
  · rfl

end Sys2Proof.Machine
end

section
/-! SUPPORT. Answers at the module (02 R32; 03 R84; 09 R237). -/
namespace Sys2Proof.Machine

variable {s : Body} {fid : Nat} {f : BufFrame} {r : Rest}

/-- A whole frame for one of the module's own functions waits in the buffer. -/
structure Held (s : Body) (fid : Nat) (here : Local) (f : BufFrame) (r : Rest) : Prop where
  found : s.frame fid = some f
  here : f.here = some here
  rest : f.rest = some r

/-- What was sent under the tag of an ACK or a NACK. -/
def Body.sentAs (s : Body) (tag : W16) : Option (W16 × Sent) := s.mss.sent.find? fun x => x.1 == tag

/-- What was sent as `x` waits for its answer no more. -/
def Body.answeredAs (s : Body) (x : W16 × Sent) : Body := { s with mss := { s.mss with sent := s.mss.sent.erase x } }

theorem answerIn_of_unasked (h : Held s fid .answer f r) (hsent : s.sentAs f.hdr.tag = none) :
    s.answerIn fid = (s.bump .unsolicitedResp 0).doneHere fid := by
  have hnone : (if f.hdr.opc.toNat = opAck ∨ f.hdr.opc.toNat = opNack then s.sentAs f.hdr.tag else none) = none := by
    rw [hsent, ite_self]
  unfold Body.sentAs at hnone
  simp only [Body.answerIn, h.found, h.here, h.rest, hnone]

section asked
variable {x : W16 × Sent} (h : Held s fid .answer f r) (hsent : s.sentAs f.hdr.tag = some x)
include h hsent

theorem answerIn_of_unusable (hopc : f.hdr.opc.toNat = opAck ∨ f.hdr.opc.toNat = opNack) (hbad : usable f r = false) :
    s.answerIn fid = s.doneHere fid := by
  unfold Body.sentAs at hsent
  simp only [Body.answerIn, h.found, h.here, h.rest, if_pos hopc, hsent, hbad, Bool.not_false, if_true]

theorem answerIn_of_ack (hopc : f.hdr.opc.toNat = opAck) (hgood : usable f r = true) :
    s.answerIn fid = ((s.doneHere fid).answeredAs x).settleSent x.2 true := by
  unfold Body.sentAs at hsent
  simp only [Body.answerIn, h.found, h.here, h.rest, hsent, hgood, hopc, true_or, if_true, Bool.not_true, Bool.false_eq_true, if_false,
    decide_true, show ¬ opAck = opNack by decide, false_and]
  rfl

end asked

/-- With no write of the window waiting for its line, none goes out (09 R237). -/
theorem retryLater_of_none {wid : Nat} (h : ∀ y ∈ s.mss.later, y.wid ≠ wid) : s.retryLater wid = s := by
  have hmine : s.mss.later.filter (fun y => y.wid == wid) = [] := List.filter_eq_nil_iff.mpr fun y hy => by simpa using h y hy
  have hkept : s.mss.later.filter (fun y => y.wid != wid) = s.mss.later := List.filter_eq_self.mpr fun y hy => by simpa using h y hy
  unfold Body.retryLater
  rw [hmine, hkept]
  dsimp only
  split <;> rfl

/-- A mirror write held by both copies: its requester has its answer. -/
theorem settleSent_mirror {wid off n kind : Nat} {src : W32} {tag : W16} {old : W64} {w : Window} (hwin : s.win wid = some w)
    (hlater : ∀ y ∈ s.mss.later, y.wid ≠ wid) (ok : Bool) :
    s.settleSent (.mirror wid off n src tag kind old) ok = s.fmemAnswer (s.memDie (w.addr off)) src tag kind wid off old := by
  unfold Body.settleSent
  dsimp only
  rw [hwin]
  refine retryLater_of_none ?_
  rw [mss_of_sansFrames (sansFrames_fmemAnswer ..)]
  exact hlater

/-- The ACK of a mirror write whose requester waits for an ACK: the write is no longer outstanding, and one frame is made. -/
theorem answerIn_of_mirror_ack {wid off n : Nat} {src : W32} {tag : W16} {old : W64} {w : Window} (h : Held s fid .answer f r)
    (hsent : s.sentAs f.hdr.tag = some (f.hdr.tag, .mirror wid off n src tag 1 old)) (hopc : f.hdr.opc.toNat = opAck)
    (hgood : usable f r = true) (hwin : s.win wid = some w) (hlater : ∀ y ∈ s.mss.later, y.wid ≠ wid) :
    (s.answerIn fid).mss = (s.answeredAs (f.hdr.tag, .mirror wid off n src tag 1 old)).mss ∧ (s.answerIn fid).nextFid = s.nextFid + 1 := by
  set x : W16 × Sent := (f.hdr.tag, .mirror wid off n src tag 1 old)
  set u := (s.doneHere fid).answeredAs x with hu
  have hmss : u.mss = (s.answeredAs x).mss := by
    rw [hu, Body.answeredAs, Body.answeredAs, mss_of_sansFrames (sansFrames_doneHere ..)]
  have hwin' : u.win wid = some w := (win_of_mss hmss wid).trans hwin
  have hlater' : ∀ y ∈ u.mss.later, y.wid ≠ wid := by rw [hmss]; exact hlater
  rw [answerIn_of_ack h hsent hopc hgood, settleSent_mirror hwin' hlater']
  exact ⟨(mss_of_sansFrames (sansFrames_fmemAnswer ..)).trans hmss, (nextFid_originate ..).trans (congrArg (· + 1) (nextFid_doneHere s fid))⟩

end Sys2Proof.Machine
end

section
/-! SUPPORT. Copies of a window (09 R237-R248): the joining copy, heartbeats, and what a copy does when its buddy is silent. -/
namespace Sys2Proof.Machine

variable {s : Body} {wid : Nat} {w : Window}

@[simp] theorem mss_emit (s : Body) (c : Nat) (p : List Nat) : (s.emit c p).mss = s.mss := mss_of_quiet (quiet_emit ..)

@[simp] theorem mss_auditWindow (s : Body) (wid : Nat) : (s.auditWindow wid).mss = s.mss := mss_of_quiet (quiet_auditModule ..)

/-- What the joining copy holds of a join once it is complete, and the survivor's count of regions compared starts. -/
def Window.copied (w : Window) (j : Join) (last : W64) (steps : List W64) : Window :=
  if w.nregion = 0 then { w with state := .secondary, joining := none }
  else { w with state := .shadow, joining := some j.fresh, lastStep := last, grad := [], gradAck := []
                regionStep := ((steps.take w.nregion).zipIdx).map fun x => (x.2, x.1) }

section joining
variable {j : Join} (hwin : s.win wid = some w) (hj : w.joining = some j)
include hwin hj

theorem win_copyComplete_of_syncing (hst : w.state = .syncing) (last : W64) (steps : List W64) :
    (s.copyComplete wid last steps).win wid = some (w.copied j last steps) := by
  unfold Body.copyComplete Window.copied
  simp only [hwin, hj, if_pos hst]
  split
  · exact (win_of_mss (mss_emit ..) wid).trans (win_setWin ..)
  · exact win_setWin ..

theorem copyComplete_of_serves (hserves : w.serves = true) (hnew : j.shadow = false) (hclean : j.dirty = []) (hupdated : w.nregion ≠ 0)
    (last : W64) (steps : List W64) : s.copyComplete wid last steps =
      (s.sendMeta wid w).setWin wid { w with joining := some { j.fresh with shadow := true, after := s.begunStep wid w } } := by
  have hst : w.state ≠ .syncing := fun h => by simp [Window.serves, h] at hserves
  unfold Body.copyComplete
  simp only [hwin, hj, if_neg hst, hserves, hnew, hclean, if_neg hupdated]
  rfl

end joining

theorem heartbeat_of_beats (hwin : s.win wid = some w) (hbeats : w.beats = true) (hwhole : w.damaged = false)
    (hpower : s.power.state = .operational) : s.heartbeat wid = s.sendMgmtTo w.bplane w.buddy (put 0x40 56 + put wid 40) := by
  unfold Body.heartbeat
  simp [hwin, hbeats, hwhole, hpower]

/-- STATE_LOST (09 R248): the window's contents are gone, and no join goes on. -/
def Window.lost (w : Window) : Window := { w with state := .stateLost, joining := none, soloAsked := false }

theorem win_loseState (s : Body) (wid : Nat) (w : Window) : (s.loseState wid w).win wid = some w.lost := by
  unfold Body.loseState
  extract_lets s1 s2
  have hset : s1.win wid = some w.lost := (win_of_mss (mss_emit ..) wid).trans (win_setWin ..)
  have hmss : s2.mss = s1.mss := mss_auditWindow ..
  refine (win_of_mss ?_ wid).trans hset
  exact (foldl_keeps Body.mss _ (fun b (c : Ctx) => mss_closeCtx b c.key 6 0) _ s2).trans hmss

section silent
variable (hwin : s.win wid = some w) (hpower : s.power.state = .operational) (hwhole : w.damaged = false)
include hwin hpower hwhole

theorem buddyLost_of_pair (hst : w.state = .primary ∨ w.state = .secondary) (hask : w.soloAsked = false) :
    s.buddyLost wid = (s.setWin wid { w with soloAsked := true }).sendMgmtTo w.wplane w.witness
      (put 0x41 56 + put wid 40 + put s.moduleIndex 30) := by
  unfold Body.buddyLost
  rcases hst with hst | hst <;> simp [hwin, hpower, hwhole, hst, hask]

theorem buddyLost_of_joining (hst : w.state = .syncing ∨ w.state = .shadow) : s.buddyLost wid = s.loseState wid w := by
  unfold Body.buddyLost
  rcases hst with hst | hst <;> simp [hwin, hpower, hwhole, hst]

end silent

/-- What an asking copy is after a refusal: DETACHED, or STATE_LOST when the pair's state is (09 R238, R248). -/
def Window.denied (w : Window) (lost : Bool) : Window := if lost = true then w.lost else { w with state := .detached, soloAsked := false }

theorem win_soloDeny_of_asked (hwin : s.win wid = some w) (hask : w.soloAsked = true) (lost : Bool) :
    (s.soloDeny wid lost).win wid = some (w.denied lost) := by
  unfold Body.soloDeny Window.denied
  simp only [hwin, hask, if_true, Bool.true_or, Bool.and_true]
  split
  · exact win_loseState ..
  · exact (win_of_mss (mss_auditWindow ..) wid).trans (win_setWin ..)

/-- Granted with nothing outstanding, the copy is SOLO (09 R238). -/
theorem win_soloGrant_of_asked {w0 : W64} (hwin : s.win (fld w0 55 40) = some w) (hask : w.soloAsked = true) (hsent : s.mss.sent = []) :
    (s.soloGrant w0).win (fld w0 55 40) = some { w with state := .solo, soloAsked := false } := by
  unfold Body.soloGrant
  simp only [hwin, hask, hsent, List.filter_nil, List.foldl_nil, Bool.not_true, Bool.false_eq_true, if_false]
  refine (win_of_mss (foldl_keeps Body.mss _ (fun b y => mss_of_sansFrames (sansFrames_fmemAnswer b ..)) _ _) _).trans ?_
  exact (win_of_mss (mss_auditWindow ..) _).trans (win_setWin ..)

/-- The witness grants the first of a pair to ask (09 R238). -/
theorem granted_soloReq (s : Body) (src : Nat) (w0 : W64) : (s.soloReq src w0).mss.granted =
    if s.mss.granted.any (fun x => x.1 == fld w0 55 40) then s.mss.granted else s.mss.granted ++ [(fld w0 55 40, fld w0 39 30)] := by
  have hsend : ∀ (b : Body) n, (b.sendMgmt src n).mss = b.mss := fun b n => mss_of_sansFrames (sansFrames_sendMgmtTo ..)
  unfold Body.soloReq
  dsimp only
  split <;> rw [hsend]

end Sys2Proof.Machine
end

section
/-! SUPPORT. Management messages in the buffer (13 R356, Table 13-8). -/
namespace Sys2Proof.Machine

variable {s : Body} {fid sub : Nat} {f : BufFrame} {r : Rest}

/-- A subtype of Table 13-8. -/
def messageSub (t : Nat) : Bool := t == 0x30 || (0x40 ≤ t && t ≤ 0x44) || (0x50 ≤ t && t ≤ 0x52)

section message
variable (h : Held s fid .mgmt f r) (hsub : fld (nth r.payload 0 0) 63 56 = sub) (hknown : messageSub sub = true)
  (act : Body → Nat → W64 → Body)
include h hsub hknown

/-- A message of a command's subtype has its effect when it is accepted, and is counted when it is not. -/
theorem mgmtIn_of_message : s.mgmtIn fid sub act =
    if (s.mgmtOk f r).1 then
      ((act (if (s.mgmtOk f r).2 then s.bump .mgmtUntimed 0 else s) (adIndex f.hdr.src) (nth r.payload 0 0)).doneHere fid).ackFrame f.die f.hdr
    else (s.bump .mgmtReject 0).doneHere fid := by
  unfold messageSub at hknown
  unfold Body.mgmtIn
  rw [h.found]
  dsimp only
  rw [h.here, h.rest]
  dsimp only
  rw [hsub, hknown, bne_self_eq_false, Bool.and_false, if_neg Bool.false_ne_true]
  cases (s.mgmtOk f r).1 <;> rfl

theorem mgmtIn_of_rejected (hok : (s.mgmtOk f r).1 = false) : s.mgmtIn fid sub act = (s.bump .mgmtReject 0).doneHere fid := by
  rw [mgmtIn_of_message h hsub hknown, hok]
  rfl

/-- Beyond frames and reports, an accepted message has its command's effect alone. -/
theorem mgmtIn_of_accepted (hok : (s.mgmtOk f r).1 = true) : ∃ u : Body, u.quiet = s.quiet ∧
    (s.mgmtIn fid sub act).sansFrames = (act u (adIndex f.hdr.src) (nth r.payload 0 0)).sansFrames := by
  refine ⟨if (s.mgmtOk f r).2 then s.bump .mgmtUntimed 0 else s, keeps_ite Body.quiet (fun _ => quiet_bump ..) fun _ => rfl, ?_⟩
  rw [mgmtIn_of_message h hsub hknown, if_pos hok]
  exact (sansFrames_ackFrame ..).trans (sansFrames_doneHere ..)

end message

end Sys2Proof.Machine
end

section
/-! SUPPORT. Copies and witness. -/
namespace Sys2Proof.Machine

variable {s : State}

/-- A command that ends with what its operation leaves in the buffer leaves fabric memory and the collectives as they were. -/
theorem kept_of_sansFrames {c : Instr} {f : Body → Body} (hdata : DataReady s) (hc : exec c s = onData s f)
    (h : (f s.toBody).sansFrames = s.toBody.sansFrames) : ∃ t, exec c s = .next t ∧ t.mss = s.mss ∧ t.coll = s.coll :=
  have hall := (sansFrames_retryAll (f s.toBody)).trans h
  ⟨_, becomes_of_data hdata hc rfl, mss_of_sansFrames hall, coll_of_sansFrames hall⟩

/-- A frame that is counted and dropped changes no fabric memory. -/
theorem counted_of_bump {c : Instr} {f : Body → Body} {ctr : Ctr} {fid : Nat} (hdata : DataReady s) (hc : exec c s = onData s f)
    (h : f s.toBody = (s.toBody.bump ctr 0).doneHere fid) :
    ∃ t, exec c s = .next t ∧ t.mss = s.mss ∧ t.toBody.count ctr 0 = (s.toBody.count ctr 0 + 1) % 2 ^ 64 := by
  have hwait := origWait_of_links ((links_doneHere _ fid).trans (links_bump s.toBody ctr 0))
  refine ⟨_, becomes_of_data_of_none hdata hc h (hwait.trans hdata.none_waits), ?_, ?_⟩
  · exact mss_of_sansFrames ((sansFrames_doneHere ..).trans (sansFrames_bump ..))
  · exact (congrArg (countIn · ctr 0) (counters_doneHere ..)).trans (count_bump_self ..)

theorem win_of_command {c : Instr} {f : Body → Body} {wid : Nat} {w : Window} (hdata : DataReady s) (hc : exec c s = onData s f)
    (h : (f s.toBody).win wid = some w) : ∃ t, exec c s = .next t ∧ t.toBody.win wid = some w :=
  ⟨_, becomes_of_data hdata hc rfl, (win_of_mss (mss_retryAll _) wid).trans h⟩

/-- Settles O50: every clause is one way through the command's own operation. -/
theorem copiesAndWitness : Obligations.CopiesAndWitness := by
  intro s hdata b
  refine ⟨fun fid f r hfound hhere hrest => ?answers, fun wid w hwin => ?copies, fun fid f r hfound hhere hrest => ?messages⟩
  case answers =>
    have h : Held b fid .answer f r := ⟨hfound, hhere, hrest⟩
    refine ⟨fun hnone _ => ?unasked, fun wid off n src tag old w hack hgood hwin hlater hsent => ?mirror, fun hany hopc hbad => ?unusable⟩
    case unasked =>
      exact counted_of_bump hdata (exec_answerArrival s fid) (answerIn_of_unasked h (List.find?_eq_none.mpr (List.any_eq_false.mp hnone)))
    case mirror =>
      obtain ⟨hmss, hnumber⟩ := answerIn_of_mirror_ack h hsent hack hgood hwin hlater
      have hend := (mss_retryAll _).trans hmss
      exact ⟨_, becomes_of_data hdata (exec_answerArrival s fid) rfl, congrArg Mss.sent hend, (congrArg Mss.mem hend :),
        (nextFid_retryAll _).trans hnumber⟩
    case unusable =>
      obtain ⟨x, hx⟩ := Option.isSome_iff_exists.mp (List.find?_isSome.mpr (List.any_eq_true.mp hany))
      refine kept_of_sansFrames hdata (exec_answerArrival s fid) ?_
      rw [answerIn_of_unusable h hx hopc hbad]
      exact sansFrames_doneHere ..
  case copies =>
    refine ⟨fun j last steps hj => ⟨fun hst => ?syncing, fun hserves hnew hclean hupdated => ?survivor⟩,
      fun hbeats hwhole hpower => ?heartbeat, fun hpower hwhole => ⟨fun hst hask => ?pair, fun hst => ?joining⟩, fun lost hask => ?refused⟩
    case syncing =>
      exact win_of_command hdata (exec_joinCopyComplete s _) (win_copyComplete_of_syncing hwin hj hst last steps)
    case survivor =>
      exact becomes_of_data_of_none hdata (exec_joinCopyComplete s _) (copyComplete_of_serves hwin hj hserves hnew hclean hupdated last steps)
        hdata.none_waits
    case heartbeat => exact becomes_of_data hdata (exec_buddyHeartbeatSend s wid) (heartbeat_of_beats hwin hbeats hwhole hpower)
    case pair =>
      let asks := b.setWin wid { w with soloAsked := true }
      have hlost := buddyLost_of_pair hwin hpower hwhole hst hask
      refine ⟨_, becomes_of_data hdata (exec_buddyTimeout s wid) hlost, ?_, fun hkey => ?_⟩
      · exact (win_of_mss ((mss_retryAll _).trans (mss_of_sansFrames (sansFrames_sendMgmtTo ..))) _).trans (win_setWin ..)
      · exact (nextFid_retryAll _).trans (nextFid_sendMgmtTo asks hkey ..)
    case joining =>
      refine win_of_command hdata (exec_buddyTimeout s wid) ?_
      rw [buddyLost_of_joining hwin hpower hwhole hst]
      exact win_loseState ..
    case refused => exact win_of_command hdata (exec_soloReqTimeout s _) (win_soloDeny_of_asked hwin hask lost)
  case messages =>
    have h : Held b fid .mgmt f r := ⟨hfound, hhere, hrest⟩
    intro w0 who wid
    refine ⟨fun hok => ⟨fun hsub => ?feature, fun hsub => ?heartbeat, fun hsub => ?request, fun w hsub hwin hask hsent => ?grant,
      fun w lost hsub hwin hask => ?deny, fun hsub => ?reset⟩, fun hok hsub => ?rejected⟩
    case feature =>
      obtain ⟨u, hu, hact⟩ := mgmtIn_of_accepted h hsub rfl
        (fun b i w0 => { b with coll := { b.coll with features := mset b.coll.features i (fld w0 55 52) } }) hok
      refine ⟨_, becomes_of_data hdata (exec_feature s fid) rfl, ?_⟩
      rw [coll_of_sansFrames ((sansFrames_retryAll _).trans hact), ← coll_of_quiet hu]
    case heartbeat =>
      obtain ⟨u, hu, hact⟩ := mgmtIn_of_accepted h hsub rfl (fun b _ _ => b) hok
      exact kept_of_sansFrames hdata (exec_buddyHb s fid) (hact.trans (sansFrames_of_quiet hu))
    case request =>
      obtain ⟨u, hu, hact⟩ := mgmtIn_of_accepted h hsub rfl (fun b i w0 => b.soloReq i w0) hok
      refine ⟨_, becomes_of_data hdata (exec_soloReq s fid) rfl, ?_⟩
      rw [mss_of_sansFrames ((sansFrames_retryAll _).trans hact), granted_soloReq, mss_of_quiet hu]
    case grant =>
      obtain ⟨u, hu, hact⟩ := mgmtIn_of_accepted h hsub rfl (fun b _ w0 => b.soloGrant w0) hok
      refine win_of_command hdata (exec_soloGrant s fid) ((win_of_mss (mss_of_sansFrames hact) _).trans ?_)
      exact win_soloGrant_of_asked ((win_of_mss (mss_of_quiet hu) _).trans hwin) hask ((congrArg Mss.sent (mss_of_quiet hu)).trans hsent)
    case deny =>
      obtain ⟨u, hu, hact⟩ := mgmtIn_of_accepted h hsub rfl (fun b _ w0 => b.soloDeny (fld w0 55 40) lost) hok
      refine win_of_command hdata (exec_soloDeny s ⟨fid, lost⟩) ((win_of_mss (mss_of_sansFrames hact) _).trans ?_)
      exact win_soloDeny_of_asked ((win_of_mss (mss_of_quiet hu) _).trans hwin) hask lost
    case reset =>
      obtain ⟨u, hu, hact⟩ := mgmtIn_of_accepted h hsub rfl (fun b _ w0 => b.pairReset w0) hok
      refine ⟨_, becomes_of_data hdata (exec_pairReset s fid) rfl, ?_⟩
      rw [mss_of_sansFrames ((sansFrames_retryAll _).trans hact), ← mss_of_quiet hu]
      rfl
    case rejected =>
      exact counted_of_bump hdata (exec_pairReset s fid) (mgmtIn_of_rejected h hsub rfl _ hok)

end Sys2Proof.Machine
end

section
/-! SUPPORT. A PUT (09 R230) to memory whose bytes are listed out of the order of their addresses. -/
namespace Sys2Proof.Machine

/-- A PUT with ACKREQ of one word from slot 0 of pod 1. -/
def zeroPutHdr : Hdr := ownHdr (BitVec.ofNat 32 (put 1 19)) (infraAddr 0 0 0) opPut 3 1 7 true true

/-- It writes offset 0 of window 5. -/
def zeroPutExt : BitVec 128 := memX 0 5 0

/-- Its word is 0, its tail good. -/
def zeroPutRest : Rest := mkRest zeroPutHdr zeroPutExt [0] 0 0 tGood

/-- The PUT as frame 3, whole in the buffer. -/
def zeroPut : BufFrame :=
  { fid := 3, origin := .udp 0, die := 0, hdr := zeroPutHdr, ext := zeroPutExt, rest := some zeroPutRest, cells := 1, here := some .fmem }

/-- An ACTIVE window of 4,096 bytes at address 0. -/
def plainWindow : Window := { size := 4096, units := 1 }

/-- A module in operation with that frame and window 5, the byte at address 1 listed before the one at address 0. -/
def memoryUnsorted : State := { State.reset with
  power := { phase := 5, state := .operational }
  lantern := { partno := 1 }
  fwc := { frames := [zeroPut], nextFid := 4 }
  mss := { windows := [(5, plainWindow)], mem := [(1, 1), (0, 1)] } }

theorem dataReady_memoryUnsorted : DataReady memoryUnsorted := ⟨by decide +kernel, rfl⟩

theorem served_zeroPut : Rest.crcGood zeroPutRest zeroPut.hdr zeroPut.ext = true ∧ memoryUnsorted.toBody.earlierOp zeroPut = false
    ∧ memoryUnsorted.toBody.fmemRefusal zeroPut.hdr zeroPut.ext = none
    ∧ memoryUnsorted.toBody.win (mxWid zeroPut.ext) = some plainWindow := by decide +kernel

/-- The word goes to address 0 of fabric memory, and no operation from its sender stands in the duplicate filter. -/
theorem unseen_zeroPut : plainWindow.areaOf (mxOff zeroPut.ext) = .state ∧ plainWindow.addr (mxOff zeroPut.ext) = 0
    ∧ memoryUnsorted.toBody.dupFind zeroPut.hdr.src zeroPut.hdr.tag (mxWid zeroPut.ext) (mxOff zeroPut.ext) = none := by decide +kernel

/-- A zero byte is written at address 0 as if nothing were listed there, since the list begins past it: the byte keeps its value. -/
theorem byte_after_zeroPut : Memory.get (memoryUnsorted.toBody.fmemPut 3).mss.mem 0 = 1 := by decide +kernel

/-- Refutes O48: in memory whose bytes are not listed by rising address, a PUT of zeros leaves a byte that it names as it was. The clause
does not suppose that memory is in its canonical form (`Memory.wf`), which a write relies on and keeps. -/
theorem not_memoryRequestsTakeEffect : ¬ Obligations.MemoryRequestsTakeEffect := by
  unfold Obligations.MemoryRequestsTakeEffect
  intro h
  obtain ⟨hcrc, hfirst, hserved, hwin⟩ := served_zeroPut
  obtain ⟨harea, haddr, hnew⟩ := unseen_zeroPut
  obtain ⟨-, -, -, hwindow⟩ := h memoryUnsorted 3 zeroPut zeroPutRest dataReady_memoryUnsorted rfl rfl rfl hcrc rfl
  obtain ⟨hput, -⟩ := hwindow plainWindow hfirst hserved hwin
  obtain ⟨t, hexec, -, hmem, -⟩ := (hput rfl harea).1 hnew
  have hbyte := hmem 0
  rw [toBody_of_becomes (becomes_of_data dataReady_memoryUnsorted (exec_fmemPut memoryUnsorted 3) rfl) hexec, mss_retryAll,
    byte_after_zeroPut, haddr] at hbyte
  exact absurd hbyte (by decide)

end Sys2Proof.Machine
end

section
/-! SUPPORT. Counted slots of a Sett (13 R359): which counts they raise, and what they leave of the Sett. -/
namespace Sys2Proof.Machine

variable (s : Body)

/-- A count rises by what is added to it, sampled or not. -/
theorem count_bumpBy_self (c : Ctr) (i n : Nat) : (s.bumpBy c i n).count c i = (s.count c i + n) % 2 ^ 64 := by
  unfold Body.bumpBy
  split
  next hc =>
    have hne : c ≠ .sampleDrop := by rintro rfl; cases hc
    exact (count_sample _ hne ..).trans (countIn_bumpIn ..)
  next => exact countIn_bumpIn ..

/-- A count rises by no other counter's. -/
theorem count_bumpBy_other {c d : Ctr} (hc : c ≠ .sampleDrop) (hd : d ≠ c) (i j n : Nat) :
    (s.bumpBy d i n).count c j = s.count c j := by
  have hplain : (s.plainBump d i n).count c j = s.count c j := countIn_bumpIn_other _ hd ..
  unfold Body.bumpBy
  exact keeps_ite (fun b : Body => b.count c j) (fun _ => (count_sample _ hc ..).trans hplain) fun _ => hplain

/-- A view that neither counters nor the load of the Sett can change sees nothing of its slots. -/
theorem slots_keeps {γ : Type} (v : Body → γ) (hbump : ∀ b c i n, v (b.bumpBy c i n) = v b) (n : Nat)
    (hload : ∀ a w b, v (s.modSett n fun x => { x with loadSlots := x.loadSlots + a, loadWork := x.loadWork + w + b }) = v s)
    (cycles work front : Nat) :
    v (s.slots n cycles work front) = v s := by
  unfold Body.slots Body.countSlots
  extract_lets add all s1
  have hadd : ∀ c k b, v (add c k b) = v b := fun c k b => keeps_ite v (fun _ => rfl) fun _ => hbump ..
  refine keeps_ite v (fun _ => rfl) fun _ => ?_
  rw [hadd, hadd, hadd, hadd]
  exact hload ..

/-- From `a` to `b` Sett `n` keeps its energy, and every other Sett is as it was. -/
structure SettLike (n : Nat) (a b : Body) : Prop where
  energy : (b.sett n).energy = (a.sett n).energy
  others : ∀ m, m ≠ n → b.sett m = a.sett m

variable {s} {n : Nat}

theorem SettLike.trans {a b c : Body} (h : SettLike n a b) (k : SettLike n b c) : SettLike n a c :=
  ⟨k.energy.trans h.energy, fun m hm => (k.others m hm).trans (h.others m hm)⟩

theorem SettLike.of_setts {a b : Body} (h : b.setts = a.setts) : SettLike n a b :=
  ⟨congrArg Sett.energy (sett_of_setts h n), fun m _ => sett_of_setts h m⟩

theorem settLike_modSett {f : Sett → Sett} (h : ∀ x, (f x).energy = x.energy) : SettLike n s (s.modSett n f) :=
  ⟨(congrArg Sett.energy (sett_modSett_same ..)).trans (h _), fun _ hm => sett_modSett_other s hm f⟩

theorem settLike_slots (cycles work front : Nat) : SettLike n s (s.slots n cycles work front) := by
  have hbump := fun (b : Body) c i k m => sett_of_setts (setts_of_quiet (quiet_bumpBy b c i k)) m
  refine ⟨slots_keeps s (fun b => (b.sett n).energy) (fun b c i k => congrArg Sett.energy (hbump b c i k n)) n (fun a w k => ?_) ..,
    fun m hm => slots_keeps s (·.sett m) (fun b c i k => hbump b c i k m) n (fun a w k => sett_modSett_other s hm _) ..⟩
  exact (congrArg Sett.energy (sett_modSett_same s n _)).trans rfl

/-- A Sett whose slots are not counted has none. -/
theorem slots_of_uncounted (h : slotsCount (s.sett n) = false) (cycles work front : Nat) : s.slots n cycles work front = s :=
  if_pos (by simp [h])

/-- All 16 rows of a counted Sett starve at the front for one SCLK. -/
theorem slots_of_starved (h : slotsCount (s.sett n) = true) :
    s.slots n 1 0 16 = ((s.modSett n fun x => { x with loadSlots := x.loadSlots + 16 }).bumpBy .tdSlots n 16).bumpBy .tdFront n 16 := by
  simp [Body.slots, Body.countSlots, h]

end Sys2Proof.Machine
end

section
/-! SUPPORT. A dispatch (10 R275, R276): the unit that is chosen, its charge, and a pass (07 R184). -/
namespace Sys2Proof.Machine

variable {s : Body} {n : Nat}

theorem mem_of_best {α : Type} {lt : α → α → Bool} {l : List α} {a : α} (h : best lt l = some a) : a ∈ l := by
  induction l generalizing a with
  | nil => cases h
  | cons x t ih =>
    unfold best at h
    split at h
    · cases h; exact List.mem_cons_self
    · rename_i b hb
      split at h
      · cases h; exact List.mem_cons_of_mem _ (ih hb)
      · cases h; exact List.mem_cons_self

/-! ### The choice -/

/-- The chosen unit's charge fits the energy of the period. -/
theorem charge_of_choice {c : Ctx} {g : Group} {u : Stage} {w : WorkUnit × Nat × Nat} (h : s.choice n = some (c, g, u, w)) :
    unitCharge w.2.1 w.2.2 (s.sett n).sclk ≤ (s.sett n).energy := by
  simpa using (List.mem_filter.mp (mem_of_best h)).2

/-- Taking stages into the order of completion is no Sett's affair. -/
@[simp] theorem setts_markAll (s : Body) (n : Nat) : (s.markAll n).setts = s.setts := by
  unfold Body.markAll
  refine foldl_keeps Body.setts _ (fun b c => ?_) _ s
  split
  · exact foldl_keeps Body.setts _ (fun b t => setts_markDone ..) _ b
  · rfl

theorem markAll_of_no_ctxs (h : s.coll.ctxs = []) : s.markAll n = s := by
  unfold Body.markAll; rw [h]; rfl

@[simp] theorem setts_countHops (s : Body) (n : Nat) (t : Stage) : (s.countHops n t).setts = s.setts := by
  unfold Body.countHops
  exact keeps_ite Body.setts (fun _ => rfl) fun _ => (setts_of_quiet (quiet_bump ..)).trans rfl

/-! ### The dispatch -/

/-- A Sett that serves no context starves. -/
theorem dispatch_of_no_ctxs (h : s.coll.ctxs = []) : s.dispatch n = s.slots n 1 0 16 := by
  have hunits : s.unitsOf n = [] := by unfold Body.unitsOf; rw [h]; rfl
  have hctxs : ∀ f : Ctx → Ctx, s.coll.ctxs.map f = s.coll.ctxs := fun f => by rw [h]; rfl
  unfold Body.dispatch
  simp only [markAll_of_no_ctxs h, hunits, hctxs, List.filter_nil, List.foldl_nil, List.isEmpty_nil, best, if_true]

/-- The chosen unit of a chunk already begun runs once its charge is off the period's energy. -/
theorem dispatch_of_choice {c : Ctx} {g : Group} {u : Stage} {w : WorkUnit × Nat × Nat} (h : (s.markAll n).choice n = some (c, g, u, w))
    (hbegun : u.key.chunk ∈ c.started) :
    ∃ b : Body, b.setts = (s.modSett n fun x => { x with energy := x.energy - unitCharge w.2.1 w.2.2 (s.sett n).sclk }).setts
      ∧ s.dispatch n = b.runUnit n c g u w := by
  have hsetts := setts_markAll s n
  unfold Body.dispatch
  extract_lets t us free sclk fits idle coll s0 late s1
  have hsclk : sclk = (s.sett n).sclk := congrArg Sett.sclk (sett_of_setts hsetts n)
  have hcounted : s1.setts = s.setts := (foldl_keeps Body.setts _ (fun b v => setts_countHops ..) late s0).trans hsetts
  rw [show best (fun a b => t.workBefore a.1 b.1) fits = some (c, g, u, w) from h]
  dsimp only
  rw [if_neg (by simp [hbegun])]
  refine ⟨_, ?_, rfl⟩
  show mset s1.setts n { s1.sett n with energy := (s1.sett n).energy - unitCharge w.2.1 w.2.2 sclk } = _
  rw [hcounted, hsclk, sett_of_setts hcounted]
  rfl

/-! ### A pass -/

/-- A view that the counts of slots cannot change sees nothing of a stage's slots. -/
theorem addSlots_keeps {γ : Type} (v : Stage → γ) (t : Stage)
    (h : ∀ p f b, v { t with pendingSlots := p, frontSlots := f, backSlots := b } = v t) (x : Sett) (cycles work front : Nat) :
    v (t.addSlots x cycles work front) = v t := by
  unfold Stage.addSlots
  exact keeps_ite v (fun _ => h ..) fun _ => rfl

theorem pendingSlots_addSlots (t : Stage) (x : Sett) (cycles work front : Nat) :
    (t.addSlots x cycles work front).pendingSlots = t.pendingSlots + if slotsCount x then work * cycles else 0 := by
  unfold Stage.addSlots
  split <;> rfl

/-- A stage after its next pass on a Sett, the pass of so many SCLK. -/
def Stage.passed (t : Stage) (c : Ctx) (x : Sett) (cycles : Nat) : Stage :=
  (t.pass c (t.nextPass c)).1.addSlots x cycles (t.nextPass c).length (16 - (t.nextPass c).length)

/-- A pass adds its rows to the stage; the Sett keeps its energy, and the other Setts are not concerned. -/
theorem runUnit_of_pass (c : Ctx) (g : Group) (u : Stage) {w : WorkUnit × Nat × Nat} (h : w.1 = .pass) :
    (s.runUnit n c g u w).stage u.key = some (u.passed c (s.sett n) w.2.1) ∧ SettLike n s (s.runUnit n c g u w) := by
  have hkey : (u.passed c (s.sett n) w.2.1).key = u.key := addSlots_keeps Stage.key _ (fun _ _ _ => rfl) ..
  unfold Body.runUnit
  rw [h]
  dsimp only
  have hlogged := fun b : Body => settLike_modSett (s := b) (n := n) (f := fun x => { x with log := x.log
    + ((u.pass c (u.nextPass c)).1.logged - u.logged) }) fun _ => rfl
  exact ⟨stage_putStage _ hkey, (settLike_slots w.2.1 ..).trans ((hlogged _).trans (.of_setts rfl))⟩

end Sys2Proof.Machine
end

section
/-! SUPPORT. Dispatch runs the first unit. -/
namespace Sys2Proof.Machine

theorem becomes_settDispatch {s : State} {n : Fin 20} (hruns : s.toBody.dataRuns = true)
    (hstate : (s.toBody.sett n).state ≠ .quarantined) :
    becomes (.settDispatch n) s (s.toBody.dispatch n) :=
  becomes_of_body (exec_settDispatch s n) (if_pos (by simp [hruns, hstate]))

/-- Settles O45: a chosen pass is `Stage.passed` on a Sett whose charge is gone, and a Sett without contexts only counts slots. -/
theorem dispatchRunsTheFirstUnit : Obligations.DispatchRunsTheFirstUnit := by
  intro s n hruns hstate b counts
  have hexec := becomes_settDispatch hruns hstate
  refine ⟨fun c g u w hchoice hpass hbegun => ?pass, fun hnone hcounts => ?still, fun hnone hcounts => ?starved⟩
  case pass =>
    intro charge
    have hfits : charge ≤ (b.sett n).energy := by
      have h := charge_of_choice hchoice
      rwa [sett_of_setts (setts_markAll b n)] at h
    obtain ⟨t, hsetts, hrun⟩ := dispatch_of_choice hchoice hbegun
    obtain ⟨hstage, hlike⟩ := runUnit_of_pass (s := t) (n := n) c g u hpass
    rw [← hrun] at hstage hlike
    have hsett := (sett_of_setts hsetts n).trans (sett_modSett_same ..)
    refine ⟨_, _, hexec, hfits, ?_, hstage, ?_, ?_, fun m hm => ?_⟩
    · exact hlike.energy.trans (congrArg Sett.energy hsett)
    · exact addSlots_keeps Stage.acc _ (fun _ _ _ => rfl) ..
    · rw [hsett]; exact pendingSlots_addSlots ..
    · exact (hlike.others m hm).trans ((sett_of_setts hsetts m).trans (sett_modSett_other b hm _))
  case still =>
    rw [dispatch_of_no_ctxs hnone, slots_of_uncounted hcounts] at hexec
    exact hexec
  case starved =>
    rw [dispatch_of_no_ctxs hnone, slots_of_starved hcounts] at hexec
    set x := b.modSett n fun x => { x with loadSlots := x.loadSlots + 16 }
    have hslots : (x.bumpBy .tdSlots n 16).quiet = x.quiet := quiet_bumpBy ..
    have hquiet : ((x.bumpBy .tdSlots n 16).bumpBy .tdFront n 16).quiet = x.quiet := (quiet_bumpBy ..).trans hslots
    refine ⟨_, hexec, (coll_of_quiet hquiet).trans rfl, ?_, ?_, ?_⟩
    · exact (sett_of_setts (setts_of_quiet hquiet) n).trans (sett_modSett_same ..)
    · exact (count_bumpBy_other _ (by decide) (by decide) ..).trans (count_bumpBy_self x .tdSlots n 16)
    · refine (count_bumpBy_self (x.bumpBy .tdSlots n 16) .tdFront n 16).trans ?_
      rw [count_bumpBy_other x (by decide) (by decide)]
      rfl

end Sys2Proof.Machine
end

section
/-! SUPPORT. Fields of words (00 R8): a field just written, and a field that another one's writing leaves alone. -/
namespace Sys2Proof.Machine

theorem testBit_fld {n : Nat} (w : BitVec n) (hi lo i : Nat) :
    (fld w hi lo).testBit i = (decide (i < hi - lo + 1) && w.getLsbD (lo + i)) := by
  unfold fld
  rw [Nat.testBit_mod_two_pow, Nat.testBit_shiftRight]
  rfl

theorem fld_lt {n : Nat} (w : BitVec n) (hi lo : Nat) : fld w hi lo < 2 ^ (hi - lo + 1) := Nat.mod_lt _ (by positivity)

theorem getLsbD_setFld {n : Nat} (w : BitVec n) (hi lo v : Nat) {i : Nat} (hi' : i < n) :
    (setFld w hi lo v).getLsbD i = if lo ≤ i ∧ i < lo + (hi - lo + 1) then v.testBit (i - lo) else w.getLsbD i := by
  unfold setFld
  simp only [BitVec.getLsbD_or, BitVec.getLsbD_and, BitVec.getLsbD_not, BitVec.getLsbD_ofNat, Nat.testBit_shiftLeft,
    Nat.testBit_two_pow_sub_one, Nat.testBit_mod_two_pow, hi', decide_true, Bool.true_and]
  by_cases hlo : lo ≤ i
  · by_cases hin : i - lo < hi - lo + 1
    · simp [hlo, hin, show i < lo + (hi - lo + 1) by omega]
    · simp [hlo, hin, show ¬ i < lo + (hi - lo + 1) by omega]
  · simp [hlo]

/-! ### The map of a group of ports (06 Table 6-5) -/

theorem partnerOf_setFld_same (m : W32) {q v : Nat} (hq : q < 8) (hv : v < 8) : partnerOf (setFld m (4 * q + 2) (4 * q) v) q = v := by
  refine Nat.eq_of_testBit_eq fun i => ?_
  unfold partnerOf
  rw [testBit_fld, show 4 * q + 2 - 4 * q + 1 = 3 by omega]
  by_cases hi : i < 3
  · rw [getLsbD_setFld m _ _ v (by omega), if_pos (by omega)]
    simp [hi]
  · have hhigh : v.testBit i = false := Nat.testBit_lt_two_pow (lt_of_lt_of_le hv
      (Nat.pow_le_pow_right (i := 3) Nat.two_pos (Nat.le_of_not_lt hi)))
    simp [hi, hhigh]

theorem partnerOf_setFld_other (m : W32) {p q : Nat} (hp : p < 8) (hpq : p ≠ q) (v : Nat) :
    partnerOf (setFld m (4 * q + 2) (4 * q) v) p = partnerOf m p := by
  refine Nat.eq_of_testBit_eq fun i => ?_
  unfold partnerOf
  rw [testBit_fld, testBit_fld, show 4 * p + 2 - 4 * p + 1 = 3 by omega]
  by_cases hi : i < 3
  · rw [getLsbD_setFld m _ _ v (by omega), if_neg (by omega)]
  · simp [hi]

/-- The map with two positions set to through. -/
def restored (m : W32) (p q : Nat) : W32 := setFld (setFld m (4 * p + 2) (4 * p) p) (4 * q + 2) (4 * q) q

theorem partnerOf_restored (m : W32) {p : Nat} (hp : p < 8) (q : Nat) : partnerOf (restored m p q) p = p := by
  unfold restored
  by_cases hpq : p = q
  · subst hpq
    exact partnerOf_setFld_same _ hp hp
  · rw [partnerOf_setFld_other _ hp hpq]
    exact partnerOf_setFld_same _ hp hp

end Sys2Proof.Machine
end

section
/-! SUPPORT. A transition that starts (06 R160) leaves the dwells of port groups (10 R268) as they are. -/
namespace Sys2Proof.Machine

variable (s : Body)

/-- The port groups whose EXPRESS_DWELL has not passed. -/
def Body.dwelling (s : Body) : List Nat := s.portage.dwell

theorem portage_of_still {a b : Body} (h : a.still = b.still) : a.portage = b.portage := congrArg Still.portage h

theorem dwelling_of_optics {a b : Body} (h : a.optics = b.optics) : a.dwelling = b.dwelling :=
  congrArg (fun p : Portage × Map Cart => p.1.dwell) h

@[simp] theorem dwelling_drainOrDark (l : Nat) (c : DrainCause) : (s.drainOrDark l c).dwelling = s.dwelling := by
  have hdrain : (s.drainPort l c).dwelling = s.dwelling := by
    unfold Body.drainPort Body.startDrain
    dsimp only
    refine keeps_ite Body.dwelling (fun _ => ?_) fun _ => rfl
    refine keeps_ite Body.dwelling (fun _ => rfl) fun _ => keeps_ite Body.dwelling (fun _ => rfl) fun _ => ?_
    exact (congrArg Portage.dwell (portage_of_still (still_reenterQueued ..))).trans rfl
  unfold Body.drainOrDark
  split
  · exact hdrain
  all_goals rfl

@[simp] theorem dwelling_endTrans (g : Nat) (t : Transition) (ok : Bool) : (s.endTrans g t ok).dwelling = s.dwelling := by
  unfold Body.endTrans
  refine (dwelling_of_optics (optics_reportGroup ..)).trans ((dwelling_of_optics (optics_landPorts ..)).trans ?_)
  cases ok
  · rfl
  · exact (congrArg Portage.dwell (portage_of_quiet (quiet_emit ..))).trans rfl

@[simp] theorem dwelling_nextWrite (g : Nat) (t : Transition) : (s.nextWrite g t).dwelling = s.dwelling := by
  unfold Body.nextWrite
  split
  · exact (congrArg Portage.dwell (portage_raiseWear ..)).trans rfl
  · exact dwelling_endTrans ..

@[simp] theorem dwelling_beginWrites (g : Nat) (t : Transition) : (s.beginWrites g t).dwelling = s.dwelling := by
  unfold Body.beginWrites
  refine (dwelling_nextWrite ..).trans ?_
  refine (foldl_keeps Body.dwelling _ (fun b p => ?_) _ _).trans (foldl_keeps Body.dwelling _ (fun b p => ?_) _ _)
  · exact foldl_keeps Body.dwelling _ (fun a l => show (a.modLp l _).dwelling = a.dwelling from rfl) _ _
  · rfl

@[simp] theorem dwelling_startTrans (i : OcbItem) (src : OcbSource) : (s.startTrans i src).dwelling = s.dwelling := by
  have hdrained : ∀ (b : Body) ls, (List.foldl (fun b l => b.drainOrDark l .portage) b ls).dwelling = b.dwelling := fun b ls =>
    foldl_keeps Body.dwelling _ (fun b l => dwelling_drainOrDark b l _) ls b
  unfold Body.startTrans
  exact keeps_ite Body.dwelling (fun _ => (dwelling_beginWrites ..).trans (hdrained ..)) fun _ => hdrained ..

theorem ocbRefused_of_quiet {a b : Body} (h : a.quiet = b.quiet) (clp : Bool) (i : OcbItem) : a.ocbRefused clp i = b.ocbRefused clp i := by
  show a.quiet.ocbRefused clp i = b.quiet.ocbRefused clp i; rw [h]

theorem bypass_of_quiet {a b : Body} (h : a.quiet = b.quiet) (g : Nat) : a.bypass g = b.bypass g := by
  show a.quiet.bypass g = b.quiet.bypass g; rw [h]

variable {s}

/-- A change that CLP may ask for starts, and the group dwells from then on (10 R266, R268). -/
theorem clpRequest_of_granted {g : Nat} {target : W32} (hmap : mapValid target = true) (hgroup : g < s.variant.groups)
    (hgrant : s.ocbRefused true { g, gen := (s.bypass g).gen, target } = false) (src : OcbSource) :
    (s.clpRequest g target src).1 = 0 ∧ g ∈ (s.clpRequest g target src).2.dwelling := by
  unfold Body.clpRequest
  dsimp only
  rw [if_neg (by simp [hmap]; omega), if_neg (by simp [hgrant])]
  refine ⟨rfl, ?_⟩
  rw [dwelling_startTrans]
  show g ∈ if s.portage.dwell.contains g then s.portage.dwell else s.portage.dwell ++ [g]
  split
  · exact List.contains_iff_mem.mp ‹_›
  · simp

end Sys2Proof.Machine
end

section
/-! SUPPORT. Express requests (10 R265-R268): a measurement, and what a request, an answer and a release each do. -/
namespace Sys2Proof.Machine

variable {s : Body}

/-! ### Measurement (10 R265, R268) -/

/-- Intervals above the rate, with the one that ends (10 R265). -/
def Body.aboveNow (s : Body) (peer : Nat) : Nat :=
  if s.profiles.inForce.expressRate * 1000000 < mgetD s.budget.levelC peer 0 * 8 then mgetD s.budget.above peer 0 + 1 else 0

/-- Intervals below half the rate, with the one that ends (10 R268). -/
def Body.belowNow (s : Body) (peer : Nat) : Nat :=
  if mgetD s.budget.levelC peer 0 * 16 < s.profiles.inForce.expressRate * 1000000 then mgetD s.budget.below peer 0 + 1 else 0

/-- The intervals that a pair stands above the rate before it is served, fewer for a saturated peer (10 R265). -/
def Body.holdFor (s : Body) (peer : Nat) : Nat :=
  if s.budget.satPeers.contains peer then s.profiles.inForce.expressHoldSat else s.profiles.inForce.expressHold

/-- The body with one more interval of a pair counted. -/
def Body.measured (s : Body) (peer : Nat) : Body :=
  { s with budget := { s.budget with
      levelC := mdel s.budget.levelC peer, above := mset s.budget.above peer (s.aboveNow peer)
      below := mset s.budget.below peer (s.belowNow peer), expWait := mset s.budget.expWait peer (mgetD s.budget.expWait peer 0 - 1) } }

/-- The module that does not act for the pair only counts. -/
theorem measureExpress_of_higher {peer : Nat} (h : peer ≤ s.moduleIndex) : s.measureExpress peer = s.measured peer := by
  have hacts : (!decide ((s.measured peer).moduleIndex < peer)) = true := by
    rw [show (s.measured peer).moduleIndex = s.moduleIndex from rfl]
    simpa using h
  exact if_pos hacts

/-- The acting module of a pair without a circuit or a request asks its first candidate once the hold has passed. -/
theorem measureExpress_of_idle {peer : Nat} (hacts : s.moduleIndex < peer) (hidle : mgetD s.budget.tried peer 0 = 0) :
    s.measureExpress peer = if mgetD s.budget.expWait peer 0 - 1 = 0 ∧ s.holdFor peer ≤ s.aboveNow peer then
      ((s.measured peer).askCandidate peer 0).getD (s.measured peer) else s.measured peer := by
  have hacts : ¬ (!decide ((s.measured peer).moduleIndex < peer)) = true := by
    rw [show (s.measured peer).moduleIndex = s.moduleIndex from rfl]
    simpa using hacts
  refine (if_neg hacts).trans ?_
  rw [hidle]
  rfl

/-- Candidate `n + 1` of the plan is asked. -/
theorem askCandidate_of_cand {peer n : Nat} {c : W64} (h : (s.expressCands peer)[n]? = some c) :
    s.askCandidate peer n = some ((s.setTried peer (n + 1)).sendExpress 0x50 peer c) := by
  unfold Body.askCandidate
  rw [h]

/-! ### At the transit module (10 R266, R268) -/

/-- A group that the transit does not own is refused, and nothing else is done. -/
theorem expressRequest_of_unowned {w : W64} (hpower : s.power.state = .operational)
    (howner : s.profiles.inForce.portageOwner.getLsbD (fld w 35 30) = false) :
    ∃ w0, s.expressRequest w = s.sendMgmt (fld w 55 46) w0 := by
  unfold Body.expressRequest
  dsimp only
  rw [if_neg (by simp [hpower]), if_pos (by simp [howner])]
  exact ⟨_, rfl⟩

/-- The change that a request names. -/
def Body.expressTarget (s : Body) (w : W64) : W32 :=
  setFld (setFld (s.bypass (fld w 35 30)).partner (4 * fld w 29 27 + 2) (4 * fld w 29 27) (fld w 26 24))
    (4 * fld w 26 24 + 2) (4 * fld w 26 24) (fld w 29 27)

/-- A request that the transit can serve. -/
structure Servable (s : Body) (w : W64) : Prop where
  runs : s.power.state = .operational
  owned : s.profiles.inForce.portageOwner.getLsbD (fld w 35 30) = true
  through1 : partnerOf (s.bypass (fld w 35 30)).partner (fld w 29 27) = fld w 29 27
  through2 : partnerOf (s.bypass (fld w 35 30)).partner (fld w 26 24) = fld w 26 24
  rested : fld w 35 30 ∉ s.portage.dwell
  valid : mapValid (s.expressTarget w) = true
  fitted : fld w 35 30 < s.variant.groups
  granted : s.ocbRefused true { g := fld w 35 30, gen := (s.bypass (fld w 35 30)).gen, target := s.expressTarget w } = false

theorem dwelling_expressRequest_of_servable {w : W64} (h : Servable s w) : fld w 35 30 ∈ (s.expressRequest w).dwelling := by
  unfold Body.expressRequest
  dsimp only
  rw [if_neg (by simp [h.runs]), if_neg (by simp [h.owned]), if_neg (by simp [h.through1, h.through2]), if_neg (by simp [h.rested])]
  obtain ⟨hzero, hdwell⟩ := clpRequest_of_granted h.valid h.fitted h.granted
    (.peer (fld w 55 46) (fld w 45 36) (fld w 35 30) (fld w 29 27) (fld w 26 24))
  unfold Body.expressTarget at hzero hdwell
  generalize s.clpRequest .. = p at hzero hdwell ⊢
  obtain ⟨st, t⟩ := p
  obtain rfl : st = 0 := hzero
  exact hdwell

/-- A release within the dwell of its group waits for the dwell's end. -/
theorem expressRelease_of_dwell {w : W64} (howner : s.profiles.inForce.portageOwner.getLsbD (fld w 35 30) = true)
    (hdwell : fld w 35 30 ∈ s.portage.dwell) :
    s.expressRelease w = { s with portage := { s.portage with deferred := s.portage.deferred
      ++ [(fld w 35 30, restored (s.bypass (fld w 35 30)).partner (fld w 29 27) (fld w 26 24))] } } := by
  unfold Body.expressRelease Body.expressRestore
  rw [if_pos howner]
  exact if_pos (by simp [hdwell])

/-! ### At the acting module (10 R266) -/

/-- The transit of candidate `n + 1` has accepted: the circuit through it stands. -/
theorem expressAnswer_of_accepted {w : W64} {src n : Nat} {c : W64} (hmine : fld w 55 46 = s.moduleIndex) (haccepted : fld w 23 16 = 0)
    (hasked : mgetD s.budget.tried (fld w 45 36) 0 = n + 1) (hn : n < 2) (hcand : (s.expressCands (fld w 45 36))[n]? = some c)
    (hsrc : fld c 43 34 = src) : s.expressAnswer src w = s.setTried (fld w 45 36) (n + 3) := by
  unfold Body.expressAnswer
  dsimp only
  rw [hasked, if_neg (by simp [hmine]; omega), Nat.add_sub_cancel, hcand]
  dsimp only
  rw [if_neg (by simp [hsrc]), if_pos haccepted]

end Sys2Proof.Machine
end

section
/-! SUPPORT. Express messages (13 R356): an accepted one has its command's effect on what a count of its acceptance leaves. -/
namespace Sys2Proof.Machine

theorem portage_of_sansFrames {a b : Body} (h : a.sansFrames = b.sansFrames) : a.portage = b.portage := by
  show a.sansFrames.portage = b.sansFrames.portage; rw [h]

theorem budget_of_sansFrames {a b : Body} (h : a.sansFrames = b.sansFrames) : a.budget = b.budget := by
  show a.sansFrames.budget = b.sansFrames.budget; rw [h]

theorem planeKey_of_quiet {a b : Body} (h : a.quiet = b.quiet) : a.planeKey = b.planeKey := by
  show a.quiet.planeKey = b.quiet.planeKey; rw [h]

theorem moduleIndex_of_quiet {a b : Body} (h : a.quiet = b.quiet) : a.moduleIndex = b.moduleIndex := by
  show a.quiet.moduleIndex = b.quiet.moduleIndex; rw [h]

theorem variant_of_quiet {a b : Body} (h : a.quiet = b.quiet) : a.variant = b.variant := by
  show a.quiet.variant = b.quiet.variant; rw [h]

theorem expressCands_of_quiet {a b : Body} (h : a.quiet = b.quiet) (peer : Nat) : a.expressCands peer = b.expressCands peer := by
  unfold Body.expressCands; rw [profiles_of_quiet h]

theorem expressTarget_of_quiet {a b : Body} (h : a.quiet = b.quiet) (w : W64) : a.expressTarget w = b.expressTarget w := by
  unfold Body.expressTarget; rw [bypass_of_quiet h]

theorem Servable.of_quiet {a b : Body} {w : W64} (h : Servable b w) (hq : a.quiet = b.quiet) : Servable a w where
  runs := power_of_quiet hq ▸ h.runs
  owned := profiles_of_quiet hq ▸ h.owned
  through1 := bypass_of_quiet hq _ ▸ h.through1
  through2 := bypass_of_quiet hq _ ▸ h.through2
  rested := portage_of_quiet hq ▸ h.rested
  valid := expressTarget_of_quiet hq w ▸ h.valid
  fitted := variant_of_quiet hq ▸ h.fitted
  granted := by rw [ocbRefused_of_quiet hq, bypass_of_quiet hq, expressTarget_of_quiet hq]; exact h.granted

/-- An acknowledgement takes a number where the frame asks for one (02 R52). -/
theorem nextFid_ackFrame (s : Body) (die : Nat) (h : Hdr) : (s.ackFrame die h).nextFid = s.nextFid + if h.ackreq then 1 else 0 := by
  unfold Body.ackFrame
  split
  · exact nextFid_originate ..
  · rfl

section message
variable {s : State} {fid sub : Nat} {f : BufFrame} {r : Rest} (hdata : DataReady s) (hserves : s.planes.controlRestart = false)
  (h : Held s.toBody fid .mgmt f r) (hsub : fld (nth r.payload 0 0) 63 56 = sub) (hknown : messageSub sub = true)
  (hok : (s.toBody.mgmtOk f r).1 = true)
include hdata hserves h hsub hknown hok

/-- Beyond frames and reports, an accepted express message has its effect alone, and only frames of its own and its
acknowledgement take numbers. -/
theorem express_of_accepted {cmd : Instr} {act : Body → Nat → W64 → Body}
    (hc : exec cmd s = onData s fun b => b.expressIn fid sub act) :
    ∃ (t : State) (u : Body), exec cmd s = .next t ∧ u.quiet = s.toBody.quiet
      ∧ t.toBody.sansFrames = (act u (adIndex f.hdr.src) (nth r.payload 0 0)).sansFrames
      ∧ t.toBody.nextFid = (act u (adIndex f.hdr.src) (nth r.payload 0 0)).nextFid + if f.hdr.ackreq then 1 else 0 := by
  have hin : s.toBody.expressIn fid sub act = s.toBody.mgmtIn fid sub act := by
    unfold Body.expressIn
    rw [if_neg (by simp [hdata.runs]), if_neg (by simp [hserves])]
  refine ⟨_, if (s.toBody.mgmtOk f r).2 then s.toBody.bump .mgmtUntimed 0 else s.toBody, becomes_of_data hdata hc hin,
    keeps_ite Body.quiet (fun _ => quiet_bump ..) fun _ => rfl, ?_, ?_⟩
  all_goals rw [mgmtIn_of_message h hsub hknown, if_pos hok]
  · exact (sansFrames_retryAll _).trans ((sansFrames_ackFrame ..).trans (sansFrames_doneHere ..))
  · exact (nextFid_retryAll _).trans ((nextFid_ackFrame ..).trans (congrArg (· + _) (nextFid_doneHere ..)))

end message

end Sys2Proof.Machine
end

section
/-! SUPPORT. Express circuits. -/
namespace Sys2Proof.Machine

theorem becomes_expressMeasurement {s : State} (hserves : s.toBody.serves = true) (hcontrol : s.planes.controlRestart = false)
    (peer : Fin 1024) : becomes (.expressMeasurement peer) s (s.toBody.measureExpress peer) :=
  becomes_of_body (exec_expressMeasurement s peer) (if_pos (by simp [hserves, hcontrol]))

/-- Settles O54: a measurement is `Body.measured` and the request it sends, and each message is one branch of its own operation. -/
theorem expressCircuits : Obligations.ExpressCircuits := by
  intro s b p hcontrol
  refine ⟨fun peer hserves => ?measurement, fun fid f r hdata hfound hhere hrest hok => ?messages⟩
  case measurement =>
    intro bytes above below wait q
    have hexec := becomes_expressMeasurement hserves hcontrol peer
    refine ⟨fun hhigher => ?_, fun c l hacts hidle hwait hcands hhold => ?_⟩
    · rw [measureExpress_of_higher hhigher] at hexec
      exact hexec
    · have hcand : ((b.measured peer).expressCands peer)[0]? = some c := congrArg (·[0]?) hcands
      rw [measureExpress_of_idle hacts hidle, if_pos ⟨hwait, hhold⟩, askCandidate_of_cand hcand] at hexec
      exact hexec
  case messages =>
    have h : Held b fid .mgmt f r := ⟨hfound, hhere, hrest⟩
    intro m g peer
    refine ⟨fun hsub hpower => ⟨fun howner => ?refused, ?started⟩,
      fun c n hsub hmine haccepted hasked hn hcand hsrc => ?accepted, fun hsub howner hdwell => ?released⟩
    case refused =>
      obtain ⟨t, u, hexec, hquiet, hsame, hnumber⟩ := express_of_accepted hdata hcontrol h hsub rfl hok (exec_expressReq s fid)
      obtain ⟨w0, hback⟩ := expressRequest_of_unowned (s := u) (w := m) (power_of_quiet hquiet ▸ hpower)
        (profiles_of_quiet hquiet ▸ howner)
      rw [hback] at hsame hnumber
      refine ⟨t, hexec, ?_, fun hkey => hnumber.trans (congrArg (· + _) ?_)⟩
      · exact (portage_of_sansFrames (hsame.trans (sansFrames_sendMgmtTo ..))).trans (portage_of_quiet hquiet)
      · refine (nextFid_sendMgmtTo u (planeKey_of_quiet hquiet ▸ hkey) ..).trans (congrArg (· + 1) (nextFid_of_quiet hquiet))
    case started =>
      intro map p1 p2 target howner hthrough1 hthrough2 hrested hvalid hfitted hgranted
      have hserve : Servable b m := ⟨hpower, howner, hthrough1, hthrough2, hrested, hvalid, hfitted, hgranted⟩
      obtain ⟨t, u, hexec, hquiet, hsame, -⟩ := express_of_accepted hdata hcontrol h hsub rfl hok (exec_expressReq s fid)
      refine ⟨t, hexec, ?_⟩
      rw [portage_of_sansFrames hsame]
      exact dwelling_expressRequest_of_servable (hserve.of_quiet hquiet)
    case accepted =>
      obtain ⟨t, u, hexec, hquiet, hsame, -⟩ := express_of_accepted hdata hcontrol h hsub rfl hok (exec_expressAns s fid)
      have hbudget := budget_of_quiet hquiet
      rw [expressAnswer_of_accepted (hmine.trans (moduleIndex_of_quiet hquiet).symm) haccepted (hbudget ▸ hasked) hn
        (expressCands_of_quiet hquiet _ ▸ hcand) hsrc] at hsame
      exact ⟨t, hexec, (congrArg Budget.tried (budget_of_sansFrames hsame)).trans
        (congrArg (fun x : Budget => mset x.tried peer (n + 3)) hbudget)⟩
    case released =>
      obtain ⟨t, u, hexec, hquiet, hsame, -⟩ := express_of_accepted hdata hcontrol h hsub rfl hok (exec_expressRel s fid)
      have hportage := portage_of_quiet hquiet
      rw [expressRelease_of_dwell (profiles_of_quiet hquiet ▸ howner) (hportage ▸ hdwell)] at hsame
      have hleft := portage_of_sansFrames hsame
      refine ⟨t, hexec, ?_, restored (u.bypass g).partner (fld m 29 27) (fld m 26 24), ?_, partnerOf_restored _ (fld_lt m 29 27) _⟩
      · exact (congrArg Portage.dwell hleft).trans (congrArg Portage.dwell hportage :)
      · exact (congrArg Portage.deferred hleft).trans (congrArg (fun x : Portage => x.deferred ++ _) hportage :)

end Sys2Proof.Machine
end

section
/-! SUPPORT. The front of the queue, and what a step can do to the fuses (15 "Fuses", R388). -/
namespace Sys2Proof.Machine

/-! ### The front of the queue -/

/-- Settles O1: the step takes the front of the queue by definition. -/
theorem stepRunsFront : Obligations.StepRunsFront := fun _ _ _ => rfl

/-! ### Fuses (15 R388) -/

/-- Further bits written to `b` leave those that it shares with `a`. -/
theorem and_or_eq_of_and_eq {n : Nat} {a b : BitVec n} (v : BitVec n) (h : a &&& b = a) : a &&& (b ||| v) = a := by
  ext i hi
  have hab := congrArg (·[i]) h
  simp only [BitVec.getElem_and, BitVec.getElem_or] at hab ⊢
  cases hb : b[i] <;> simp_all

/-- An image burned over a block clears no bit that was written before. -/
theorem fusesGrow_fuseWrite {f g : List (BitVec 8192)} (n : Nat) (v : BitVec 8192) (h : fusesGrow f g) :
    fusesGrow f (fuseWrite g n v) := by
  induction f, g using fusesGrow.induct generalizing n with
  | case1 => exact h
  | case2 a f b g ih =>
    obtain ⟨hab, hfg⟩ := h
    cases n with
    | zero => exact ⟨and_or_eq_of_and_eq v hab, hfg⟩
    | succ n => exact ⟨hab, ih n hfg⟩
  | case3 => simp_all [fusesGrow]

/-- An image that differs from its block in REPAIR entries alone leaves the rest of the record as it was. -/
theorem sameButRepair_fuseWrite {f g : List (BitVec 8192)} (n : Nat) (v : BitVec 8192)
    (same : nth g n 0 >>> 6144 = v >>> 6144) (h : sameButRepair f g) : sameButRepair f (fuseWrite g n v) := by
  induction f, g using sameButRepair.induct generalizing n with
  | case1 => exact h
  | case2 a f b g ih =>
    obtain ⟨hab, hfg⟩ := h
    cases n with
    | zero =>
      refine ⟨?_, hfg⟩
      rw [show nth (b :: g) 0 0 = b from rfl] at same ⊢
      rw [BitVec.ushiftRight_or_distrib, ← same, BitVec.or_self, hab]
    | succ n => exact ⟨hab, ih n same hfg⟩
  | case3 => simp_all [sameButRepair]

theorem ushiftRight_eq_of_div_eq {n : Nat} {a b : BitVec n} {k : Nat} (h : a.toNat / 2 ^ k = b.toNat / 2 ^ k) : a >>> k = b >>> k :=
  BitVec.eq_of_toNat_eq (by simpa [Nat.shiftRight_eq_div_pow] using h)

/-- A request that fits leaves everything outside REPAIR as it stands. -/
theorem ushiftRight_eq_of_repairFits {old new : BitVec 8192} (h : repairFits old new = true) : old >>> 6144 = new >>> 6144 :=
  ushiftRight_eq_of_div_eq (beq_iff_eq.mp (Bool.and_eq_true_iff.mp h).1)

theorem repairFits_of_fuseOk {s : State} {m : MbRef} (h : s.fuseOk m = true) :
    repairFits (nth s.fuses (fuseTarget (s.mbox m).req) 0) (fuseImage (s.mbox m).req) = true :=
  (Bool.and_eq_true_iff.mp h).2

/-- What any command can do to the fuses: nothing, or one image that fits burned over its block. -/
theorem fuses_of_exec {c : Instr} {s t : State} (h : exec c s = .next t) :
    t.fuses = s.fuses ∨ ∃ n v, repairFits (nth s.fuses n 0) v = true ∧ t.fuses = fuseWrite s.fuses n v := by
  by_cases hc : ∃ m, c = .fuse m
  · obtain ⟨m, rfl⟩ := hc
    obtain ⟨b, hb⟩ := fuse_shape m s
    obtain rfl := Host.Outcome.next.inj (hb.symm.trans h)
    by_cases hok : (s.serves && s.fuseOk m) = true
    · exact .inr ⟨_, _, repairFits_of_fuseOk (Bool.and_eq_true_iff.mp hok).2, if_pos hok⟩
    · exact .inl (if_neg hok)
  · rcases exec_shape c s fun m e => hc ⟨m, e⟩ with ⟨b, hb⟩ | ⟨f, hf, -⟩
    · obtain rfl := Host.Outcome.next.inj (hb.symm.trans h)
      exact .inl rfl
    · cases hf.symm.trans h

/-- What a step can do to the fuses. -/
theorem fuses_of_step {s t : State} (h : step s = .next t) :
    t.fuses = s.fuses ∨ ∃ n v, repairFits (nth s.fuses n 0) v = true ∧ t.fuses = fuseWrite s.fuses n v := by
  unfold step at h
  split at h
  next =>
    obtain rfl := Host.Outcome.next.inj h
    exact .inl rfl
  next c rest _ => exact fuses_of_exec (s := { s with pending := rest }) h

/-- Settles O4: a step leaves the fuses or burns one image that fits over its block. -/
theorem fusesOnlyGrow : Obligations.FusesOnlyGrow := by
  intro f0 s t hgrow hsame hstep
  rcases fuses_of_step hstep with hkept | ⟨n, v, hfits, hwritten⟩
  · rw [hkept]
    exact ⟨hgrow, hsame⟩
  · rw [hwritten]
    exact ⟨fusesGrow_fuseWrite n v hgrow, sameButRepair_fuseWrite n v (ushiftRight_eq_of_repairFits hfits) hsame⟩

end Sys2Proof.Machine
end

section
/-! SUPPORT. Mailbox operations (13 Table 13-2, R343; 16 R410): what the answer of a ready operation shows, and what it leaves alone. -/
namespace Sys2Proof.Machine

variable (s : Body)

/-! ### What an answer leaves alone -/

theorem quietBox_of_quiet {a b : Body} (h : a.quiet = b.quiet) : a.quietBox = b.quietBox := by
  unfold Body.quietBox; rw [h]

@[simp] theorem quietBox_setMbox (m : MbRef) (b : Mailbox) : (s.setMbox m b).quietBox = s.quietBox := by
  cases m with
  | hif i => exact quietBox_of_quiet (quiet_modIfc s i _)
  | mgmt a p => rfl

@[simp] theorem quietBox_sendAnswer (m : MbRef) (st : Nat) (ans : List Byte) : (s.sendAnswer m st ans).quietBox = s.quietBox := by
  cases m with
  | hif i => rfl
  | mgmt a p => exact foldl_keeps Body.quietBox (fun b x => b.putOut (.mgmt a p (BitVec.ofNat 8 st) x)) (fun _ _ => rfl) _ s

@[simp] theorem quietBox_answer (m : MbRef) (st : Nat) (ans : List Byte) : (s.answer m st ans).quietBox = s.quietBox := by
  unfold Body.answer
  cases m with
  | hif i => dsimp only; split <;> simp
  | mgmt a p => simp

@[simp] theorem quiet_mbAudit (m : MbRef) (op st : Nat) (req : List Byte) (id : W32) (r : Role) :
    (s.mbAudit m op st req id r).quiet = s.quiet := by
  unfold Body.mbAudit; split <;> simp

/-! ### What an answer shows -/

/-- The first datagram of an answer carries its first part. -/
theorem first_piece (ans : List Byte) :
    ans.take partMax ∈ if ans.isEmpty then [[]] else pieces partMax (ans.length / partMax + 1) ans := by
  cases ans <;> simp [pieces]

theorem out_sendAnswer (a : BitVec 128) (p : W16) (st : Nat) (ans : List Byte) :
    Out.mgmt a p (BitVec.ofNat 8 st) (ans.take partMax) ∈ (s.sendAnswer (.mgmt a p) st ans).out := by
  have sent : ∀ (l : List (List Byte)) (b : Body) (x : List Byte), x ∈ l →
      Out.mgmt a p (BitVec.ofNat 8 st) x ∈ (l.foldl (fun s x => s.putOut (.mgmt a p (BitVec.ofNat 8 st) x)) b).out := by
    intro l
    induction l with
    | nil => intro b x hx; cases hx
    | cons y t ih =>
      intro b x hx
      rcases List.mem_cons.mp hx with rfl | hx
      · exact (foldl_grows _ (fun b _ => grows_putOut b _) t _).mem (by simp [Body.putOut])
      · exact ih _ x hx
  exact sent _ s _ (first_piece ans)

/-- The operation of a mailbox that was not aborted ends with its status and answer. -/
theorem answered_answer {m : MbRef} (st : Nat) (ans : List Byte) (h : (s.mbox m).dropAnswer = false) :
    (s.answer m st ans).answered m st ans := by
  cases m with
  | hif i =>
    unfold Body.answer
    dsimp only
    rw [h]
    simp [Body.answered, Body.setMbox, Body.modIfc, List.take_append]
  | mgmt a p => exact out_sendAnswer _ a p st ans

/-! ### A ready operation -/

/-- A ready operation takes its effect, and its audit record and its answer follow. -/
theorem exec_of_run {s u : State} {m : MbRef} {op : Nat} (h : MbReady u m op) {bad : List Byte → Bool}
    {run : Body → Mailbox → MbRes} (hgood : bad (u.toBody.mbox m).req = false) {res : MbRes}
    (hrun : run u.toBody (u.toBody.mbox m) = res) {c : Instr} (hc : exec c s = onMailbox u fun b => b.mbRun m op bad run) :
    ∃ id role, exec c s = .next { u with
      toBody := (res.s.mbAudit m op res.status (u.toBody.mbox m).req id role).answer m res.status res.ans } := by
  let as := res.now.getD ((u.toBody.mbox m).reqSession, (u.toBody.mbox m).reqRole)
  refine ⟨as.1, as.2, hc.trans ?_⟩
  unfold onMailbox onBody
  dsimp only
  rw [if_pos h.serves, mbRun_of_ready h bad run hgood]
  dsimp only
  rw [hrun]

/-- Once its effect has kept the mailboxes, the end of an operation shows its answer and leaves all but reports. -/
theorem ends_of_boxes {b u : Body} {m : MbRef} (hkept : (b.mbox m).dropAnswer = false) (hboxes : u.boxes = b.boxes) (op st : Nat)
    (req ans : List Byte) (id : W32) (role : Role) : ((u.mbAudit m op st req id role).answer m st ans).answered m st ans
      ∧ ((u.mbAudit m op st req id role).answer m st ans).quietBox = u.quietBox := by
  refine ⟨answered_answer _ _ _ ?_, ?_⟩
  · rw [mbox_of_boxes ((boxes_mbAudit ..).trans hboxes), hkept]
  · rw [quietBox_answer, quietBox_of_quiet (quiet_mbAudit ..)]

/-- A ready operation that keeps the mailboxes is answered, and all but reports is as its effect leaves it. -/
theorem answers_of_run {s u : State} {m : MbRef} {op : Nat} (h : MbReady u m op) {bad : List Byte → Bool}
    {run : Body → Mailbox → MbRes} (hgood : bad (u.toBody.mbox m).req = false) {res : MbRes}
    (hrun : run u.toBody (u.toBody.mbox m) = res) (hboxes : res.s.boxes = u.toBody.boxes) {c : Instr}
    (hc : exec c s = onMailbox u fun b => b.mbRun m op bad run) :
    ∃ t, exec c s = .next t ∧ t.toBody.answered m res.status res.ans ∧ t.toBody.quietBox = res.s.quietBox ∧ t.fuses = u.fuses := by
  obtain ⟨id, role, hexec⟩ := exec_of_run h hgood hrun hc
  obtain ⟨hans, hquiet⟩ := ends_of_boxes h.kept hboxes op res.status (u.toBody.mbox m).req res.ans id role
  exact ⟨_, hexec, hans, hquiet, rfl⟩

/-- A ready operation that changes nothing itself answers and leaves all but reports. -/
theorem reads_of_run {s : State} {m : MbRef} {op : Nat} (h : MbReady s m op) {bad : List Byte → Bool}
    (hgood : bad (s.toBody.mbox m).req = false) {f : Body → Mailbox → List Byte} {c : Instr}
    (hc : exec c s = onMailbox s fun b => b.mbRun m op bad fun s b => { s, ans := f s b }) :
    ∃ t, exec c s = .next t ∧ t.toBody.answered m 0 (f s.toBody (s.toBody.mbox m)) ∧ t.toBody.quietBox = s.toBody.quietBox := by
  obtain ⟨t, ht, hans, hquiet, -⟩ := answers_of_run h hgood rfl rfl hc
  exact ⟨t, ht, hans, hquiet⟩

/-! ### The operations that only read -/

/-- Settles O22: each operation is ready, its request well formed, and its answer is a function of the body alone. -/
theorem mailboxReads : Obligations.MailboxReads := by
  intro s m b answers
  refine ⟨fun h hlen => ?attest, fun h hempty => ?cert, fun h hlen => ?catalog, fun h hlen hcount => ?audit, fun h hempty => ?profile,
    fun h hlen => ?test⟩
  case attest => exact reads_of_run h (by simpa using hlen) (exec_attest s m)
  case cert => exact reads_of_run h (by simpa using hempty) (exec_cert s m)
  case catalog => exact reads_of_run h (by simpa using hlen) (exec_catalog s m)
  case audit =>
    have hanswer := reads_of_run h (by simpa using ⟨hlen, hcount⟩) (exec_auditRead s m)
    simpa [answers] using hanswer
  case profile => exact reads_of_run h (by simpa using hempty) (exec_profileRead s m)
  case test => exact reads_of_run h (by simpa using hlen) (exec_mfgTest s m)

/-! ### FUSE (15 R387, R388) -/

theorem fuseOk_of_ready {s : State} {m : MbRef} (h : MbReady s m 0x30) (hlen : (s.toBody.mbox m).req.length = 1025)
    (hblock : fuseTarget (s.toBody.mbox m).req < 6) :
    s.fuseOk m = repairFits (nth s.fuses (fuseTarget (s.toBody.mbox m).req) 0) (fuseImage (s.toBody.mbox m).req) := by
  have hop : (s.toBody.mbox m).reqOp = 0x30 := BitVec.eq_of_toNat_eq h.opIs
  simp [State.fuseOk, h.running, hop, h.up, h.allowed, hlen, hblock]

/-- Settles O24: the image fits, and then its block is written and measured anew, or it does not, and nothing is. -/
theorem fuseWritesRepairEntries : Obligations.FuseWritesRepairEntries := by
  intro s m h b n hlen hblock _
  set fits := repairFits (nth s.fuses n 0) (fuseImage b.req) with hfits
  have hok : (s.serves && s.fuseOk m) = fits := by rw [show s.serves = true from h.serves, fuseOk_of_ready h hlen hblock, Bool.true_and]
  set after := if s.serves && s.fuseOk m then fuseWrite s.fuses n (fuseImage b.req) else s.fuses with hafter
  have hready : MbReady { s with fuses := after } m 0x30 := ⟨h.serves, h.running, h.opIs, h.up, h.kept, h.allowed⟩
  have hexec : exec (.fuse m) s = onMailbox { s with fuses := after } fun x => x.opFuse m fits (sha384 (fuseRecord after)) := rfl
  have hwell : (b.req.length != 1025 || decide (fuseTarget b.req ≥ 6)) = false := by simp [hlen]; exact hblock
  rw [hok] at hafter
  cases hcase : fits with
  | true =>
    have hrun : ((b.req.length != 1025 || decide (fuseTarget b.req ≥ 6)) || !fits) = false := by rw [hwell, hcase]; rfl
    obtain ⟨t, ht, hans, hquiet, hfuses⟩ := answers_of_run hready rfl (if_neg (by rw [hrun]; decide)) rfl hexec
    rw [hcase, if_pos rfl] at hafter
    exact ⟨t, ht, fun _ => ⟨hans, hfuses.trans hafter, by rw [hquiet, hfuses]⟩, fun no => absurd no (by decide)⟩
  | false =>
    have hrun : ((b.req.length != 1025 || decide (fuseTarget b.req ≥ 6)) || !fits) = true := by rw [hcase]; simp
    obtain ⟨t, ht, hans, hquiet, hfuses⟩ := answers_of_run hready rfl (if_pos hrun) rfl hexec
    rw [hcase, if_neg (by decide)] at hafter
    exact ⟨t, ht, fun yes => absurd yes (by decide), fun _ => ⟨hans, hfuses.trans hafter, hquiet⟩⟩

end Sys2Proof.Machine
end

section
/-! SUPPORT. Sessions of a mailbox (13 R340-R342, Table 13-2). -/
namespace Sys2Proof.Machine

variable (s : Body)

/-! ### Challenges -/

theorem length_newChallenge (o : MbRef) (ring : Option (Fin 64)) : (s.newChallenge o ring).1.length = 64 := by
  simp [Body.newChallenge, Body.rand256, Body.serialBytes]

/-! ### Session IDs -/

/-- The IDs that a new session is offered are all different. -/
theorem nodup_candidateIds (v : W32) : ((List.range 258).map fun k => v + BitVec.ofNat 32 k).Nodup := by
  refine List.Nodup.map_on (fun j hj k hk h => ?_) List.nodup_range
  have heq : BitVec.ofNat 32 j = BitVec.ofNat 32 k := by simpa using h
  have hnat := congrArg BitVec.toNat heq
  simp only [List.mem_range] at hj hk
  simp only [BitVec.toNat_ofNat] at hnat
  omega

/-- While fewer than 256 sessions are open, some offered ID is neither 0 nor in use. -/
theorem exists_freshId (v : W32) {used : List W32} (h : used.length < 256) :
    ∃ x ∈ (List.range 258).map (fun k => v + BitVec.ofNat 32 k), (x != 0 && !used.contains x) = true := by
  by_contra hall
  have hsub : (List.range 258).map (fun k => v + BitVec.ofNat 32 k) ⊆ 0 :: used := fun x hx => by
    have := fun hgood => hall ⟨x, hx, hgood⟩
    by_cases h0 : x = 0 <;> simp_all
  have hlen := (List.Nodup.subperm (nodup_candidateIds v) hsub).length_le
  simp at hlen
  omega

theorem freshId_fresh (h : s.sec.sessions.length < 256) :
    s.freshId.1 ≠ 0 ∧ ∀ y ∈ s.sec.sessions, y.id ≠ s.freshId.1 := by
  obtain ⟨x, hx⟩ := Option.isSome_iff_exists.mp (List.find?_isSome.mpr
    (exists_freshId (Config.random32 s.free) (used := s.sec.sessions.map fun x => x.id) (by simpa using h)))
  have hid : s.freshId.1 = x := by
    unfold Body.freshId Body.rand32
    dsimp only
    rw [hx]
    rfl
  have hgood := List.find?_some hx
  rw [hid]
  simp at hgood
  exact ⟨hgood.1, fun y hy e => hgood.2 y hy e⟩

/-! ### Opening and elevating -/

theorem roleOfCode_of_proofOk {s : Body} {o : MbRef} {ring : Option (Fin 64)} {p : List Byte} {sigOk : Bool}
    (h : s.proofOk o ring p sigOk = true) : roleOfCode (proofRole p) ≠ .none := by
  have hknown : s.keyKnown (proofRole p) (proofKey p) = true := by
    simp only [Body.proofOk, Bool.and_eq_true] at h
    exact h.1.1.2
  unfold Body.keyKnown at hknown
  split at hknown
  · simp [*, roleOfCode]
  · simp [*, roleOfCode]
  · simp [*, roleOfCode]
  · cases hknown

/-- The session that a mailbox opens with a proof. -/
def openedBy (id : W32) (o : MbRef) (p : List Byte) : Session :=
  { id, role := roleOfCode (proofRole p), key := BitVec.ofNat 16 (proofKey p), opened := roleOfCode (proofRole p), path := some o }

/-- OPEN with a good proof, no lockout and room for a session consumes the challenge and adds the session. -/
theorem openSession_of_proofOk {o : MbRef} {p : List Byte} {sigOk : Bool} (hproof : s.proofOk o none p sigOk = true)
    (hopen : s.lockedOut o = false) (hroom : s.sec.sessions.length < 256) :
    ∃ id free, id ≠ 0 ∧ (∀ y ∈ s.sec.sessions, y.id ≠ id) ∧ s.openSession o none p sigOk = (0, id, { s.dropChallenge o none with
      sec := { (s.dropChallenge o none).sec with sessions := s.sec.sessions ++ [openedBy id o p] }, free }) := by
  obtain ⟨hzero, hused⟩ := freshId_fresh (s.dropChallenge o none) hroom
  refine ⟨(s.dropChallenge o none).freshId.1, s.free + 1, hzero, hused, ?_⟩
  unfold Body.openSession
  dsimp only
  rw [hproof, hopen, if_neg (by decide), if_neg (show ¬ (s.dropChallenge o none).sec.sessions.length ≥ 256 from Nat.not_le.mpr hroom)]
  rfl

/-- ELEVATE with a good proof of a role above the session's consumes the challenge and raises the session. -/
theorem elevate_of_proofOk {o : MbRef} {id : W32} {p : List Byte} {sigOk : Bool} (hproof : s.proofOk o none p sigOk = true)
    (hopen : s.lockedOut o = false)
    (habove : (s.session id).any (fun y => roleRank y.role < roleRank (roleOfCode (proofRole p))) = true) :
    s.elevate o none id true p sigOk = (0, { s.dropChallenge o none with sec := { (s.dropChallenge o none).sec with
      sessions := s.sec.sessions.map fun (x : Session) => if x.id = id then { x with role := roleOfCode (proofRole p) } else x } }) := by
  unfold Body.elevate
  dsimp only
  rw [hproof, hopen, habove, if_pos (by decide)]
  rfl

theorem boxes_closeSession (id : W32) : (s.closeSession id).boxes = s.boxes :=
  Prod.ext (funext fun i => by
    show ((s.closeSession id).ifc i).mailbox = (s.ifc i).mailbox
    unfold Body.ifc; split <;> rfl) rfl

/-- Settles O21: each operation is ready and its request well formed, so what it does is `Body.newChallenge`, `Body.openSession`,
`Body.elevate` or `Body.closeSession` alone. -/
theorem mailboxSessions : Obligations.MailboxSessions := by
  intro s m b x others
  refine ⟨fun h hempty => ?challenge, fun sigOk h hlen hproof hopen hroom => ?opened,
    fun sigOk h hlen hown hproof hopen habove => ?elevated, fun h hlen hown => ?closed⟩
  case challenge =>
    obtain ⟨t, ht, hans, hquiet, -⟩ := answers_of_run h (by simpa using hempty) rfl rfl (exec_mailboxChallenge s m)
    exact ⟨_, t, ht, length_newChallenge s.toBody m none, hans, hquiet⟩
  case opened =>
    obtain ⟨id, free, hzero, hused, hdone⟩ := openSession_of_proofOk s.toBody hproof hopen hroom
    have hgood : (b.req.length != proofBytes || roleOfCode (proofRole b.req) == .none) = false := by
      simp [hlen, roleOfCode_of_proofOk hproof]
    obtain ⟨t, ht, hans, hquiet, -⟩ := answers_of_run h hgood (by rw [hdone]) rfl (exec_mailboxOpen s m sigOk)
    exact ⟨id, t, ht, hans, hzero, hused, hquiet⟩
  case elevated =>
    have hdone := elevate_of_proofOk s.toBody hproof hopen habove
    have hgood : (b.req.length != 4 + proofBytes || roleOfCode (proofRole (b.req.drop 4)) == .none) = false := by
      simp [hlen, roleOfCode_of_proofOk hproof]
    obtain ⟨t, ht, hans, hquiet, -⟩ := answers_of_run h hgood (by rw [hown, hdone]) rfl
      (exec_mailboxElevate s m sigOk)
    exact ⟨t, ht, hans, hquiet⟩
  case closed =>
    obtain ⟨t, ht, hans, hquiet, -⟩ := answers_of_run h (by simpa using hlen) (if_pos hown) (boxes_closeSession ..)
      (exec_mailboxClose s m)
    exact ⟨t, ht, hans, hquiet⟩

end Sys2Proof.Machine
end

section
/-! SUPPORT. The mailbox operations that write (13 R338, R339, R345, R350, R353; 16 R412; 12 Table 12-3). -/
namespace Sys2Proof.Machine

variable (s : Body)

/-- Security without its audit chain, which is a report, and without the management port's mailboxes. -/
def Sec.core (x : Sec) : Sec := { x with audit := {}, mgmtBoxes := [] }

theorem core_of_quietBox {a b : Body} (h : a.quietBox = b.quietBox) : a.sec.core = b.sec.core := congrArg Body.sec h

/-- Security agrees on its key store and sessions where it agrees on its core. -/
theorem keys_of_core {x y : Sec} (h : x.core = y.core) : x.operKeys = y.operKeys ∧ x.instKeys = y.instKeys ∧ x.plane0 = y.plane0
    ∧ x.plane1 = y.plane1 ∧ x.sessions = y.sessions :=
  ⟨(congrArg Sec.operKeys h :), (congrArg Sec.instKeys h :), (congrArg Sec.plane0 h :), (congrArg Sec.plane1 h :),
    (congrArg Sec.sessions h :)⟩

theorem fw_of_core {x y : Sec} (h : x.core = y.core) : x.fw = y.fw := (congrArg Sec.fw h :)

/-! ### The audit chain (13 R345) -/

@[simp] theorem sec_eventTo (i : Fin 2) (e : Ev) : (s.eventTo i e).sec = s.sec := by
  unfold Body.eventTo; dsimp only; split <;> simp

@[simp] theorem sec_emit (c : Nat) (p : List Nat) : (s.emit c p).sec = s.sec := by
  unfold Body.emit Body.eventOut; dsimp only; split
  · rw [sec_eventTo, sec_eventTo]
  · rfl

/-- The record that chaining `b` makes: it carries the next SEQ and the new CHAIN. -/
def Body.nextRecord (s : Body) (b : BitVec 640) : AuditRec :=
  let c := setFld b 63 0 s.sec.audit.seq.toNat
  ⟨c, sha384 (digestBytes s.sec.audit.chain ++ auditBytes c)⟩

theorem sec_chainOne (b : BitVec 640) : (s.chainOne b).sec = { s.sec with audit := { s.sec.audit with
    chain := (s.nextRecord b).chain, seq := s.sec.audit.seq + 1, since := s.sec.audit.since + 1
    ring := (s.sec.audit.ring ++ [s.nextRecord b]).drop (s.sec.audit.ring.length + 1 - 122880) } } := by
  unfold Body.chainOne Body.exportAudit
  dsimp only
  rw [sec_emit, sec_emit, sec_emit]
  rfl

/-- A ring that keeps its latest entries keeps the one just added. -/
theorem getLast?_drop_append {α : Type} (l : List α) (a : α) {n : Nat} (h : 0 < n) :
    ((l ++ [a]).drop (l.length + 1 - n)).getLast? = some a := by
  rw [List.drop_append_of_le_length (by omega), List.getLast?_append]
  rfl

/-- While the management plane runs, an audited change is the last record of the ring. -/
theorem last_audit (a : AuditArgs) (h : s.planes.mgmtRestart = false) :
    ∃ r, (s.audit a).sec.audit.ring.getLast? = some r
      ∧ (s.mram.gapOwed = false → r.chain = sha384 (digestBytes s.sec.audit.chain ++ auditBytes r.body)) := by
  unfold Body.audit
  rw [if_neg (by simp [h]), sec_chainOne]
  dsimp only
  rw [getLast?_drop_append _ _ (by norm_num)]
  refine ⟨_, rfl, fun howed => ?_⟩
  rw [show s.payGap = s from if_neg (by simp [howed])]
  rfl

/-- So is the operation of a mailbox that 13 R344 audits. -/
theorem last_mbAudit {op : Nat} (m : MbRef) (st : Nat) (req : List Byte) (id : W32) (role : Role) (ha : mbAudited op = true)
    (h : s.planes.mgmtRestart = false) : ∃ r, (s.mbAudit m op st req id role).sec.audit.ring.getLast? = some r
      ∧ (s.mram.gapOwed = false → r.chain = sha384 (digestBytes s.sec.audit.chain ++ auditBytes r.body)) := by
  unfold Body.mbAudit
  rw [if_pos ha]
  exact last_audit s _ h

@[simp] theorem audit_answer (m : MbRef) (st : Nat) (ans : List Byte) : (s.answer m st ans).sec.audit = s.sec.audit := by
  have hset : ∀ b, (s.setMbox m b).sec.audit = s.sec.audit := fun b => by
    cases m with
    | hif i => simp [Body.setMbox, Body.modIfc]
    | mgmt a p => rfl
  unfold Body.answer
  cases m with
  | hif i => dsimp only; split <;> exact hset _
  | mgmt a p =>
    have hsent := foldl_keeps (fun b : Body => b.sec.audit) (fun b x => b.putOut (.mgmt a p (BitVec.ofNat 8 st) x)) fun _ _ => rfl
    exact (hsent _ _).trans (hset _)

/-! ### Sessions that end with their key (13 R339) -/

/-- Security without its audit chain, which is a report. -/
def Sec.sansAudit (x : Sec) : Sec := { x with audit := {} }

theorem sansAudit_withAudit (x : Sec) (a : Audit) : { x with audit := a }.sansAudit = x.sansAudit := rfl

theorem sansAudit_payGap : s.payGap.sec.sansAudit = s.sec.sansAudit := by
  unfold Body.payGap; split
  · rw [sec_chainOne]; exact sansAudit_withAudit s.sec _
  · rfl

theorem sansAudit_audit (a : AuditArgs) : (s.audit a).sec.sansAudit = s.sec.sansAudit := by
  unfold Body.audit; extract_lets; split
  · exact sansAudit_withAudit s.sec _
  · rw [sec_chainOne]; exact (sansAudit_withAudit ..).trans (sansAudit_payGap s)

theorem sansAudit_endSession (id : W32) : (s.endSession id).sec.sansAudit
    = { s.sec.sansAudit with sessions := s.sec.sessions.filter fun x => x.id != id } := by
  unfold Body.endSession
  split
  next hnone =>
    rw [List.filter_eq_self.mpr fun x hx => by simpa using List.find?_eq_none.mp hnone x hx]
    rfl
  next => exact sansAudit_audit ..

/-- Ending sessions removes them from the list and touches nothing else of security but the audit chain. -/
theorem sansAudit_foldl_endSession (ids : List W32) : (ids.foldl (fun s id => s.endSession id) s).sec.sansAudit
    = { s.sec.sansAudit with sessions := s.sec.sessions.filter fun x => x.id ∉ ids } := by
  induction ids generalizing s with
  | nil => simp [Sec.sansAudit]
  | cons id t ih =>
    have hone := sansAudit_endSession s id
    have hleft : (s.endSession id).sec.sessions = s.sec.sessions.filter fun x => x.id != id := congrArg Sec.sessions hone
    have hboth : (s.sec.sessions.filter fun x => decide (x.id ∉ t) && x.id != id) = s.sec.sessions.filter fun x => x.id ∉ id :: t :=
      List.filter_congr fun x _ => by by_cases hid : x.id = id <;> simp [hid]
    rw [List.foldl_cons, ih, hone, hleft, List.filter_filter, hboth]

/-- The sessions left when those that `which` picks have ended: some of those that were open, none of them picked. -/
theorem sansAudit_endSessions (which : Session → Bool) : ∃ left, (s.endSessions which).sec.sansAudit
    = { s.sec.sansAudit with sessions := left } ∧ ∀ y ∈ left, y ∈ s.sec.sessions ∧ which y = false := by
  refine ⟨_, sansAudit_foldl_endSession s _, fun y hy => ?_⟩
  obtain ⟨hmem, hkept⟩ := List.mem_filter.mp hy
  refine ⟨hmem, Bool.eq_false_iff.mpr fun hwhich => ?_⟩
  simp only [decide_eq_true_eq] at hkept
  exact hkept (List.mem_map_of_mem (f := fun x : Session => x.id) (List.mem_filter.mpr ⟨hmem, hwhich⟩))

/-- The body over key store `y`, the sessions that were opened with role `r` and key `id` ended. -/
def Body.rekeyed (s : Body) (y : Sec) (r : Role) (id : W16) : Body :=
  ({ s with sec := y } : Body).endSessions (fun x => x.opened == r && x.key == id)

/-- There security is `y` but for the sessions: those left were open, and none was opened with that role and key. -/
theorem core_rekeyed (y : Sec) (r : Role) (id : W16) : ∃ left, (s.rekeyed y r id).sec.core = ({ y with sessions := left } : Sec).core
    ∧ ∀ z ∈ left, z ∈ y.sessions ∧ (z.key = id → z.opened ≠ r) := by
  obtain ⟨left, hleft, hkept⟩ := sansAudit_endSessions ({ s with sec := y } : Body) (fun x => x.opened == r && x.key == id)
  refine ⟨left, (congrArg Sec.core hleft :), fun z hz => ⟨(hkept z hz).1, fun hkey hrole => ?_⟩⟩
  simpa [hkey, hrole] using (hkept z hz).2

theorem boxes_endSession (id : W32) : (s.endSession id).boxes = s.boxes := by
  unfold Body.endSession; split
  · rfl
  · rw [boxes_audit]; exact boxes_closeSession s id

theorem boxes_rekeyed {y : Sec} (r : Role) (id : W16) (h : y.mgmtBoxes = s.sec.mgmtBoxes) : (s.rekeyed y r id).boxes = s.boxes := by
  refine (foldl_keeps Body.boxes _ boxes_endSession _ _).trans (Prod.ext rfl h)

/-! ### The first installer key (13 R338, R345) -/

/-- What CLAIM does: the request's key is the installer key, and the audit chain starts anew. -/
def Body.claimed (s : Body) (req : List Byte) : Body :=
  { s with sec := { s.sec with
      instKeys := [⟨BitVec.ofNat 16 (leAt req 0 2), req.drop 2⟩]
      audit := { s.sec.audit with chain := sha384 (ascii "HLMAUDG1" ++ s.serialBytes) } } }

theorem quietBox_claimed (req : List Byte) : (s.claimed req).quietBox = ({ s with sec := { s.sec with
    instKeys := [⟨BitVec.ofNat 16 (leAt req 0 2), req.drop 2⟩] } } : Body).quietBox := by
  simp only [Body.claimed, Body.quietBox, Body.quiet]

theorem boxes_claimed (req : List Byte) : (s.claimed req).boxes = s.boxes := rfl

theorem boxes_setPlaneKey (slot : Nat) (k : Option (List Byte)) : (s.setPlaneKey slot k).boxes = s.boxes := by
  unfold Body.setPlaneKey; split <;> rfl

/-! ### Approvals (13 R350) -/

theorem image_setImage (k j : Nat) (x : FwImage) :
    (s.setImage k x).image j = if j = k ∧ k < s.sec.fw.length then x else s.image j := by
  unfold Body.image Body.setImage setNth nth
  rw [List.getElem?_set]
  by_cases hj : k = j
  · subst hj
    by_cases hk : k < s.sec.fw.length <;> simp [hk]
  · simp [hj, Ne.symm hj]

theorem length_setImage (k : Nat) (x : FwImage) : (s.setImage k x).sec.fw.length = s.sec.fw.length := List.length_set

/-- The image list with `d` approved as its latest, of 16 at most. -/
def approve (d : BitVec 384) (s : Body) (k : Nat) : Body :=
  let x := s.image k
  let l := (x.approvals.filter (· != d)) ++ [d]
  s.setImage k { x with approvals := l.drop (l.length - 16) }

theorem mem_approvals_approve (d : BitVec 384) (j k : Nat) (h : d ∈ (s.image j).approvals ∨ (j = k ∧ j < s.sec.fw.length)) :
    d ∈ ((approve d s k).image j).approvals := by
  unfold approve
  dsimp only
  rw [image_setImage]
  split
  next =>
    refine List.mem_of_getLast? ?_
    rw [List.length_append, List.length_singleton, getLast?_drop_append _ _ (by norm_num)]
  next hother =>
    rcases h with h | ⟨rfl, hlt⟩
    · exact h
    · exact absurd ⟨rfl, hlt⟩ hother

/-- Each kind named holds the approval in the end: later kinds of the round leave it. -/
theorem mem_approvals_foldl (d : BitVec 384) (l : List Nat) {j : Nat} (hj : j < s.sec.fw.length)
    (h : d ∈ (s.image j).approvals ∨ j ∈ l) : d ∈ ((l.foldl (approve d) s).image j).approvals := by
  induction l generalizing s with
  | nil => simpa using h
  | cons k t ih =>
    refine ih (approve d s k) (by rwa [show (approve d s k).sec.fw.length = _ from length_setImage ..]) ?_
    rcases h with h | h
    · exact .inl (mem_approvals_approve s d j k (.inl h))
    · rcases List.mem_cons.mp h with rfl | h
      · exact .inl (mem_approvals_approve s d j j (.inr ⟨rfl, hj⟩))
      · exact .inr h

theorem boxes_foldl_approve (d : BitVec 384) (l : List Nat) : (l.foldl (approve d) s).boxes = s.boxes :=
  foldl_keeps Body.boxes (approve d) (fun _ _ => rfl) l s

/-! ### The operations -/

/-- A well formed ENROLL or REVOKE request names an operator key, an installer key or a plane key. -/
theorem kind_of_keyHead {r : List Byte} (h : keyHeadBad r = false) :
    keyKind r = 1 ∨ keyKind r = 2 ∨ (keyKind r = 4 ∧ keyIdOf r < 2) := by
  simp only [keyHeadBad, Bool.not_eq_false', Bool.or_eq_true, Bool.and_eq_true, beq_iff_eq, decide_eq_true_eq] at h
  exact or_assoc.mp h

/-- Settles O23: each operation is ready and its request well formed, and each writes its own part of the body. -/
theorem mailboxWrites : Obligations.MailboxWrites := by
  intro s m b x
  refine ⟨?claim, ?enroll, ?revoke, ?profile, ?approve, ?commit, ?clear⟩
  case claim =>
    intro h hlen hnone
    have hgood : (b.req.length != 2 + keyBytes) = false := by simp [hlen]
    have hrun : (!s.sec.instKeys.isEmpty) = false := by rw [show s.sec.instKeys = [] from hnone]; rfl
    obtain ⟨id, role, hexec⟩ := exec_of_run (res := { s := s.toBody.claimed b.req }) h hgood (if_neg (by rw [hrun]; decide))
      (exec_claim s m)
    obtain ⟨hans, hquiet⟩ := ends_of_boxes h.kept (boxes_claimed s.toBody b.req) 0x20 0 b.req [] id role
    obtain ⟨r, hlast, hchain⟩ := last_mbAudit (s.toBody.claimed b.req) m 0 b.req id role (op := 0x20) rfl h.up
    refine ⟨_, hexec, hans, hquiet.trans (quietBox_claimed ..), r, ?_, hchain⟩
    rw [audit_answer]
    exact hlast
  case enroll =>
    intro h hhead hlen key room new hroom
    have hgood : (keyHeadBad b.req || b.req.length != 4 + (if keyKind b.req = 4 then 48 else keyBytes)) = false := by
      simp [hhead, hlen]
    rcases kind_of_keyHead hhead with hkind | hkind | ⟨hkind, hslot⟩
    · have hfits : keyRoom x.operKeys key.id = true := by simpa [room, hkind] using hroom
      obtain ⟨t, ht, hans, hquiet, -⟩ := answers_of_run
        (res := { s := { s.toBody with sec := { x with operKeys := putKey x.operKeys key } } }) h hgood
        (by dsimp only; rw [hkind]; exact if_pos hfits) rfl (exec_enroll s m)
      exact ⟨t, ht, hans, by simpa [new, hkind] using hquiet⟩
    · have hfits : keyRoom x.instKeys key.id = true := by simpa [room, hkind] using hroom
      obtain ⟨t, ht, hans, hquiet, -⟩ := answers_of_run
        (res := { s := { s.toBody with sec := { x with instKeys := putKey x.instKeys key } } }) h hgood
        (by dsimp only; rw [hkind]; exact if_pos hfits) rfl (exec_enroll s m)
      exact ⟨t, ht, hans, by simpa [new, hkind] using hquiet⟩
    · obtain ⟨t, ht, hans, hquiet, -⟩ := answers_of_run (res := { s := s.toBody.setPlaneKey (keyIdOf b.req) (some (b.req.drop 4)) })
        h hgood (by dsimp only; rw [hkind]; rfl) (boxes_setPlaneKey ..) (exec_enroll s m)
      refine ⟨t, ht, hans, hquiet.trans (congrArg Body.quietBox (congrArg (fun y => { s.toBody with sec := y }) ?_))⟩
      simp [new, hkind, x]
  case revoke =>
    intro h hhead hlen id without hkeys
    have hgood : (keyHeadBad b.req || b.req.length != 4) = false := by simp [hhead, hlen]
    rcases hkeys with hkind | ⟨hkind, hthere⟩ | ⟨hkind, hthere, hmore⟩
    · obtain ⟨t, ht, hans, hquiet, -⟩ := answers_of_run (res := { s := s.toBody.setPlaneKey (keyIdOf b.req) none }) h hgood
        (by dsimp only; rw [hkind]; rfl) (boxes_setPlaneKey ..) (exec_revoke s m)
      obtain ⟨hoper, hinst, hplane0, hplane1, hsessions⟩ := keys_of_core (core_of_quietBox hquiet)
      refine ⟨t, ht, hans, ?_⟩
      rw [hoper, hinst, hplane0, hplane1, hsessions]
      by_cases hslot : keyIdOf b.req = 0 <;> simp [Body.setPlaneKey, hslot, hkind, x]
    · obtain ⟨t, ht, hans, hquiet, -⟩ := answers_of_run
        (res := { s := s.toBody.rekeyed { x with operKeys := without x.operKeys } .operator id }) h hgood
        (by dsimp only; rw [hkind]; exact if_neg (by rw [hthere]; decide)) (boxes_rekeyed _ _ _ rfl) (exec_revoke s m)
      obtain ⟨left, hleft, hkept⟩ := core_rekeyed s.toBody { x with operKeys := without x.operKeys } .operator id
      obtain ⟨hoper, hinst, hplane0, hplane1, hsessions⟩ := keys_of_core ((core_of_quietBox hquiet).trans hleft)
      refine ⟨t, ht, hans, ?_⟩
      rw [hoper, hinst, hplane0, hplane1, hsessions]
      simpa [hkind] using ⟨fun y hy => (hkept y hy).1, fun y hy => (hkept y hy).2⟩
    · obtain ⟨t, ht, hans, hquiet, -⟩ := answers_of_run
        (res := { s := s.toBody.rekeyed { x with instKeys := without x.instKeys } .installer id }) h hgood
        (by dsimp only; rw [hkind]; exact if_neg (by rw [hthere]; simpa using hmore)) (boxes_rekeyed _ _ _ rfl) (exec_revoke s m)
      obtain ⟨left, hleft, hkept⟩ := core_rekeyed s.toBody { x with instKeys := without x.instKeys } .installer id
      obtain ⟨hoper, hinst, hplane0, hplane1, hsessions⟩ := keys_of_core ((core_of_quietBox hquiet).trans hleft)
      refine ⟨t, ht, hans, ?_⟩
      rw [hoper, hinst, hplane0, hplane1, hsessions]
      simpa [hkind] using ⟨fun y hy => (hkept y hy).1, fun y hy => (hkept y hy).2⟩
  case profile =>
    intro p h hparse
    obtain ⟨t, ht, hans, hquiet, -⟩ := answers_of_run h rfl (by rw [hparse]) rfl (exec_profileWrite s m)
    exact ⟨t, ht, hans, hquiet⟩
  case approve =>
    intro d h hlen htag hkey hd
    subst hd
    set d := BitVec.ofNat 384 (beNat ((b.req.drop 8).take 48))
    have hgood : (b.req.length != 58 + 3373 || b.req.take 8 != ascii "HLMFWAP1") = false := by simp [hlen, htag]
    have hrun : (!true || !(s.sec.instKeys.any fun k => k.id.toNat == leAt b.req 56 2)) = false := by rw [hkey]; rfl
    obtain ⟨t, ht, hans, hquiet, -⟩ := answers_of_run (res := { s := (s.toBody.kindsOf d).foldl (approve d) s.toBody }) h hgood
      (if_neg (by rw [hrun]; decide)) (boxes_foldl_approve ..) (exec_fwApprove s m true)
    refine ⟨t, ht, hans, fun k hk hlt => ?_⟩
    have hfw := fw_of_core (core_of_quietBox hquiet)
    have happroved := mem_approvals_foldl s.toBody d (s.toBody.kindsOf d) hlt (.inr hk)
    unfold Body.image at happroved ⊢
    rwa [hfw]
  case commit =>
    intro h hlen hkind k floor
    have hgood : (b.req.length != 1 || decide (leAt b.req 0 1 > 3)) = false := by simp [hlen]; exact hkind
    obtain ⟨t, ht, hans, hquiet, -⟩ := answers_of_run h hgood rfl rfl (exec_svnCommit s m)
    exact ⟨t, ht, hans, hquiet⟩
  case clear =>
    intro h hlen hlisted hsett
    have hgood : (b.req.length != 1 || decide (leAt b.req 0 1 ≥ 20)) = false := by simp [hlen]; exact hsett
    obtain ⟨t, ht, hans, hquiet, -⟩ := answers_of_run h hgood (if_pos (List.contains_iff_mem.mpr hlisted)) rfl (exec_clearQuarantine s m)
    exact ⟨t, ht, hans, hquiet⟩

end Sys2Proof.Machine
end

section
/-! SUPPORT. The doorbell of a mailbox and the parts of the management port (16 R410, R411; 13 R343). -/
namespace Sys2Proof.Machine

variable (s : Body)

@[simp] theorem mailbox_setMbox_hif (i : Fin 2) (b : Mailbox) : ((s.setMbox (.hif i) b).ifc i).mailbox = b := by
  simp [Body.setMbox, Body.modIfc]

@[simp] theorem quiet_setMbox_hif (i : Fin 2) (b : Mailbox) : (s.setMbox (.hif i) b).quiet = s.quiet := quiet_modIfc ..

/-! ### Which bit a write sets (16 R411) -/

/-- A write that sets no other bit of the doorbell rings bit `k` alone. -/
theorem fld_or_door {v : W64} {k : Nat} (hk : k < 8) (h : fld v 2 0 ||| k = k) : fld (v ||| BitVec.ofNat 64 k) 2 0 = k := by
  have hor : fld (v ||| BitVec.ofNat 64 k) 2 0 = fld v 2 0 ||| k := by
    simp only [fld, Nat.shiftRight_zero, BitVec.toNat_or, BitVec.toNat_ofNat, Nat.or_mod_two_pow]
    rw [Nat.mod_eq_of_lt (by omega : k < 2 ^ 64), Nat.mod_eq_of_lt (by omega : k < 2 ^ (2 - 0 + 1))]
  rw [hor, h]

theorem mbDoor_go (i : Fin 2) {v : W64} (h : fld v 2 0 ||| 1 = 1) : s.mbDoor i (v ||| 1) = s.mbGo i := by
  unfold Body.mbDoor
  rw [show fld (v ||| 1) 2 0 = 1 from fld_or_door (k := 1) (by decide) h]
  rfl

theorem mbDoor_next (i : Fin 2) {v : W64} (h : fld v 2 0 ||| 2 = 2) : s.mbDoor i (v ||| 2) = s.mbNext i := by
  unfold Body.mbDoor
  rw [show fld (v ||| 2) 2 0 = 2 from fld_or_door (k := 2) (by decide) h]
  rfl

theorem mbDoor_abort (i : Fin 2) {v : W64} (h : fld v 2 0 ||| 4 = 4) : s.mbDoor i (v ||| 4) = s.mbAbort i := by
  unfold Body.mbDoor
  rw [show fld (v ||| 4) 2 0 = 4 from fld_or_door (k := 4) (by decide) h]
  rfl

theorem becomes_of_mailbox {s : State} {c : Instr} {f : Body → Body} {b : Body} (hc : exec c s = onMailbox s f)
    (h : s.serves = true) (hb : f s.toBody = b) : becomes c s b :=
  becomes_of_body hc ((if_pos h).trans hb)

/-! ### GO, NEXT and ABORT (16 R410, R411) -/

theorem mbGo_of_taken {i : Fin 2} {b : Mailbox} (hb : (s.ifc i).mailbox = b) (h : b.goRefused b.first = none) :
    s.mbGo i = s.mbPart (.hif i) b
      { session := b.session, op := b.op, first := b.first, last := b.last, data := b.data.take b.partLen.toNat } := by
  subst hb
  unfold Body.mbGo
  dsimp only [Body.mbox]
  rw [h]

/-- NEXT turns to the next part of an answer, or ends it after the last. -/
theorem mbNext_of_answer {i : Fin 2} {b : Mailbox} (hb : (s.ifc i).mailbox = b) (h : b.state = .answer) :
    s.mbNext i = if partMax * (b.part + 1) < b.ans.length
      then s.setMbox (.hif i) { b with refused := 0, part := b.part + 1
                                       data := (b.ans.drop (partMax * (b.part + 1))).take partMax
                                        ++ b.data.drop ((b.ans.drop (partMax * (b.part + 1))).take partMax).length }
      else s.setMbox (.hif i) { b with refused := 0, state := .idle, ans := [], part := 0 } := by
  subst hb
  unfold Body.mbNext
  dsimp only [Body.mbox]
  rw [if_neg (by simp [h])]

/-- ABORT leaves a mailbox idle, or the running operation without an answer. -/
theorem mbAbort_state (i : Fin 2) : (s.mbAbort i).quiet = s.quiet
    ∧ if (s.ifc i).mailbox.state = .running then ((s.mbAbort i).ifc i).mailbox.state = .running ∧ ((s.mbAbort i).ifc i).mailbox.dropAnswer = true
      else ((s.mbAbort i).ifc i).mailbox.state = .idle := by
  unfold Body.mbAbort
  dsimp only [Body.mbox]
  split <;> simp [*]

/-- Settles O19: the write rings one bit of the doorbell, and a part on the management port is taken where none is refused. -/
theorem mailboxDoorbells : Obligations.MailboxDoorbells := by
  intro s hserves
  refine ⟨fun i => ?door, fun addr port part hlen htaken => ?datagram⟩
  case door =>
    intro b
    refine ⟨fun v hbit htaken => ?go, fun v hbit hstate => ?next, fun v hbit => ?abort⟩
    case go =>
      exact becomes_of_mailbox (exec_mailboxGo s i v) hserves
        ((mbDoor_go s.toBody i hbit).trans (mbGo_of_taken s.toBody rfl htaken))
    case next =>
      refine ⟨_, becomes_of_mailbox (exec_mailboxNext s i v) hserves
        ((mbDoor_next s.toBody i hbit).trans (mbNext_of_answer s.toBody rfl hstate)), ?_⟩
      dsimp only
      by_cases hmore : partMax * (b.part + 1) < b.ans.length
      · rw [if_pos hmore, if_pos hmore]
        have hlen : min partMax (b.ans.length - partMax * (b.part + 1)) = ((b.ans.drop (partMax * (b.part + 1))).take partMax).length := by
          simp
        rw [mailbox_setMbox_hif, quiet_setMbox_hif]
        exact ⟨rfl, hstate, rfl, rfl, rfl, by rw [hlen]; exact List.take_left' rfl⟩
      · rw [if_neg hmore, if_neg hmore]
        simp
    case abort =>
      exact ⟨_, becomes_of_mailbox (exec_mailboxAbort s i v) hserves (mbDoor_abort s.toBody i hbit), mbAbort_state s.toBody i⟩
  case datagram =>
    refine becomes_of_mailbox (exec_mgmtPortDatagram s addr port part) hserves ?_
    dsimp only
    rw [if_neg (Nat.not_lt.mpr hlen), htaken]

end Sys2Proof.Machine
end

section
/-! SUPPORT. Writes of BAR0 registers (16 R399-R405, Tables 16-3 to 16-8). -/
namespace Sys2Proof.Machine

variable (s : Body)

@[simp] theorem setIfc_setIfc (i : Fin 2) (f g : Iface) : (s.setIfc i f).setIfc i g = s.setIfc i g := by
  unfold Body.setIfc; split <;> rfl

@[simp] theorem serves_setIfc (i : Fin 2) (f : Iface) : (s.setIfc i f).serves = s.serves := by
  simp [Body.serves]

/-! ### The register a write reaches -/

/-- The module takes register writes over interface `i`: it serves, and the link is up. -/
structure Reachable (s : Body) (i : Fin 2) : Prop where
  serves : s.serves = true
  link : (s.ifc i).linkUp = true

variable {s} {i : Fin 2}

theorem regWrite_of_unserved (off : Nat) (v : W64) (four : Bool) (h : s.serves = false) : s.regWrite i off v four = s := by
  unfold Body.regWrite
  rw [h]
  rfl

theorem regWrite_of_misaligned {off : Nat} (v : W64) (h : off % 8 ≠ 0) : s.regWrite i off v false = s := by
  unfold Body.regWrite
  rw [if_pos (by simp [h])]

section reachable
variable (h : Reachable s i) {off : Nat} (v : W64) (ha : off % 8 = 0)
include h ha

/-- An aligned write of 8 bytes goes by its offset alone (16 Table 16-1). -/
theorem regWrite_of_aligned : s.regWrite i off v false =
    if off < 0x1000 then s
    else if off < 0x2000 then s.writeControl i off v
    else if off < 0x10000 then s
    else if off < 0x11000 then s.writeCmdRing i off v
    else if off < 0x12000 then s.writeSel i off (.cq (ringFin ((off - 0x11000) / 0x40))) v
    else if off < 0x12040 then s.writeSel i off .evt v
    else if off < 0x12080 then s.writeSel i off .tel v
    else if off = 0x13000 then s.writeDbBase i off v
    else if 0x20000 ≤ off ∧ off < 0x24000 then s.writeMsix i off v false
    else if 0x30000 ≤ off ∧ off < 0x31000 then s.writeMailbox i off v false
    else s := by
  unfold Body.regWrite
  rw [h.serves, h.link]
  simp [ha]

end reachable

theorem regWrite_ringCtl (h : Reachable s i) {g : Fin 64} (hg : g.val < s.nRings) (v : W64) :
    s.regWrite i (ringCtl g) v false = s.writeRingCtl i (ringCtl g) g.val v := by
  have hoff : ringCtl g = 0x10008 + 0x40 * g.val := rfl
  rw [regWrite_of_aligned h v (by omega), if_neg (by omega), if_neg (by omega), if_neg (by omega), if_pos (by omega)]
  unfold Body.writeCmdRing
  rw [show (ringCtl g - 0x10000) / 0x40 = g.val by omega, show ringCtl g % 0x40 = 8 by omega, if_neg (by omega)]
  rfl

theorem regWrite_selCtl (h : Reachable s i) {c : CqSel} (hc : ∀ q, c = .cq q → q.val < s.nRings) (v : W64) :
    s.regWrite i (selCtl c) v false = s.writeSelCtl i (selCtl c) c v := by
  cases c with
  | cq q =>
    have hoff : selCtl (.cq q) = 0x11008 + 0x40 * q.val := rfl
    rw [regWrite_of_aligned h v (by omega), if_neg (by omega), if_neg (by omega), if_neg (by omega), if_neg (by omega),
      if_pos (by omega), show (selCtl (.cq q) - 0x11000) / 0x40 = q.val by omega]
    unfold Body.writeSel
    have hq : ringFin q.val = q := Fin.ext (Nat.mod_eq_of_lt q.isLt)
    rw [hq, if_neg (by simpa using hc q rfl), show selCtl (.cq q) % 0x40 = 8 by omega]
    rfl
  | evt => exact regWrite_of_aligned h v rfl
  | tel => exact regWrite_of_aligned h v rfl

/-! ### ENABLE -/

theorem bit_withBit63 (v : W64) (b : Bool) : bit (withBit63 v b) 63 = b := by
  cases b <;> simp [withBit63, setFld, bit]

variable {g off : Nat} {v : W64}

/-- ENABLE of a DISABLED command ring, its doorbell area set up: the ring is empty from index 0. -/
theorem writeRingCtl_of_enabling (hen : bit v 63 = true) (hlog2 : within 6 16 (BitVec.ofNat 5 (fld v 4 0)).toNat = true)
    (hoff : ((s.ifc i).ring g).enable = false) (hstate : ((s.ifc i).ring g).state = .disabled) (hdb : (s.ifc i).dbBase ≠ 0) :
    s.writeRingCtl i off g v = s.setIfc i ((s.ifc i).setRing g { (s.ifc i).ring g with
      prio := BitVec.ofNat 2 (fld v 9 8), log2 := BitVec.ofNat 5 (fld v 4 0), enable := true, state := .enabled, cause := 0
      fetch := 0, descs := [] }) := by
  unfold Body.writeRingCtl
  extract_lets f x en log2 x' idle
  have hidle : idle = true := by simp [idle, x, f, hstate]
  have hset : (f.dbBase == 0) = false := by simpa [f] using hdb
  have hx' : x' = { x with prio := BitVec.ofNat 2 (fld v 9 8), log2, enable := true } :=
    congrArg (fun e => { x with prio := BitVec.ofNat 2 (fld v 9 8), log2, enable := e : CmdRing }) hen
  rw [hlog2, show x.enable = false from hoff, show en = true from hen, hidle, hset, hx']
  rfl

/-- ENABLE = 0 of an enabled command ring: it ends, or drains while it holds descriptors. -/
theorem writeRingCtl_of_disabling (hen : bit v 63 = false) (hlog2 : within 6 16 (BitVec.ofNat 5 (fld v 4 0)).toNat = true)
    (hsame : BitVec.ofNat 5 (fld v 4 0) = ((s.ifc i).ring g).log2) (hon : ((s.ifc i).ring g).enable = true)
    (hstate : ((s.ifc i).ring g).state = .enabled) {x : CmdRing} (hx : x = { (s.ifc i).ring g with
      prio := BitVec.ofNat 2 (fld v 9 8), log2 := BitVec.ofNat 5 (fld v 4 0), enable := false }) :
    s.writeRingCtl i off g v = s.setIfc i ((s.ifc i).setRing g
      (if ((s.ifc i).ring g).descs = [] then { x with state := .disabled, cause := 0 } else { x with state := .draining })) := by
  subst hx
  unfold Body.writeRingCtl
  extract_lets f x en log2 x'
  have hkept : (log2 != x.log2) = false := by simpa [bne] using hsame
  have hx' : x' = { x with prio := BitVec.ofNat 2 (fld v 9 8), log2, enable := false } :=
    congrArg (fun e => { x with prio := BitVec.ofNat 2 (fld v 9 8), log2, enable := e : CmdRing }) hen
  rw [hlog2, show x.enable = true from hon, show en = false from hen, hkept, show x.state = .enabled from hstate, hx']
  simp only [Bool.not_true, Bool.and_false, Bool.not_false, Bool.and_true, if_false, if_true, List.isEmpty_iff,
    Bool.false_eq_true]
  split <;> rfl

/-- A completion ring that starts writes what it held; the event and telemetry rings hold nothing. -/
def Body.writeHeld (s : Body) (i : Fin 2) : CqSel → Nat → Body
  | .cq q, n => s.drainHeld i q.val n
  | _, _ => s

/-- ENABLE of a DISABLED module-written ring: it starts from index 0, a completion ring with what it held. -/
theorem writeSelCtl_of_enabling {c : CqSel} (hen : bit v 63 = true)
    (hlog2 : within (if (∃ q, c = .cq q) then 6 else 10) 16 (BitVec.ofNat 5 (fld v 4 0)).toNat = true)
    (hoff : ((s.ifc i).sel c).enable = false) (hstate : ((s.ifc i).sel c).state = .disabled) (hdb : (s.ifc i).dbBase ≠ 0) :
    s.writeSelCtl i off c v = (s.setIfc i ((s.ifc i).setSel c { (s.ifc i).sel c with
      log2 := BitVec.ofNat 5 (fld v 4 0), format := decide ((∃ q, c = .cq q) ∧ bit v 8 = true), enable := true, state := .enabled
      cause := 0, pi := 0, ci := 0 })).writeHeld i c ((s.ifc i).sel c).held.length := by
  unfold Body.writeSelCtl
  extract_lets f x en log2 isCq format lo x' on
  have hset : (f.dbBase == 0) = false := by simpa [f] using hdb
  have hlo : lo = if (∃ q, c = .cq q) then 6 else 10 := by cases c <;> simp [lo, isCq]
  have hformat : format = decide ((∃ q, c = .cq q) ∧ bit v 8 = true) := by cases c <;> simp [format, isCq]
  have hon : on = s.setIfc i (f.setSel c { x with
      log2, format := decide ((∃ q, c = .cq q) ∧ bit v 8 = true), enable := true, state := .enabled, cause := 0, pi := 0, ci := 0 }) := by
    rw [← hformat, ← hen]
  rw [hlo, hlog2, show x.enable = false from hoff, show en = true from hen, hset, show x.state = .disabled from hstate, hon]
  cases c <;> rfl

/-- ENABLE = 0 of an enabled module-written ring that no uncompleted descriptor names: it ends. -/
theorem writeSelCtl_of_disabling {c : CqSel} {least : Nat} {fmt : Bool} (hleast : (if (∃ q, c = .cq q) then 6 else 10) = least)
    (hfmt : decide ((∃ q, c = .cq q) ∧ bit v 8 = true) = fmt) (hen : bit v 63 = false)
    (hlog2 : within least 16 (BitVec.ofNat 5 (fld v 4 0)).toNat = true)
    (hsame : BitVec.ofNat 5 (fld v 4 0) = ((s.ifc i).sel c).log2)
    (hformat : ((s.ifc i).sel c).format = fmt) (hon : ((s.ifc i).sel c).enable = true)
    (hfree : ∀ q, c = .cq q → s.namedCq i q.val = false) :
    s.writeSelCtl i off c v = s.setIfc i ((s.ifc i).setSel c { (s.ifc i).sel c with
      log2 := BitVec.ofNat 5 (fld v 4 0), format := fmt, enable := false, state := .disabled, cause := 0 }) := by
  unfold Body.writeSelCtl
  extract_lets f x en log2 isCq format lo x' on barred
  have hlo : lo = least := by rw [← hleast]; cases c <;> simp [lo, isCq]
  have hnew : format = fmt := by rw [← hfmt]; cases c <;> simp [format, isCq]
  have hkept : (log2 != x.log2 || format != x.format) = false := by
    rw [show x.format = fmt from hformat, hnew, show log2 = x.log2 from hsame]
    simp
  have hbarred : barred = false := by cases c <;> simp [barred, hfree]
  have hx' : x' = { x with log2, format := fmt, enable := false } := by rw [← hnew, ← hen]
  rw [hlo, hlog2, show x.enable = true from hon, show en = false from hen, hkept, hbarred, hx']
  rfl

/-! ### Rings enabled and disabled -/

/-- Settles O25: the write reaches the ring's second register, with ENABLE set. -/
theorem ringsEnable : Obligations.RingsEnable := by
  intro s i v hserves hlink hdb w f log2
  have hreach : Reachable s.toBody i := ⟨hserves, hlink⟩
  have hen : bit w 63 = true := bit_withBit63 v true
  refine ⟨fun g hg hlog2 hoff hstate => ?command, fun c hc hlog2 hoff hstate => ?written⟩
  case command =>
    exact becomes_of_body (exec_commandRingEnable s i g v)
      ((regWrite_ringCtl hreach hg w).trans (writeRingCtl_of_enabling hen hlog2 hoff hstate hdb))
  case written =>
    have hwrite := (regWrite_selCtl hreach hc w).trans (writeSelCtl_of_enabling hen hlog2 hoff hstate hdb)
    intro format on
    cases c <;> exact becomes_of_body (exec_completionRingEnable s i _ v) hwrite

/-- Settles O26: the write reaches the ring's second register, with ENABLE clear. -/
theorem ringsDisable : Obligations.RingsDisable := by
  intro s i v hserves hlink w f log2
  have hreach : Reachable s.toBody i := ⟨hserves, hlink⟩
  have hen : bit w 63 = false := bit_withBit63 v false
  refine ⟨fun g hg hlog2 hsame hon hstate => ?command, fun q hq hlog2 hsame hformat hon hfree => ?completion,
    fun tel => ?records⟩
  case command =>
    exact becomes_of_body (exec_commandRingDisable s i g v)
      ((regWrite_ringCtl hreach hg w).trans (writeRingCtl_of_disabling hen hlog2 hsame hon hstate rfl))
  case completion =>
    have hnamed : ∀ p, CqSel.cq q = .cq p → p.val < s.toBody.nRings ∧ s.toBody.namedCq i p.val = false := fun p hp => by
      cases hp; exact ⟨hq, hfree⟩
    exact becomes_of_body (exec_completionRingDisable s i q v) ((regWrite_selCtl hreach (fun p hp => (hnamed p hp).1) w).trans
      (writeSelCtl_of_disabling (if_pos ⟨q, rfl⟩) (by simp) hen hlog2 hsame hformat hon fun p hp => (hnamed p hp).2))
  case records =>
    intro c hlog2 hsame hformat hon
    have hnot : ¬ ∃ q, c = .cq q := by cases tel <;> simp [c]
    exact becomes_of_body (exec_eventRingDisable s i tel v) ((regWrite_selCtl hreach (fun p hp => absurd ⟨p, hp⟩ hnot) w).trans
      (writeSelCtl_of_disabling (if_neg hnot) (decide_eq_false fun hc => hnot hc.1) hen hlog2 hsame hformat hon fun p hp => absurd ⟨p, hp⟩ hnot))

/-! ### The interface's own registers (16 Table 16-3) -/

/-- A refused write while the flag is clear and masked: its offset and code are kept, and no vector is signalled (16 R400). -/
theorem rejectWrite_of_masked {f : Iface} (hf : s.ifc i = f) (hclear : f.regReject = false) (hmask : f.errMask.getLsbD 5 = true)
    (off code : Nat) : s.rejectWrite i off code
      = s.setIfc i { f with rejectCode := BitVec.ofNat 8 code, rejectOffset := BitVec.ofNat 32 off, regReject := true } := by
  subst hf
  unfold Body.rejectWrite Body.raise
  simp [hclear, Iface.hasErr, Iface.setErr, Err.maskBit]
  exact fun h => absurd h (by simp [hmask])

/-- Settles O27: the write goes by its offset to one register, or to none. -/
theorem registerWrites : Obligations.RegisterWrites := by
  intro s i v f on
  have hexec : ∀ (off : BitVec 26) {b}, s.toBody.regWrite i off.toNat v false = b → becomes (.registerWrite i off v false) s b :=
    fun off _ hb => becomes_of_body (exec_registerWrite s i off v false) hb
  refine ⟨fun hon hin => ?poll, fun hon hin => ?pri, fun hon hout hclear hmask => ?refused, fun hon => ?mask,
    fun hon haligned hoff => ?base, fun off four hoff => ?unserved, fun off _ hoff => ?misaligned, fun off hon ha hlow => ?reserved⟩
  case poll =>
    exact hexec 0x1008 ((regWrite_of_aligned ⟨hon.1, hon.2⟩ v (off := 0x1008) rfl).trans (if_pos hin))
  case pri =>
    exact hexec 0x1010 ((regWrite_of_aligned ⟨hon.1, hon.2⟩ v (off := 0x1010) rfl).trans (if_pos hin))
  case refused =>
    have hwrite : s.toBody.writeControl i 0x1008 v = s.toBody.rejectWrite i 0x1008 stBadDesc := if_neg (by simp [hout])
    exact hexec 0x1008 ((regWrite_of_aligned ⟨hon.1, hon.2⟩ v (off := 0x1008) rfl).trans
      (hwrite.trans (rejectWrite_of_masked rfl hclear hmask ..)))
  case mask => exact hexec 0x1030 (regWrite_of_aligned ⟨hon.1, hon.2⟩ v (off := 0x1030) rfl)
  case base =>
    have hwrite : s.toBody.writeDbBase i 0x13000 v = s.toBody.setIfc i { f with dbBase := BitVec.ofNat 53 (fld v 63 11) } := by
      unfold Body.writeDbBase
      dsimp only
      rw [if_neg (by simp [haligned]), show (s.toBody.ifc i).anyEnabled = false from hoff]
      rfl
    exact hexec 0x13000 ((regWrite_of_aligned ⟨hon.1, hon.2⟩ v (off := 0x13000) rfl).trans hwrite)
  case unserved => exact becomes_of_body (exec_registerWrite s i off v four) (regWrite_of_unserved _ v four hoff)
  case misaligned => exact hexec off (regWrite_of_misaligned v hoff)
  case reserved => exact hexec off ((regWrite_of_aligned ⟨hon.1, hon.2⟩ v ha).trans (if_pos hlow))

end Sys2Proof.Machine
end

section
/-! SUPPORT. Why `ClocksAndKeys` fails: the planned handover belongs to step 0 of a Den activation, and its last clause speaks of every
step the table does not call the last. -/

namespace Sys2Proof.Machine

/-- A Den activation (image 1) past its last step. -/
def pastLastStep : Activation := { image := 1, slot := true, step := 2, cmd := ⟨0, 0, 0⟩ }

/-- A module in service where it runs, cluster A ACTIVE and cluster B still LOADING. -/
def lateActivation : State :=
  { State.reset with
    power := { phase := 5, state := .operational }
    sec := { State.reset.sec with activation := some pastLastStep }
    integ := { State.reset.integ with denA := .active, denB := .loading } }

/-- At the end of that step cluster B has loaded and cluster A is still ACTIVE: nothing hands over. -/
theorem activationStepEnd_lateActivation :
    exec (.activationStepEnd true) lateActivation
      = .next { lateActivation with toBody := lateActivation.toBody.stepEnds true }
    ∧ (lateActivation.toBody.stepEnds true).integ.denA = .active := ⟨rfl, rfl⟩

/-- Refutes O60: the end of a Den activation's step hands over at step 0 only, but the last clause claims the handover for every step
that the table does not call the last, so also for one numbered 2. -/
theorem not_clocksAndKeys : ¬ Obligations.ClocksAndKeys := by
  intro h
  obtain ⟨-, -, -, -, -, -, -, -, -, -, -, hstep⟩ := h lateActivation
  obtain ⟨t, ht, -, hover⟩ := hstep pastLastStep rfl rfl (.inl (by decide))
  obtain ⟨hrun, hactive⟩ := activationStepEnd_lateActivation
  have hloading := (hover rfl rfl rfl).1
  rw [hrun] at ht
  cases ht
  exact absurd (hactive.symm.trans hloading) (by decide)

end Sys2Proof.Machine
end

section
/-! SUPPORT. The clock's tick (13 R361, R363; entry 7) and the idle cycle. -/

namespace Sys2Proof.Machine

/-- The servo steers by one 2^-16 ns at most. -/
theorem steer_bounds (c : Clock) : -1 ≤ c.steer ∧ c.steer ≤ 1 := by
  unfold Clock.steer
  split_ifs <;> decide

/-- Without a parent it does not steer. -/
theorem steer_of_no_parent {c : Clock} (h : c.parent = none) : c.steer = 0 := by
  simp [Clock.steer, h]

/-- Hall time in units of 2^-16 ns. -/
def Clock.fine (c : Clock) : Nat := c.ns.toNat * 65536 + c.frac.toNat

/-- A tick counts 65,536 of them, and the steering, as long as hall time does not run over. -/
theorem fine_tick {c : Clock} (h : c.ns.toNat + 2 < 2 ^ 64) : (c.tick.fine : Int) = c.fine + 65536 + c.steer := by
  obtain ⟨hlow, hhigh⟩ := steer_bounds c
  have hfrac := c.frac.isLt
  generalize hsum : (((c.ns.toNat * 65536 + c.frac.toNat + 65536 : Nat) : Int) + c.steer).toNat = n
  have hn : (n : Int) = (c.fine : Int) + 65536 + c.steer := by unfold Clock.fine; omega
  have hfine : c.tick.fine = n := by
    simp only [Clock.fine, Clock.tick, hsum, BitVec.toNat_ofNat]
    unfold Clock.fine at hn
    omega
  rw [hfine, hn]

/-- The idle cycle of a powered IOD: the tick, and once a microsecond, while the data plane runs, what is counted then. -/
theorem idle_of_powered {s : Body} (hoff : s.power.state ≠ .unpowered) (hpre : s.power.state ≠ .precharge) :
    idle s = if s.clock.tick.ns.toNat / 1000 = s.clock.ns.toNat / 1000 ∨ s.dataRuns = false then { s with clock := s.clock.tick }
      else ({ s with clock := s.clock.tick } : Body).pressTick.logTick.pathsBack := by
  have hruns : ({ s with clock := s.clock.tick } : Body).dataRuns = s.dataRuns := rfl
  unfold idle
  split
  · contradiction
  · contradiction
  · by_cases hms : s.clock.tick.ns.toNat / 1000 = s.clock.ns.toNat / 1000
    · simp [hms]
    · cases hdata : s.dataRuns <;> simp [hms, hruns, hdata]

/-- On an empty queue the block idles. -/
theorem step_of_idle {s : State} (h : s.pending = []) : step s = onBody s idle := by
  simp [step, h]

/-- Settles O2: the clock is the ticked one where the IOD is powered, and the clock as it was where it is not. -/
theorem idleCountsHallTime : Obligations.IdleCountsHallTime := by
  intro s hempty
  by_cases hdark : s.power.state = .unpowered ∨ s.power.state = .precharge
  · refine ⟨s.clock, ?_, fun _ => rfl, fun hoff hpre => absurd hdark (by simp [hoff, hpre])⟩
    have hstill : idle s.toBody = s.toBody := by unfold idle; obtain h | h := hdark <;> simp [h]
    simp [step_of_idle hempty, onBody, hstill]
  · obtain ⟨hoff, hpre⟩ := not_or.mp hdark
    refine ⟨s.clock.tick, ?_, fun h => absurd h hdark, fun _ _ => ⟨rfl, rfl, rfl, fun hroom => ?_⟩⟩
    · simp only [step_of_idle hempty, onBody, idle_of_powered hoff hpre]
    · have hfine := fine_tick hroom
      obtain ⟨hlow, hhigh⟩ := steer_bounds s.clock
      refine ⟨?_, ?_, fun hnone => ?_⟩
      · change s.clock.fine + 65535 ≤ s.clock.tick.fine
        omega
      · change s.clock.tick.fine ≤ s.clock.fine + 65537
        omega
      · have hzero := steer_of_no_parent hnone
        change s.clock.tick.fine = s.clock.fine + 65536
        omega

end Sys2Proof.Machine
end

section
/-! SUPPORT. Table 13-1 of the host's commands, one lemma for each set of roles (13 R335, R336). -/

namespace Sys2Proof.Machine

/-- A command that needs a role is open to the roles whose bits its row holds. -/
theorem allowed_of_needs {d : Desc} (h : d.needsNoRole = false) (r : Role) :
    d.allowed r = true ↔ d.rights &&& roleBit r ≠ 0 := by
  simp [Desc.allowed, h]

theorem needsNoRole_of_cls {d : Desc} (h : d.cls ≠ 7) : d.needsNoRole = false := by
  simp [Desc.needsNoRole, h]

/-- Bits 1, 2 and 4 of a row: operator, installer and maker. -/
theorem and_roleBit_one (r : Role) : 1 &&& roleBit r ≠ 0 ↔ r ∈ [Role.operator] := by cases r <;> decide
theorem and_roleBit_two (r : Role) : 2 &&& roleBit r ≠ 0 ↔ r ∈ [Role.installer] := by cases r <;> decide
theorem and_roleBit_six (r : Role) : 6 &&& roleBit r ≠ 0 ↔ r ∈ [Role.installer, .maker] := by cases r <;> decide
theorem and_roleBit_seven (r : Role) : 7 &&& roleBit r ≠ 0 ↔ r ∈ [Role.operator, .installer, .maker] := by cases r <;> decide

/-- The rows of Table 13-1, but for those of DIAG READ. -/
theorem rights_of_cls (d : Desc) :
    (d.cls = 0 → d.rights = 2) ∧ (d.cls = 1 ∨ d.cls = 2 ∨ d.cls = 3 → d.rights = 1)
    ∧ (d.cls = 4 → d.op = 4 → d.rights = 6) ∧ (d.cls = 4 → d.op ≠ 4 → d.rights = 2)
    ∧ (d.cls = 5 → d.rights = 2) ∧ (d.cls = 6 → d.rights = 7) ∧ (d.cls = 7 → d.rights = 7) ∧ (d.cls = 8 → d.rights = 6)
    ∧ (d.cls = 9 → d.op = 2 → d.rights = 2) := by
  unfold Desc.rights
  refine ⟨fun h => ?_, fun h => ?_, fun h hop => ?_, fun h hop => ?_, fun h => ?_, fun h => ?_, fun h => ?_, fun h => ?_, fun h hop => ?_⟩
  case refine_2 => obtain h | h | h := h <;> simp [h]
  all_goals simp_all

/-- The rows of DIAG READ: the selectors every role may read, and the rest. -/
theorem rights_of_diagRead {d : Desc} (hcls : d.cls = 9) (hop : d.op = 1) :
    d.rights = if d.f 2 7 0 ∈ [2, 3, 7, 8] then 7 else 6 := by
  simp [Desc.rights, hcls, hop, or_assoc]

/-- The right of a class other than 7 is that of its row. -/
theorem allowed_of_rights {d : Desc} {n : Nat} {l : List Role} (hcls : d.cls ≠ 7) (hn : d.rights = n)
    (hl : ∀ r, n &&& roleBit r ≠ 0 ↔ r ∈ l) (r : Role) : d.allowed r = true ↔ r ∈ l := by
  rw [allowed_of_needs (needsNoRole_of_cls hcls), hn, hl]

/-- TAKEOVER over a session of higher rank is refused (13 R336). -/
theorem takeover_of_rank {s : Body} {r : CmdRef} {d : Desc} (h : roleRank d.role < roleRank (s.roleOf (s.ringOf (tkOld r d)).session)) :
    specTakeover.pre s r d = stDenied :=
  if_pos h

/-- Settles O7, row by row of Table 13-1; TAKEOVER alone compares ranks. -/
theorem rolesRankForTakeoverAlone : Obligations.RolesRankForTakeoverAlone := by
  refine ⟨by decide, fun s r d h => takeover_of_rank h, fun d r => ?_, fun r contact => ?_⟩
  · obtain ⟨h0, h123, h4, h4', h5, h6, h7, h8, h92⟩ := rights_of_cls d
    refine ⟨fun c => ?_, fun c => ?_, fun c o => ?_, fun c o => ?_, fun c => ?_, fun c => ?_, fun c o => ?_, fun c o o' => ?_, fun c => ?_,
      fun c o f => ?_, fun c o f => ?_, fun c o => ?_⟩
    · exact allowed_of_rights (by omega) (h0 c) and_roleBit_two r
    · exact allowed_of_rights (by omega) (h123 c) and_roleBit_one r
    · exact allowed_of_rights (by omega) (h4 c o) and_roleBit_six r
    · exact allowed_of_rights (by omega) (h4' c o) and_roleBit_two r
    · exact allowed_of_rights (by omega) (h5 c) and_roleBit_two r
    · exact allowed_of_rights (by omega) (h6 c) and_roleBit_seven r
    · simp [Desc.allowed, Desc.needsNoRole, c, o]
    · rw [allowed_of_needs (by simp [Desc.needsNoRole, o, o']), h7 c, and_roleBit_seven]
    · exact allowed_of_rights (by omega) (h8 c) and_roleBit_six r
    · exact allowed_of_rights (by omega) (by rw [rights_of_diagRead c o, if_pos f]) and_roleBit_seven r
    · exact allowed_of_rights (by omega) (by rw [rights_of_diagRead c o, if_neg f]) and_roleBit_six r
    · exact allowed_of_rights (by omega) (h92 c o) and_roleBit_two r
  · cases r <;> cases contact <;> decide

end Sys2Proof.Machine
end

section
/-! SUPPORT. The host commands as classes: ATOMIC or STREAMED, each the course of `hostCmd` (11 Table 11-5, R293), and what a refusal
leaves. -/

namespace Sys2Proof.Machine

/-- Every row of `hostSpec` is an ATOMIC command. -/
theorem mode_of_hostSpec {c : Instr} {sp : CmdSpec} {r : CmdRef} {data : List Byte} (h : hostSpec c = some (sp, r, data)) :
    sp.mode = .atomic sp.need sp.bad1 sp.run := by
  unfold hostSpec at h
  split at h <;> cases h <;> rfl

/-- How much host data it needs stands in the words of its descriptor and what it remembers of its start. -/
theorem need_of_hostSpec {c : Instr} {sp : CmdSpec} {r : CmdRef} {data : List Byte} (h : hostSpec c = some (sp, r, data)) (d : Desc) :
    sp.need d = sp.need { idx := 0, w := d.w, step0 := d.step0 } := by
  unfold hostSpec at h
  split at h <;> cases h <;> rfl

theorem need_eq_of_hostSpec {c : Instr} {sp : CmdSpec} {r : CmdRef} {data : List Byte} (h : hostSpec c = some (sp, r, data))
    (d1 d2 : Desc) (hw : d1.w = d2.w) (hstep : d1.step0 = d2.step0) : sp.need d1 = sp.need d2 := by
  rw [need_of_hostSpec h d1, need_of_hostSpec h d2, hw, hstep]

/-- Where no command waits for a table afterwards, the command is the course of a host command alone: only TABLE WRITE has more to do. -/
theorem exec_of_hostSpec {c : Instr} {sp : CmdSpec} {r : CmdRef} {data : List Byte} (h : hostSpec c = some (sp, r, data))
    {s : State} (hwait : (hostCmd sp s.toBody r data 0).tables.waiting = []) :
    becomes c s (hostCmd sp s.toBody r data 0) := by
  unfold hostSpec at h
  split at h <;> cases h
  case h_1 => exact exec_tableWrite_of_none_waits hwait
  all_goals rfl

/-- So it becomes whatever body that course leads to, when nothing waits there for a table. -/
theorem becomes_of_hostSpec {c : Instr} {sp : CmdSpec} {r : CmdRef} {data : List Byte} (h : hostSpec c = some (sp, r, data))
    {s : State} {b : Body} (hcourse : hostCmd sp s.toBody r data 0 = b) (hwait : b.tables.waiting = []) : becomes c s b := by
  subst hcourse
  exact exec_of_hostSpec h hwait

theorem concludeRes_tables (r : CmdRef) (res : HostRes) : (concludeRes r res).tables = res.s.tables :=
  tables_of_quiet (quiet_concludeRes r res)

/-- Settles O8: the course of a ready command, whose conclusion changes reports alone. -/
theorem readyHostCommandsRun : Obligations.ReadyHostCommandsRun := by
  intro c sp r data s d hspec hready _ b res
  refine ⟨fun hnone => ?_, quiet_concludeRes r res⟩
  have hcourse : hostCmd sp s.toBody r data 0 = concludeRes r res :=
    hostCmd_of_ready s.toBody hready (mode_of_hostSpec hspec) (need_eq_of_hostSpec hspec)
  exact becomes_of_hostSpec hspec hcourse (by rw [concludeRes_tables]; exact hnone)

/-- Every row of `streamSpec` is a STREAMED command. -/
theorem mode_of_streamSpec {c : Instr} {sp : CmdSpec} {r : CmdRef} {data : List Byte} {u : Nat}
    (h : streamSpec c = some (sp, r, data, u)) (need bad1 run) : sp.mode ≠ .atomic need bad1 run := by
  unfold streamSpec at h
  split at h <;> cases h <;> exact fun hmode => CmdMode.noConfusion hmode

/-- Where no command waits for a table afterwards, it is the course of a host command alone: only TABLE BULK_LOAD has more to do. -/
theorem exec_of_streamSpec {c : Instr} {sp : CmdSpec} {r : CmdRef} {data : List Byte} {u : Nat}
    (h : streamSpec c = some (sp, r, data, u)) {s : State} (hwait : (hostCmd sp s.toBody r data u).tables.waiting = []) :
    becomes c s (hostCmd sp s.toBody r data u) := by
  unfold streamSpec at h
  split at h <;> cases h
  case h_1 =>
    rw [becomes, exec_tableBulkLoad, execTableBulkLoad, onBody, wakeAll_of_none hwait]
  all_goals rfl

/-- Settles O10: the first data or units of the command's course. -/
theorem streamedHostCommandsRun : Obligations.StreamedHostCommandsRun := by
  intro c sp r data u s d hspec hstarts hnone
  have hcourse := hostCmd_of_streams (data := data) (u := u) s.toBody hstarts (mode_of_streamSpec hspec)
  rw [← hcourse] at hnone ⊢
  exact exec_of_streamSpec hspec hnone

/-- An ATOMIC command that starts with all its data here decides at once. -/
theorem hostCmd_of_enough {s : Body} {sp : CmdSpec} {r : CmdRef} {d : Desc} {data : List Byte} {u : Nat} (h : Starts sp s r d)
    (hmode : sp.mode = .atomic sp.need sp.bad1 sp.run)
    (hneed : ∀ d1 d2 : Desc, d1.w = d2.w → d1.step0 = d2.step0 → sp.need d1 = sp.need d2)
    (henough : sp.need (s.startDesc sp r d) ≤ data.length) :
    hostCmd sp s r data u = (s.atRun sp r d data).decide sp r (s.runDesc sp r d data)
      (sp.bad1 (s.putDesc r (s.startDesc sp r d)) (s.runDesc sp r d data) (s.runDesc sp r d data).buf)
      fun b => sp.run b r (s.runDesc sp r d data) (s.runDesc sp r d data).buf := by
  have hbuf : (s.startDesc sp r d).buf ++ data = data := by
    change d.buf ++ data = data
    rw [h.fresh, List.nil_append]
  have hlen : (data.take (sp.need (s.startDesc sp r d))).length = sp.need (s.startDesc sp r d) := by
    rw [List.length_take, Nat.min_eq_left henough]
  have hsame : sp.need { s.startDesc sp r d with
      buf := data.take (sp.need (s.startDesc sp r d)), done := sp.need (s.startDesc sp r d) } = sp.need (s.startDesc sp r d) :=
    hneed _ _ rfl rfl
  rw [hostCmd_of_starts s h]
  unfold Body.advance
  rw [hmode]
  dsimp only
  rw [hbuf, hlen, hsame, if_neg (Nat.lt_irrefl _)]
  rfl

/-- The control plane serves the command that starts. -/
theorem served_atRun {s : Body} {sp : CmdSpec} {r : CmdRef} {d : Desc} {data : List Byte} (h : Starts sp s r d) :
    (sp.control && (s.atRun sp r d data).planes.controlRestart) = false := by
  rw [planes_of_quiet (quiet_atRun s sp r d data)]
  cases hcontrol : sp.control
  · rfl
  · rw [h.served hcontrol, Bool.and_false]

/-- A refused command ends with its status once its data is here, DATA1 its remembered LAST_STEP with STATE_LOST. -/
theorem hostCmd_of_refused {s : Body} {sp : CmdSpec} {r : CmdRef} {d : Desc} {data : List Byte} {st : Nat}
    (h : Refused sp s r d data st) (hmode : sp.mode = .atomic sp.need sp.bad1 sp.run)
    (hneed : ∀ d1 d2 : Desc, d1.w = d2.w → d1.step0 = d2.step0 → sp.need d1 = sp.need d2) :
    hostCmd sp s r data 0 = (s.atRun sp r d data).completeRef r st 0 (refusedData1 (s.runDesc sp r d data) st) := by
  rw [hostCmd_of_enough h.toStarts hmode hneed h.enough, Body.decide, served_atRun h.toStarts, h.good1, h.pre]
  simp [h.refuses]

/-- Settles O12: each refusal ends the course at its own check, and a completion changes reports alone. -/
theorem refusedHostCommandsDoNothing : Obligations.RefusedHostCommandsDoNothing := by
  intro c sp r data s d hspec hnone hfound hcls hop hstart hheader b started
  have hcourse := hostCmd_found (data := data) (u := 0) s.toBody hfound hcls hop hstart
  have hheader' : (b.begun r d).headerOk ((b.ifc r.iface).cq (b.begun r d).cqn).format = true := hheader
  have hquiet (e : Desc) (st d1 : Nat) : ((b.putDesc r e).completeRef r st 0 d1).quiet = b.quiet := by
    rw [quiet_completeRef, quiet_putDesc]
  have hwait {t : Body} (ht : t.quiet = b.quiet) : t.tables.waiting = [] := by rw [tables_of_quiet ht]; exact hnone
  refine ⟨fun hbad => ⟨?_, hquiet _ _ _⟩, fun hgood hrole => ⟨?_, hquiet _ _ _⟩, fun st href => ?_⟩
  · refine becomes_of_hostSpec hspec (hcourse.trans ?_) (hwait (hquiet _ _ _))
    rw [hheader', hbad]
    rfl
  · have hrole' : (b.begun r d).allowed (b.begun r d).role = false := hrole
    refine becomes_of_hostSpec hspec (hcourse.trans ?_) (hwait (hquiet _ _ _))
    rw [hheader', hgood, hrole']
    rfl
  · intro e after
    have hafter : after.quiet = b.quiet := (quiet_completeRef ..).trans (quiet_atRun ..)
    exact ⟨becomes_of_hostSpec hspec (hostCmd_of_refused href (mode_of_hostSpec hspec) (need_eq_of_hostSpec hspec)) (hwait hafter), hafter⟩

end Sys2Proof.Machine
end

section
/-! SUPPORT. Small host commands (11 Table 11-5; 13 R340). -/

namespace Sys2Proof.Machine

/-- A ready command with no host data completes, and all but the reports is as its own effect leaves it. -/
theorem runsTo_of_ready {c : Instr} {sp : CmdSpec} {r : CmdRef} {d : Desc} {s : State} {b : Body} (h : Ready sp s.toBody r d [])
    (hspec : hostSpec c = some (sp, r, [])) (hexec : exec c s = onBody s fun b => hostCmd sp b r [] 0)
    (heffect : (sp.run (s.toBody.atRun sp r d []) r (s.toBody.runDesc sp r d []) (s.toBody.runDesc sp r d []).buf).s.quiet = b.quiet) :
    runsTo c s b :=
  ⟨_, hexec, (quiet_of_ready s.toBody h (mode_of_hostSpec hspec) (need_eq_of_hostSpec hspec)).trans heffect, rfl, rfl⟩

/-- The body with `bytes` as the one outstanding challenge of this ring or mailbox. -/
def Body.challengedBy (s : Body) (o : MbRef) (ring : Option (Fin 64)) (bytes : List Byte) : Body :=
  { s with sec := { s.sec with challenges := s.sec.challenges.filter (fun c => !c.at o ring) ++ [⟨o, ring, bytes⟩] } }

/-- Beyond its reports and the draw of the random bytes, a new challenge is kept in the old one's place. -/
theorem quiet_newChallenge (s : Body) (o : MbRef) (ring : Option (Fin 64)) :
    (s.newChallenge o ring).2.quiet = (s.quiet.challengedBy o ring (s.newChallenge o ring).1).quiet := rfl

theorem quiet_challengedBy (s : Body) (o : MbRef) (ring : Option (Fin 64)) (bytes : List Byte) :
    (s.quiet.challengedBy o ring bytes).quiet = (s.challengedBy o ring bytes).quiet := rfl

/-- Settles O17: each command's own effect, on the body in which it is carried out. -/
theorem smallHostCommands : Obligations.SmallHostCommands := by
  intro r s d b
  refine ⟨fun h => ?cap, fun h => ?close, fun h => ?destroy, fun h => ?challenge⟩
  case cap =>
    exact runsTo_of_ready h rfl (exec_powerSetCap s r)
      (congrArg (fun x : Body => { x with budget := { x.budget with cap := capWatts d } }) (quiet_atRun b specSetCap r d []) :)
  case close =>
    exact runsTo_of_ready h rfl (exec_secClose s r)
      (congrArg (fun x : Body => { x with sec := { x.sec with sessions := x.sec.sessions.filter fun x => x.id != secSession d } })
        (quiet_atRun b specClose r d []) :)
  case destroy =>
    exact runsTo_of_ready h rfl (exec_fmemDestroy s r)
      (congrArg (fun x : Body => { x with mss := { x.mss with windows := mdel x.mss.windows (fmWid d) } })
        (quiet_atRun b specFmemDestroy r d []) :)
  case challenge =>
    let at_ := b.atRun specChallenge r d []
    have hquiet : (hostCmd specChallenge b r [] 0).quiet
        = (b.challengedBy (.hif r.iface) (some r.ring) (at_.newChallenge (.hif r.iface) (some r.ring)).1).quiet := by
      rw [quiet_of_ready b h rfl fun _ _ _ _ => rfl]
      change (at_.newChallenge (.hif r.iface) (some r.ring)).2.quiet = _
      rw [quiet_newChallenge, quiet_atRun, quiet_challengedBy]
    have hout : Out.host r.iface (d.word 3) (at_.newChallenge (.hif r.iface) (some r.ring)).1 ∈ (hostCmd specChallenge b r [] 0).out := by
      rw [hostCmd_of_ready b h rfl fun _ _ _ _ => rfl]
      exact (grows_concludeRes r _).mem (List.mem_append_right _ (List.mem_singleton_self _))
    exact ⟨_, _, exec_secChallenge s r, length_newChallenge _ _ _, hout, hquiet⟩

end Sys2Proof.Machine
end

section
/-! SUPPORT. Doorbells (11 R286-R289). -/

namespace Sys2Proof.Machine

/-- The descriptors a view of the doorbell area holds of one ring. -/
theorem readPi_one {s : Body} {i : Fin 2} {g : Fin 64} {pi : W32} {w : BitVec 512} (hring : g.val < s.nRings)
    (henabled : ((s.ifc i).ring g.val).state = .enabled)
    (hroom : (pi - ((s.ifc i).ring g.val).oldest).toNat ≤ 2 ^ ((s.ifc i).ring g.val).log2.toNat)
    (hone : (pi - ((s.ifc i).ring g.val).fetch).toNat = 1) (v : DbView) (hok : v.ringFail = []) (hdescs : v.descs = [(g, [w])]) :
    s.readPi i v g pi = (s.fetchOne i g w).settle ⟨i, g, 0⟩ := by
  unfold Body.readPi
  rw [if_neg (by simp [henabled, hring]), if_neg (by simp [hok]), if_neg (Nat.not_lt.mpr hroom)]
  simp [hdescs, hone]

/-- A descriptor that names an enabled completion ring is fetched. -/
theorem fetchOne_of_enabled {s : Body} {i : Fin 2} {g : Fin 64} {w : BitVec 512} {d : Desc}
    (hd : d = { idx := ((s.ifc i).ring g.val).fetch, w }) (henabled : ((s.ifc i).ring g.val).state = .enabled)
    (hring : d.cqn < s.nRings) (hcq : ((s.ifc i).cq d.cqn).state = .enabled) :
    s.fetchOne i g w = s.setIfc i ((s.ifc i).setRing g.val { (s.ifc i).ring g.val with
      fetch := ((s.ifc i).ring g.val).fetch + 1, descs := ((s.ifc i).ring g.val).descs ++ [d] }) := by
  subst hd
  unfold Body.fetchOne
  rw [if_neg (not_not_intro henabled), if_neg (not_or.mpr ⟨Nat.not_le.mpr hring, not_not_intro hcq⟩)]

/-- A nudge of one ring's register, the area readable, reads the CMD_PI that the view holds of it. -/
theorem nudge_ring {s : Body} {i : Fin 2} (h : s.readsDoorbells i = true) (g : Fin 64) (v : DbView) (pi : W32)
    (hok : v.areaFail = false) (hpi : v.pi = [(g, pi)]) : s.nudge i (8 * g.val) v = s.readPi i v g pi := by
  have hlt := g.isLt
  unfold Body.nudge
  rw [if_neg (by simp [h]), if_neg (by simp [hok]), if_neg (by omega), if_pos (by omega)]
  simp [hpi]

/-- A poll that finds new consumer indices of the event and telemetry rings alone. -/
theorem poll_of_cis {s : Body} {i : Fin 2} (h : s.readsDoorbells i = true) (e k : W32) :
    s.poll i { evtCi := some e, telCi := some k } =
      (s.modIfc i fun f => { f with evt := { f.evt with ci := e }, tel := { f.tel with ci := k } }).signalOwed i := by
  simp [Body.poll, h, Body.takeCis]

/-- Settles O28: one descriptor fetched and its ring settled; consumer indices taken and vectors signalled. -/
theorem doorbellsAreRead : Obligations.DoorbellsAreRead := by
  intro s i hreads f
  refine ⟨?nudge, fun e k => ?poll⟩
  case nudge =>
    intro g w hring henabled _ hroom d hcqn hcq
    have hoff : (BitVec.ofNat 12 (8 * g.val)).toNat = 8 * g.val := by
      rw [BitVec.toNat_ofNat]
      omega
    have hone : ((f.ring g.val).fetch + 1 - (f.ring g.val).fetch).toNat = 1 := by simp
    refine becomes_of_body (exec_nudge s i _ _) ?_
    rw [hoff, nudge_ring hreads g _ _ rfl rfl, readPi_one hring henabled hroom hone _ rfl rfl,
      fetchOne_of_enabled rfl henabled hcqn hcq]
  case poll =>
    exact becomes_of_body (exec_doorbellPoll s i _) (poll_of_cis hreads e k)

end Sys2Proof.Machine
end

section
/-! SUPPORT. The command DMA engine (11 R296-R299, Table 11-9). -/

namespace Sys2Proof.Machine

theorem becomes_of_engine {s : State} {i : Fin 2} {c : Instr} {f : Body → Body} {b : Body} (hc : exec c s = onEngine s i f)
    (hrings : s.toBody.ringsRun = true) (hlink : (s.toBody.ifc i).linkUp = true) (hb : f s.toBody = b) : becomes c s b := by
  refine becomes_of_body hc ?_
  simp [hrings, hlink, hb]

/-! ### What the engine's moves leave of the tables -/

@[simp] theorem quiet_sendPageReqs (s : Body) (i : Fin 2) : (s.sendPageReqs i).quiet = s.quiet := by
  unfold Body.sendPageReqs
  refine foldl_keeps Body.quiet _ (fun b r => ?_) _ _
  split
  · split <;> simp
  · rfl

/-- A command that waits for a table is woken by a wake alone: none waits where the body differs by reports from one where none does. -/
theorem wakeAll_of_quiet {a b : Body} (h : a.quiet = b.quiet) (hnone : b.tables.waiting = []) : a.wakeAll = a :=
  wakeAll_of_none (by rw [tables_of_quiet h, hnone])

/-! ### The translation cache -/

theorem length_cachePage (f : Iface) (page : Nat) : (f.cachePage page).tcache.length ≤ 8192 := by
  simp only [Iface.cachePage, List.length_drop]
  omega

theorem mem_cachePage (f : Iface) (page : Nat) : page ∈ (f.cachePage page).tcache := by
  simp only [Iface.cachePage]
  rw [List.drop_append_of_le_length (by simp only [List.length_append, List.length_singleton]; omega)]
  exact List.mem_append_right _ (List.mem_singleton_self page)

/-! ### One branch of each move -/

section
variable {s : Body} {r : CmdRef} {d : Desc}

theorem preempt_of_higher {i : Fin 2} {p : Nat} (hdesc : s.desc r = some d) (hrun : (s.ifc i).running = some r)
    (hready : s.readyPrio i = some p) (hlower : (s.ringOf r).prio.toNat < p) :
    s.preempt i = (s.putDesc r { d with st := .preempted }).setEngine i none := by
  simp [Body.preempt, hrun, hdesc, hready, hlower]

theorem resume_of_next (hdesc : s.desc r = some d) (hfree : (s.ifc r.iface).running = none) (hnext : s.engineNext r.iface = some r)
    (hhighest : ∀ p, s.readyPrio r.iface = some p → p ≤ (s.ringOf r).prio.toNat) :
    s.resume r =
      (let on := (s.putDesc r { d with st := .running }).setEngine r.iface (some r)
       if on.nextIova d / 4096 ∈ (on.ifc r.iface).tcache then on else on.putOut (.atsRequest r.iface (on.nextIova d / 4096))) := by
  have hturn : (s.readyPrio r.iface).any (fun p => (s.ringOf r).prio.toNat < p) = false := by
    cases hp : s.readyPrio r.iface with
    | none => rfl
    | some p => simpa using hhighest p hp
  simp [Body.resume, hdesc, hfree, hnext, hturn]

theorem ats_of_missing {page : Nat} (hdesc : s.desc r = some d) (hrun : (s.ifc r.iface).running = some r)
    (hpri : (s.ifc r.iface).priEnabled = true) (hfirst : d.retried = false) (hpage : s.nextIova d / 4096 = page) :
    s.ats r.iface page false =
      ((((s.putDesc r { d with st := .parked, page, reqSent := false }).setEngine r.iface none).modIfc r.iface fun f =>
        { f with pageReqs := f.pageReqs ++ [r] }).sendPageReqs r.iface).wakeAll := by
  simp [Body.ats, hrun, hdesc, hpage, Body.translationFails, hpri, hfirst]

theorem pageAnswer_of_success (hdesc : s.desc r = some d) (hparked : d.st = .parked) (hsent : d.reqSent = true) :
    s.pageAnswer r .success = ((s.putDesc r { d with st := .ready, retried := true, reqSent := false }).modIfc r.iface fun f =>
      { f with pageReqs := f.pageReqs.filter (· != r) }).sendPageReqs r.iface := by
  simp [Body.pageAnswer, hdesc, hparked, hsent]

theorem pageAnswer_of_failure (hdesc : s.desc r = some d) (hparked : d.st = .parked) (hsent : d.reqSent = true) :
    s.pageAnswer r .failure = (s.breakOff r stFaulted).sendPageReqs r.iface := by
  simp [Body.pageAnswer, hdesc, hparked, hsent]

theorem pageTimeout_of_parked (hdesc : s.desc r = some d) (hparked : d.st = .parked) (hsent : d.reqSent = true) :
    s.pageTimeout r = (s.breakOff r stTimeout).sendPageReqs r.iface := by
  simp [Body.pageTimeout, hdesc, hparked, hsent]

theorem dmaUnit_of_running {i : Fin 2} {sp : CmdSpec} (hdesc : s.desc r = some d) (hrun : (s.ifc i).running = some r)
    (hspec : specOf d = some sp) (data : List Byte) :
    s.dmaUnit i data =
      (let d1 := { d with retried := false }
       ((((((s.modIfc i fun f => f.cachePage (s.nextIova d / 4096)).putDesc r d1).advance sp r d1 (data.take (s.unitBytes d)) 1 false).settle
        r).wakeAll).preempt i).invEnd i) := by
  simp [Body.dmaUnit, hrun, hdesc, hspec]

/-- The transfer that runs uses a page of the list just when the running descriptor's next page is one, and cached. -/
theorem inTransfer_of_running {i : Fin 2} (hdesc : s.desc r = some d) (hrun : (s.ifc i).running = some r) (pages : List Nat) :
    s.inTransfer i pages = true ↔ s.nextIova d / 4096 ∈ pages ∧ s.nextIova d / 4096 ∈ (s.ifc i).tcache := by
  simp [Body.inTransfer, hrun, hdesc]

theorem inTransfer_of_free {i : Fin 2} (hfree : (s.ifc i).running = none) (pages : List Nat) : s.inTransfer i pages = false := by
  simp [Body.inTransfer, hfree]

end

/-- Settles O29, move by move. -/
theorem engineMoves : Obligations.EngineMoves := by
  intro s r d b i hrings hlink hdesc
  refine ⟨fun p hrun hready hlower => ?preempt, fun hfree hnext hhighest => ?resume, fun page => ?granted,
    fun f page => ⟨length_cachePage f page, mem_cachePage f page⟩, fun hrun hpri hfirst hnone => ?missing,
    fun hparked hsent hnone => ?success, fun hparked hsent => ⟨?failure, ?timeout⟩, fun pages => ?invalidation,
    fun data sp hrun hspec => ?unit⟩
  case preempt =>
    exact becomes_of_engine (exec_descriptorPreempt s i) hrings hlink (preempt_of_higher hdesc hrun hready hlower)
  case resume =>
    exact becomes_of_engine (exec_descriptorResume s r) hrings hlink (resume_of_next hdesc hfree hnext hhighest)
  case granted =>
    exact becomes_of_engine (exec_atsTranslationComplete s i page true) hrings hlink rfl
  case missing =>
    refine becomes_of_engine (exec_atsTranslationComplete s i _ false) hrings hlink
      ((ats_of_missing hdesc hrun hpri hfirst rfl).trans (wakeAll_of_quiet (b := b) (by simp) hnone))
  case success =>
    refine becomes_of_engine (exec_pageRequestResponse s r .success) hrings hlink ?_
    rw [pageAnswer_of_success hdesc hparked hsent]
    exact wakeAll_of_quiet (b := b) (by simp) hnone
  case failure =>
    exact becomes_of_engine (exec_pageRequestResponse s r .failure) hrings hlink
      (congrArg Body.wakeAll (pageAnswer_of_failure hdesc hparked hsent))
  case timeout =>
    exact becomes_of_engine (exec_priTimeout s r) hrings hlink (congrArg Body.wakeAll (pageTimeout_of_parked hdesc hparked hsent))
  case invalidation =>
    intro x page
    refine ⟨fun hidle => becomes_of_body (exec_invalidation s i pages) ?_, fun hrun hin hcached =>
      becomes_of_body (exec_invalidation s i pages) ?_⟩
    · have hfree : b.inTransfer i pages = false := by
        obtain hnone | ⟨hrun, hout⟩ := hidle
        · exact inTransfer_of_free hnone pages
        · rw [Bool.eq_false_iff, Ne, inTransfer_of_running hdesc hrun]
          tauto
      simp [hlink, Body.invalidate, hfree, b, x, Body.modIfc]
    · have hbusy : b.inTransfer i pages = true := (inTransfer_of_running hdesc hrun pages).mpr ⟨hin, hcached⟩
      simp [hlink, Body.invalidate, hbusy, b, x, Body.modIfc]
  case unit =>
    exact becomes_of_engine (exec_dmaUnitComplete s i data) hrings hlink (dmaUnit_of_running hdesc hrun hspec data)

end Sys2Proof.Machine
end

section
/-! SUPPORT. Link and reset of an interface (14 R374; 16 R401, R407). -/

namespace Sys2Proof.Machine

/-- What an error bit of an interface leaves alone. -/
def Iface.sansErrors (f : Iface) : Map CmdRing × Bool × List Nat := (f.rings, f.linkUp, f.tcache)

theorem sansErrors_setErr (f : Iface) (e : Err) : (f.setErr e).sansErrors = f.sansErrors := by cases e <;> rfl

/-- A signal of an interface whose link is down does not leave. -/
theorem signal_of_down {s : Body} {i : Fin 2} (h : (s.ifc i).linkUp = false) (v : Nat) : s.signal i v = s := by
  simp [Body.signal, h]

/-- Beyond its error bits, an error leaves an interface whose link is down as it was. -/
theorem sansErrors_raise {s : Body} {i : Fin 2} (h : (s.ifc i).linkUp = false) (e : Err) :
    ((s.raise i e).ifc i).sansErrors = (s.ifc i).sansErrors := by
  have hset : ((s.setIfc i ((s.ifc i).setErr e)).ifc i).sansErrors = (s.ifc i).sansErrors := by
    rw [Body.ifc_setIfc_self, sansErrors_setErr]
  have hdown : ((s.setIfc i ((s.ifc i).setErr e)).ifc i).linkUp = false := (congrArg (·.2.1) hset).trans h
  unfold Body.raise
  dsimp only
  rw [signal_of_down hdown, ite_self]
  split
  · rfl
  · exact hset

/-! ### Rings that stop -/

/-- A command ring once its link is lost. -/
def CmdRing.lost (x : CmdRing) : CmdRing := if x.state = .enabled then { x with state := .stopped, cause := causeLink } else x

theorem lost_lost (x : CmdRing) : x.lost.lost = x.lost := by
  by_cases h : x.state = .enabled <;> simp [CmdRing.lost, h]

theorem descs_lost (x : CmdRing) : x.lost.descs = x.descs := by
  unfold CmdRing.lost
  split <;> rfl

/-- One ring is stopped, the link down: it alone is lost, its interface otherwise as it was but for an error bit. -/
theorem stopRing_of_down {s : Body} {i : Fin 2} (h : (s.ifc i).linkUp = false) (g : Nat) :
    ((s.stopRing i g causeLink).ifc i).sansErrors
      = (if ((s.ifc i).ring g).state = .enabled then mset (s.ifc i).rings g ((s.ifc i).ring g).lost else (s.ifc i).rings,
        false, (s.ifc i).tcache) := by
  unfold Body.stopRing
  dsimp only
  split
  case isTrue hon =>
    have hlost : ({ (s.ifc i).ring g with state := .stopped, cause := causeLink } : CmdRing) = ((s.ifc i).ring g).lost :=
      (if_pos hon).symm
    rw [hlost, sansErrors_raise (by rw [Body.ifc_setIfc_self]; exact h), Body.ifc_setIfc_self]
    simp [Iface.sansErrors, Iface.setRing, h]
  case isFalse => simp [Iface.sansErrors, h]

theorem ring_stopRing_of_down {s : Body} {i : Fin 2} (h : (s.ifc i).linkUp = false) (g k : Nat) :
    ((s.stopRing i g causeLink).ifc i).ring k = if k = g then ((s.ifc i).ring k).lost else (s.ifc i).ring k := by
  have hrings : ((s.stopRing i g causeLink).ifc i).rings = _ := congrArg (·.1) (stopRing_of_down h g)
  rw [Iface.ring, hrings]
  dsimp only
  by_cases hon : ((s.ifc i).ring g).state = .enabled
  · rw [if_pos hon]
    by_cases hk : k = g
    · simp [hk]
    · rw [mgetD_mset_other _ _ _ hk, if_neg hk, Iface.ring]
  · rw [if_neg hon]
    split
    · subst_vars
      exact (if_neg hon).symm
    · rfl

theorem linkUp_stopRing_of_down {s : Body} {i : Fin 2} (h : (s.ifc i).linkUp = false) (g : Nat) :
    ((s.stopRing i g causeLink).ifc i).linkUp = false := congrArg (·.2.1) (stopRing_of_down h g)

theorem tcache_stopRing_of_down {s : Body} {i : Fin 2} (h : (s.ifc i).linkUp = false) (g : Nat) :
    ((s.stopRing i g causeLink).ifc i).tcache = (s.ifc i).tcache := congrArg (·.2.2) (stopRing_of_down h g)

@[simp] theorem quiet_stopRing (s : Body) (i : Fin 2) (g : Nat) (cause : BitVec 4) : (s.stopRing i g cause).quiet = s.quiet := by
  unfold Body.stopRing
  dsimp only
  split <;> simp

/-- Rings are stopped one after another. -/
def Body.stopRings (s : Body) (i : Fin 2) (l : List Nat) : Body := l.foldl (fun s g => s.stopRing i g causeLink) s

theorem stopRings_of_down {s : Body} {i : Fin 2} (h : (s.ifc i).linkUp = false) (l : List Nat) :
    ((s.stopRings i l).ifc i).linkUp = false ∧ ((s.stopRings i l).ifc i).tcache = (s.ifc i).tcache
    ∧ ∀ k, ((s.stopRings i l).ifc i).ring k = if k ∈ l then ((s.ifc i).ring k).lost else (s.ifc i).ring k := by
  induction l generalizing s with
  | nil => exact ⟨h, rfl, fun k => by simp [Body.stopRings]⟩
  | cons g t ih =>
    obtain ⟨hdown, hcache, hring⟩ := ih (linkUp_stopRing_of_down h g)
    refine ⟨hdown, hcache.trans (tcache_stopRing_of_down h g), fun k => (hring k).trans ?_⟩
    rw [ring_stopRing_of_down h]
    by_cases hk : k = g <;> by_cases ht : k ∈ t <;> simp [hk, ht, lost_lost]

theorem quiet_stopRings (s : Body) (i : Fin 2) (l : List Nat) : (s.stopRings i l).quiet = s.quiet :=
  foldl_keeps Body.quiet _ (fun b g => quiet_stopRing b i g causeLink) l s

theorem descs_ring_of_empty {f : Iface} (h : ∀ x ∈ f.rings, x.2.descs = []) (g : Nat) : (f.ring g).descs = [] := by
  unfold Iface.ring mgetD
  cases hg : mget f.rings g with
  | none => rfl
  | some x => exact h (g, x) (mem_of_mget hg)

/-- Where no ring holds a descriptor, none does after. -/
theorem empty_stopRings {s : Body} {i : Fin 2} (h : (s.ifc i).linkUp = false) (hempty : ∀ x ∈ (s.ifc i).rings, x.2.descs = [])
    (l : List Nat) : ∀ x ∈ ((s.stopRings i l).ifc i).rings, x.2.descs = [] := by
  induction l generalizing s with
  | nil => exact hempty
  | cons g t ih =>
    refine ih (linkUp_stopRing_of_down h g) fun x hx => ?_
    have hrings : ((s.stopRing i g causeLink).ifc i).rings = _ := congrArg (·.1) (stopRing_of_down h g)
    rw [hrings] at hx
    dsimp only at hx
    split at hx
    · obtain rfl | hx := mem_mset hx
      · rw [descs_lost]
        exact descs_ring_of_empty hempty g
      · exact hempty x hx
    · exact hempty x hx

/-! ### The link goes down -/

/-- The interface as its link has gone down. -/
def Iface.down (f : Iface) : Iface := { f with linkUp := false, tcache := [], invHeld := 0 }

theorem linkDown_eq (s : Body) (i : Fin 2) :
    s.linkDown i = (s.setIfc i (s.ifc i).down).stopRings i (if s.serves then List.range 64 else []) := by
  have hserves : (s.setIfc i (s.ifc i).down).serves = s.serves := by
    unfold Body.serves
    rw [power_of_quiet (quiet_setIfc s i _)]
  change (if (s.setIfc i (s.ifc i).down).serves then (s.setIfc i (s.ifc i).down).stopRings i (List.range 64) else _) = _
  rw [hserves]
  split <;> rfl

theorem quiet_linkDown (s : Body) (i : Fin 2) : (s.linkDown i).quiet = s.quiet := by
  rw [linkDown_eq, quiet_stopRings, quiet_setIfc]

/-- Its link lost, an interface has it down, its translations gone and, while rings are served, every ring lost. -/
theorem ifc_linkDown (s : Body) (i : Fin 2) :
    ((s.linkDown i).ifc i).linkUp = false ∧ ((s.linkDown i).ifc i).tcache = []
    ∧ (s.serves = true → ∀ g, g < 64 → ((s.linkDown i).ifc i).ring g = ((s.ifc i).ring g).lost) := by
  rw [linkDown_eq]
  obtain ⟨hdown, hcache, hring⟩ := stopRings_of_down (s := s.setIfc i (s.ifc i).down) (i := i)
    (by rw [Body.ifc_setIfc_self]; rfl) (if s.serves then List.range 64 else [])
  refine ⟨hdown, by rw [hcache, Body.ifc_setIfc_self]; rfl, fun hserves g hg => ?_⟩
  rw [hring, if_pos (by simp [hserves, hg]), Body.ifc_setIfc_self]
  rfl

theorem empty_linkDown {s : Body} {i : Fin 2} (h : ∀ x ∈ (s.ifc i).rings, x.2.descs = []) :
    ∀ x ∈ ((s.linkDown i).ifc i).rings, x.2.descs = [] := by
  rw [linkDown_eq]
  exact empty_stopRings (by rw [Body.ifc_setIfc_self]; rfl) (by rw [Body.ifc_setIfc_self]; exact h) _

/-! ### Reset -/

/-- With nothing in flight, a reset brings the link down and the registers to their reset values, and no more. -/
theorem resetIfc_of_empty {s : Body} {i : Fin 2} (h : ∀ x ∈ (s.ifc i).rings, x.2.descs = []) (hnone : s.tables.waiting = []) :
    s.resetIfc i = (s.linkDown i).modIfc i fun f => f.afterReset := by
  have hrings : ∀ x ∈ (((s.linkDown i).modIfc i fun f => f.afterReset).ifc i).rings, x.2.descs = [] := by
    rw [Body.modIfc, Body.ifc_setIfc_self]
    intro x hx
    obtain ⟨y, hy, rfl⟩ := List.mem_map.mp hx
    simp [CmdRing.afterReset, empty_linkDown h y hy]
  have hhalted : ((((s.linkDown i).modIfc i fun f => f.afterReset).ifc i).rings.flatMap fun x => (x.2.descs.filter fun d =>
      d.st == .parked || d.st == .ready || d.st == .preempted || d.st == .running).map fun d => (⟨i, ringFin x.1, d.idx⟩ : CmdRef)) = [] :=
    List.flatMap_eq_nil_iff.mpr fun x hx => by rw [hrings x hx]; rfl
  unfold Body.resetIfc
  dsimp only
  rw [hhalted]
  exact wakeAll_of_quiet (b := s) (by rw [List.foldl_nil, quiet_modIfc, quiet_linkDown]) hnone

/-- A ring with nothing queued, reset: its registers at their reset values. -/
theorem afterReset_of_empty {x : CmdRing} (h : x.descs = []) : x.afterReset = {} := by
  simp [CmdRing.afterReset, h]

/-- Settles O30: every ring is lost with the link; a reset with nothing in flight leaves rings as after a reset; the link up, held
completions drain. -/
theorem interfaceLinks : Obligations.InterfaceLinks := by
  intro s i f
  refine ⟨fun hup hserves => ?lost, fun hiod hempty hnone => ?reset, fun hlinks => ?up⟩
  case lost =>
    obtain ⟨hdown, hcache, hring⟩ := ifc_linkDown s.toBody i
    refine ⟨{ s with toBody := s.toBody.linkDown i }, becomes_of_body (exec_hifLinkLost s i) (if_pos hup), quiet_linkDown _ i, hdown,
      hcache, fun g hg hon => ?_⟩
    have hstopped : (f.ring g).lost = { f.ring g with state := .stopped, cause := causeLink } := if_pos hon
    have hlost : (((s.toBody.linkDown i).ifc i).ring g) = (f.ring g).lost := hring hserves g hg
    exact ⟨by rw [hlost, hstopped], by rw [hlost, hstopped]; rfl, by rw [hlost, descs_lost]⟩
  case reset =>
    refine ⟨{ s with toBody := (s.toBody.linkDown i).modIfc i fun f => f.afterReset },
      becomes_of_body (exec_interfaceReset s i) ((if_pos hiod).trans (resetIfc_of_empty hempty hnone)),
      by rw [quiet_modIfc, quiet_linkDown], ?_⟩
    intro x
    have hx : x = ((s.toBody.linkDown i).ifc i).afterReset := Body.ifc_setIfc_self _ i _
    rw [hx]
    refine ⟨rfl, rfl, rfl, rfl, rfl, rfl, rfl, rfl, rfl, rfl, fun y hy => ?_⟩
    obtain ⟨z, hz, rfl⟩ := List.mem_map.mp hy
    rw [afterReset_of_empty (empty_linkDown hempty z hz)]
    exact ⟨rfl, rfl, rfl, rfl⟩
  case up => exact becomes_of_body (exec_hifLinkUp s i) (if_pos hlinks)

end Sys2Proof.Machine
end

section
/-! SUPPORT. Bring-up: what the end of each phase leaves (15 R386-R397). -/

namespace Sys2Proof.Machine

variable {s : Body} {f : Findings} {fs : List (BitVec 8192)}

/-! ### The phase that ends -/

theorem phaseEnd_zero (h : s.power.state = .bringup) (hn : s.power.phase = 0) : s.phaseEnd f fs = s.endP0 := by
  simp [Body.phaseEnd, h, hn]

theorem phaseEnd_one (h : s.power.state = .bringup) (hn : s.power.phase = 1) :
    s.phaseEnd f fs = s.endP1 f (fuStep (nth fs 4 0)) := by
  simp [Body.phaseEnd, h, hn]

theorem phaseEnd_two (h : s.power.state = .bringup) (hn : s.power.phase = 2) : s.phaseEnd f fs = s.endP2 f fs := by
  simp [Body.phaseEnd, h, hn]

theorem phaseEnd_three (h : s.power.state = .bringup) (hn : s.power.phase = 3) : s.phaseEnd f fs = s.endP3 f := by
  simp [Body.phaseEnd, h, hn]

theorem phaseEnd_four (h : s.power.state = .bringup) (hn : s.power.phase = 4) : s.phaseEnd f fs = s.endP4 f := by
  simp [Body.phaseEnd, h, hn]

theorem phaseLate_of_early (h : s.power.state = .bringup) (hn : s.power.phase < 5) : s.phaseLate = s.goDark.stopWith 9 0xFF 0xFF 0 :=
  if_pos ⟨h, hn⟩

/-! ### P1 -/

/-- The slots that an image each boots. -/
def Body.bootSlots (s : Body) (f : Findings) (step : Nat) : List (Option Bool) :=
  (List.range 4).map fun k => bootSlot (s.image k) (slotBad f k) step

theorem nth_bootSlots {k : Nat} (hk : k < 4) (step : Nat) :
    nth (s.bootSlots f step) k none = bootSlot (s.image k) (slotBad f k) step := by
  simp [nth, Body.bootSlots, hk]

theorem any_bootSlots (step : Nat) :
    (s.bootSlots f step).any (·.isNone) = true ↔ ∃ k, k < 4 ∧ bootSlot (s.image k) (slotBad f k) step = none := by
  simp [Body.bootSlots]

/-- The images of a list, each with its slot of `g` active. -/
def Body.activate (s : Body) (g : Nat → Bool) (l : List Nat) : Body :=
  l.foldl (fun s k => s.setImage k { s.image k with active := g k }) s

theorem active_activate (g : Nat → Bool) {l : List Nat} {k : Nat} (hk : k ∈ l ∨ (s.image k).active = g k)
    (hlen : k < s.sec.fw.length) : ((s.activate g l).image k).active = g k := by
  induction l generalizing s with
  | nil => exact hk.resolve_left List.not_mem_nil
  | cons j t ih =>
    refine ih ?_ (by rw [length_setImage]; exact hlen)
    rw [image_setImage]
    by_cases hkj : k = j
    · exact .inr (by subst hkj; simp [hlen])
    · rw [if_neg fun h => hkj h.1]
      exact hk.imp_left fun h => (List.mem_cons.mp h).resolve_left hkj

/-- What a change of active slots leaves alone. -/
theorem power_activate (g : Nat → Bool) (l : List Nat) : (s.activate g l).power = s.power := by
  refine foldl_keeps Body.power _ (fun _ _ => ?_) l s
  rfl

theorem mram_activate (g : Nat → Bool) (l : List Nat) : (s.activate g l).mram = s.mram := by
  refine foldl_keeps Body.mram _ (fun _ _ => ?_) l s
  rfl

theorem endP1_of_none {step : Nat} (h : ∃ k, k < 4 ∧ bootSlot (s.image k) (slotBad f k) step = none) :
    s.endP1 f step = s.stopWith 1 0xFF 0xFF 0 :=
  if_pos ((any_bootSlots step).mpr h)

/-- Every image boots: its slot is active, the boot counted, and P2 begins. -/
theorem endP1_of_boots {step : Nat} (h : ∀ k, k < 4 → bootSlot (s.image k) (slotBad f k) step ≠ none) :
    (s.endP1 f step).power = { s.power with phase := 2 } ∧ (s.endP1 f step).mram.bootCount = s.mram.bootCount + 1
    ∧ ∀ k, k < 4 → k < s.sec.fw.length → bootSlot (s.image k) (slotBad f k) step = some ((s.endP1 f step).image k).active := by
  have hall : ¬ (s.bootSlots f step).any (·.isNone) = true := fun hany => by
    obtain ⟨k, hk, hnone⟩ := (any_bootSlots step).mp hany
    exact h k hk hnone
  have hgo : s.endP1 f step = _ := if_neg hall
  let boots := fun k => (nth (s.bootSlots f step) k none).getD false
  rw [hgo]
  refine ⟨?_, ?_, fun k hk hlen => ?_⟩
  · exact congrArg (fun p : Power => { p with phase := 2 })
      (power_activate boots (List.range 4))
  · exact congrArg (fun m : Mram => m.bootCount + 1) (mram_activate boots (List.range 4))
  · obtain ⟨b, hb⟩ := Option.ne_none_iff_exists'.mp (h k hk)
    have hactive := active_activate boots (l := List.range 4)
      (.inl (List.mem_range.mpr hk)) hlen
    have hboots : boots k = b := by simp only [boots, nth_bootSlots hk, hb, Option.getD_some]
    rw [hb]
    exact congrArg some (hactive.trans hboots).symm

/-! ### P2 -/

/-- The part number of the IOD fuses names the variant. -/
theorem hw_eq (s : State) : s.hw = Variant.ofPartno (BitVec.ofNat 16 (fuPartno (nth s.fuses 4 0))) := by
  refine congrArg Variant.ofPartno (BitVec.eq_of_toNat_eq ?_)
  simp [bits, fuPartno, fld]

/-- A check of the fuses that fails stops the module, its cause and die shown. -/
theorem endP2_of_cause {c k : Nat} (h : fuseCause fs (deadDies f (s.failedBlocks f fs (fuOe (nth fs 4 0)))) = some (c, k)) :
    s.endP2 f fs = s.stopWith c k 0xFF 0
    ∨ s.endP2 f fs = (s.showFuses fs (deadDies f (s.failedBlocks f fs (fuOe (nth fs 4 0))))).stopWith c k 0xFF 0 := by
  unfold Body.endP2
  dsimp only
  rw [h]
  split
  next heq => cases heq; exact .inl rfl
  next heq => cases heq; exact .inr rfl
  next heq => cases heq

theorem endP2_of_pass (h : fuseCause fs (deadDies f (s.failedBlocks f fs (fuOe (nth fs 4 0)))) = none) :
    s.endP2 f fs = (s.showFuses fs (deadDies f (s.failedBlocks f fs (fuOe (nth fs 4 0))))).setUp f fs
      (s.failedBlocks f fs (fuOe (nth fs 4 0))) := by
  unfold Body.endP2
  dsimp only
  rw [h]

/-- What the Lantern page names the module by, and whether it is in bring-up. -/
def Body.identity (s : Body) : PowerState × BitVec 128 × BitVec 16 := (s.power.state, s.lantern.serial, s.lantern.partno)

theorem identity_of_quiet {a b : Body} (h : a.quiet = b.quiet) : a.identity = b.identity := by
  unfold Body.identity
  rw [power_of_quiet h, lantern_of_quiet h]

theorem identity_chooseProfile (v : Variant) : (s.chooseProfile v).identity = s.identity := by
  unfold Body.chooseProfile
  split
  · dsimp only
    split <;> rfl
  · rfl

theorem identity_emits (code : Nat) (l : List Nat) : (l.foldl (fun s g => s.emit code [g]) s).identity = s.identity := by
  refine foldl_keeps Body.identity _ (fun b g => ?_) l s
  exact identity_of_quiet (quiet_emit ..)

theorem identity_readCells (v : Variant) : (s.readCells v).identity = s.identity := by
  unfold Body.readCells
  extract_lets gs m bad w s1 s2
  split
  · rfl
  · exact identity_emits ..

/-- It, with the profile in force and the power cap. -/
def Body.ruled (s : Body) : (PowerState × BitVec 128 × BitVec 16) × Profile × Nat := (s.identity, s.profiles.inForce, s.budget.cap)

theorem ruled_freshPools : s.freshPools.ruled = s.ruled := by
  refine (foldl_keeps Body.ruled _ (fun b d => ?_) _ _).trans ?_
  · rfl
  · rfl

theorem ruled_retrains (l : List Nat) : (l.foldl (fun s l => s.retrain l) s).ruled = s.ruled := by
  refine foldl_keeps Body.ruled _ (fun b d => ?_) _ _
  rfl

theorem ruled_enterP4 : s.enterP4.ruled = s.ruled := by
  refine (ruled_retrains _).trans ?_
  unfold Body.acceptProfile
  split <;> rfl

theorem phase_enterP4 : s.enterP4.power.phase = 4 := by
  refine (foldl_keeps (fun b : Body => b.power.phase) _ (fun b d => ?_) _ _).trans rfl
  rfl

theorem ruled_capped : ({ s with budget := { s.budget with cap := s.profiles.inForce.cap } } : Body).ruled
    = (s.identity, s.profiles.inForce, s.profiles.inForce.cap) := rfl

theorem ruled_bootPorts (v : Variant) : (s.bootPorts v).ruled = s.ruled := rfl

theorem ruled_infra (a : W32) : (s.lanternPut fun l => { l with infra := a }).ruled = s.ruled := rfl

theorem ruled_toPhase (n : Nat) : (s.toPhase n).ruled = s.ruled := rfl

theorem phase_toPhase (n : Nat) : (s.toPhase n).power.phase = n := rfl

/-- The digest of the fuses is no part of it. -/
theorem identity_withFuseDigest (d : BitVec 384) : ({ s with sec := { s.sec with fuseDigest := d } } : Body).identity = s.identity := rfl

/-- The fuses passed, P2 keeps what the page names the module by, rates the module by its profile in force, and goes on to P3, or to P4
where no fabric memory is fitted. -/
theorem setUp_ruled (down : List Nat) (v : Variant) (hv : v = Variant.ofPartno (BitVec.ofNat 16 (fuPartno (nth fs 4 0)))) :
    ∃ p, (s.setUp f fs down).ruled = (s.identity, p, p.cap) ∧ (s.setUp f fs down).power.phase = if v.hasFmem then 3 else 4 := by
  unfold Body.setUp
  extract_lets iod v' oem s1 sec s2 s3 s4 budget s5 s6 s7
  have h3 : s3.identity = s.identity := by
    have h2 : s2.identity = s.identity := identity_withFuseDigest _
    clear_value s2
    simp only [s3]
    split
    · exact h2
    · exact (identity_of_quiet (quiet_bumpBy ..)).trans h2
  clear_value s3
  have h4 : s4.identity = s.identity :=
    (identity_readCells (s := (s3.chooseProfile v').setRidgepole fs down v') v').trans ((identity_chooseProfile (s := s3) v').trans h3)
  clear_value s4
  have h7 : s7.ruled = (s.identity, s4.profiles.inForce, s4.profiles.inForce.cap) := by
    have h5 : s5.ruled = (s4.identity, s4.profiles.inForce, s4.profiles.inForce.cap) := ruled_capped
    have h6 : s6.ruled = s5.ruled := ruled_freshPools.trans (ruled_bootPorts v')
    have h67 : s7.ruled = s6.ruled := ruled_infra _
    rw [h67, h6, h5, h4]
  clear_value s7
  have hv' : v' = v := hv.symm
  rw [← hv']
  refine ⟨s4.profiles.inForce, ?_⟩
  rw [← h7]
  split
  · exact ⟨ruled_toPhase 3, phase_toPhase 3⟩
  · exact ⟨ruled_enterP4, phase_enterP4⟩

/-! ### P3 -/

theorem endP3_of_badId {n : Nat} {l : List Nat} (h : stackIds f.idBad (setBits 20 s.lantern.fittedHbm) = n :: l) :
    s.endP3 f = s.stopWith 7 0xFF n 0 := by
  simp [Body.endP3, h]

theorem endP3_of_parts (hid : stackIds f.idBad (setBits 20 s.lantern.fittedHbm) = [])
    (h : s.profiles.inForce.partsOk s.variant = false) :
    s.endP3 f = ((({ s with profiles := { s.profiles with refused := true } } : Body).setPower fun p =>
      { p with refallen := true }).lanternPut fun l => { l with profileStatus := 4 }).toPhase 2 := by
  simp [Body.endP3, hid, h]

theorem endP3_of_trained (hid : stackIds f.idBad (setBits 20 s.lantern.fittedHbm) = [])
    (hparts : s.profiles.inForce.partsOk s.variant = true) (h : stackIds f.trainBad (setBits 20 s.lantern.fittedHbm) = []) :
    s.endP3 f = (s.layOut s.variant (setBits 20 s.lantern.fittedHbm)).enterP4 := by
  simp [Body.endP3, hid, hparts, h]

theorem endP3_of_oneLost {n : Nat} (hid : stackIds f.idBad (setBits 20 s.lantern.fittedHbm) = [])
    (hparts : s.profiles.inForce.partsOk s.variant = true) (h : stackIds f.trainBad (setBits 20 s.lantern.fittedHbm) = [n])
    (hroom : s.profiles.inForce.headroom = 72) :
    s.endP3 f = ((s.layOut s.variant (setBits 20 s.lantern.fittedHbm)).bootLost n).enterP4 := by
  simp [Body.endP3, hid, hparts, h, hroom]

theorem endP3_of_untrained {n : Nat} {l : List Nat} (hid : stackIds f.idBad (setBits 20 s.lantern.fittedHbm) = [])
    (hparts : s.profiles.inForce.partsOk s.variant = true) (h : stackIds f.trainBad (setBits 20 s.lantern.fittedHbm) = n :: l)
    (hmany : l ≠ [] ∨ s.profiles.inForce.headroom ≠ 72) : s.endP3 f = s.stopWith 8 0xFF n 0 := by
  obtain hl | hroom := hmany
  · simp [Body.endP3, hid, hparts, h, hl]
  · simp [Body.endP3, hid, hparts, h, hroom]

/-- The state of the module and its memory, which light on the links leaves alone. -/
def Body.memory (s : Body) : PowerState × Integ × Coll := (s.power.state, s.integ, s.coll)

theorem memory_enterP4 : s.enterP4.memory = s.memory := by
  refine (foldl_keeps Body.memory _ (fun b d => ?_) _ _).trans ?_
  · rfl
  · unfold Body.acceptProfile
    split <;> rfl

theorem memory_bootLost (n : Nat) : (s.bootLost n).memory
    = (s.power.state, { s.integ with headroomUsed := true, stackSt := mset s.integ.stackSt n .lost }, s.coll) := by
  have hquiet : ((({ s.setStack n .lost with integ := { (s.setStack n .lost).integ with headroomUsed := true } } : Body).emit 0x505 [n]).quiet
      = ({ s.setStack n .lost with integ := { (s.setStack n .lost).integ with headroomUsed := true } } : Body).quiet) := quiet_emit ..
  exact (congrArg Body.memory hquiet :)

/-! ### P4 -/

/-- What the light of cartridges leaves alone: the module's power, page, memory of the last save and Setts. -/
def Body.unlit (s : Body) : Power × Lantern × Mram := (s.power, s.lantern, s.mram)

theorem unlit_relights (ls : List Nat) : (ls.foldl Body.relight s).unlit = s.unlit := by
  refine foldl_keeps Body.unlit _ (fun b l => ?_) ls s
  unfold Body.relight
  split <;> rfl

theorem carts_relights (ls : List Nat) : (ls.foldl Body.relight s).carts = s.carts :=
  foldl_keeps Body.carts _ (fun _ l => (relight_keeps l).1) ls s

theorem cartAtPower_of_not_inserted {c : Nat} (h : (s.cart c).state ≠ .inserted) : s.cartAtPower c = s := by
  simp [Body.cartAtPower, h]

theorem unlit_cartAtPower (c : Nat) : (s.cartAtPower c).unlit = s.unlit := by
  by_cases h : (s.cart c).state = .inserted
  · rw [cartAtPower_of_inserted h, unlit_relights]
    rfl
  · rw [cartAtPower_of_not_inserted h]

theorem cart_cartAtPower (c d : Nat) : ((s.cartAtPower c).cart d).state
    = if d = c ∧ (s.cart c).state = .inserted then .atPower else (s.cart d).state := by
  by_cases h : (s.cart c).state = .inserted
  · rw [cartAtPower_of_inserted h, Body.cart, carts_relights]
    change ((s.setCart c _).cart d).state = _
    rw [cart_setCart]
    by_cases hd : d = c <;> simp [hd, h]
  · rw [cartAtPower_of_not_inserted h, if_neg fun hboth => h hboth.2]

/-- An inserted cartridge whose turn comes stands at power from then on. -/
theorem cart_atPower {c : Nat} {l : List Nat}
    (h : (s.cart c).state = .atPower ∨ (s.cart c).state = .inserted ∧ c ∈ l) :
    ((l.foldl (fun s c => s.cartAtPower c) s).cart c).state = .atPower := by
  induction l generalizing s with
  | nil => exact h.resolve_right fun hin => List.not_mem_nil hin.2
  | cons d t ih =>
    refine ih ?_
    rw [cart_cartAtPower]
    obtain hon | ⟨hin, hmem⟩ := h
    · exact .inl (by split <;> simp [hon])
    · by_cases hd : c = d
      · exact .inl (if_pos ⟨hd, hd ▸ hin⟩)
      · rw [if_neg fun hboth => hd hboth.1]
        exact .inr ⟨hin, (List.mem_cons.mp hmem).resolve_left hd⟩

theorem unlit_lightUp : (s.lightUp f).unlit = s.unlit :=
  foldl_keeps Body.unlit _ (fun b c => unlit_cartAtPower (s := b) c) _ s

theorem cart_lightUp {c : Nat} (hc : c < s.variant.cartridges) (hin : (s.cart c).state = .inserted)
    (hok : ∀ x ∈ f.cartsFailed, x.val ≠ c) : ((s.lightUp f).cart c).state = .atPower :=
  cart_atPower (.inr ⟨hin, by simpa [hc] using hok⟩)

theorem unlit_counted (l : List (Ctr × Nat × Nat)) :
    (l.foldl (fun s x => s.plainBump x.1 x.2.1 x.2.2) s).unlit = s.unlit
    ∧ (l.foldl (fun s x => s.plainBump x.1 x.2.1 x.2.2) s).carts = s.carts := by
  have h := foldl_keeps (fun b : Body => (b.unlit, b.carts)) (fun s (x : Ctr × Nat × Nat) => s.plainBump x.1 x.2.1 x.2.2)
    (fun _ _ => rfl) l s
  exact Prod.ext_iff.mp h

/-- The counts come back from the save, when it holds them, and only once. -/
theorem unlit_restoreCounters :
    s.restoreCounters.power = s.power ∧ s.restoreCounters.mram = { s.mram with counterSnapshot := none }
    ∧ s.restoreCounters.lantern.countersRestored = s.mram.counterSnapshot.isSome ∧ s.restoreCounters.carts = s.carts := by
  unfold Body.restoreCounters
  split
  next hnone =>
    rw [hnone]
    refine ⟨rfl, ?_, rfl, rfl⟩
    rw [← hnone]
    rfl
  next l hsome =>
    obtain ⟨hunlit, hcarts⟩ := unlit_counted (s := ({ s with mram := { s.mram with counterSnapshot := none } } : Body)) l
    obtain ⟨hpower, -, hmram⟩ : _ ∧ _ ∧ _ := ⟨(congrArg Prod.fst hunlit :), trivial, (congrArg (·.2.2) hunlit :)⟩
    rw [hsome]
    exact ⟨hpower, hmram, rfl, hcarts⟩

/-- A list made entry by entry holds at a key what was made for it. -/
theorem mget_map_keys {α : Type} (g : Nat → α) {l : List Nat} {n : Nat} (h : n ∈ l) : mget (l.map fun k => (k, g k)) n = some (g n) := by
  induction l with
  | nil => cases h
  | cons k t ih =>
    by_cases hk : k = n
    · simp [mget, hk]
    · simpa [mget, hk] using ih ((List.mem_cons.mp h).resolve_left (Ne.symm hk))

/-- The state of Sett `n` at bring-up's end, by the quarantine list. -/
def bootState (q : List Nat) (n : Nat) : SettState :=
  if q.contains n then .quarantined
  else if ((settsOf (n / 5)).filter fun k => !q.contains k).getLast? = some n then .spare else .inService

theorem bootState_quarantined (q : List Nat) (n : Nat) : bootState q n = .quarantined ↔ n ∈ q := by
  unfold bootState
  by_cases hq : n ∈ q
  · simp [hq]
  · simp only [List.contains_eq_mem, hq, decide_false, Bool.false_eq_true, if_false, iff_false]
    split <;> simp

theorem setts_bootSetts : s.bootSetts.setts = (List.range 20).map fun n => (n, { state := bootState s.mram.quarantine n }) := by
  unfold Body.bootSetts Body.fillSelection
  dsimp only
  split <;> rfl

/-- The quarantine list decides which Setts are QUARANTINED. -/
theorem sett_bootSetts {n : Nat} (hn : n < 20) : (s.bootSetts.sett n).state = .quarantined ↔ n ∈ s.mram.quarantine := by
  unfold Body.sett mgetD
  rw [setts_bootSetts, mget_map_keys _ (List.mem_range.mpr hn)]
  exact bootState_quarantined ..

theorem unlit_bootSetts : s.bootSetts.unlit = s.unlit ∧ s.bootSetts.carts = s.carts := by
  unfold Body.bootSetts Body.fillSelection
  dsimp only
  split <;> exact ⟨rfl, rfl⟩

/-- The last phase's end, apart from its reports. -/
def Body.inService (s : Body) (f : Findings) : Body :=
  (((s.lightUp f).restoreCounters.bootSetts).setPower fun p => { p with state := .operational }).toPhase 5

theorem quiet_endP4 : (s.endP4 f).quiet = (s.inService f).quiet := quiet_flushEvents _

theorem mram_endP4 : (s.endP4 f).mram.counterSnapshot = (s.inService f).mram.counterSnapshot := 
  (congrArg (fun b : Body => b.mram.counterSnapshot) (quiet_endP4 (s := s) (f := f)) :)

theorem carts_endP4 (c : Nat) : (s.endP4 f).cart c = (s.lightUp f).cart c := by
  rw [cart_of_quiet quiet_endP4]
  unfold Body.cart
  change mgetD ((s.lightUp f).restoreCounters.bootSetts).carts c {} = _
  rw [unlit_bootSetts.2, unlit_restoreCounters.2.2.2]

theorem mram_lightUp : (s.lightUp f).mram = s.mram := (congrArg (·.2.2) unlit_lightUp :)

/-- P4 ends: OPERATIONAL, the save's counts used up and shown restored if they were, every Sett by the quarantine list. -/
theorem endP4_leaves : (s.endP4 f).power = { s.power with state := .operational, phase := 5 }
    ∧ (s.endP4 f).mram.counterSnapshot = none
    ∧ (s.endP4 f).lantern.countersRestored = s.mram.counterSnapshot.isSome
    ∧ ∀ n, n < 20 → (((s.endP4 f).sett n).state = .quarantined ↔ n ∈ s.mram.quarantine) := by
  obtain ⟨hpower, hmram, hshown, -⟩ := unlit_restoreCounters (s := s.lightUp f)
  obtain ⟨hsetts, -⟩ := unlit_bootSetts (s := (s.lightUp f).restoreCounters)
  have hpower' : (s.lightUp f).restoreCounters.bootSetts.power = s.power :=
    (congrArg Prod.fst hsetts :).trans (hpower.trans (congrArg Prod.fst unlit_lightUp :))
  refine ⟨?_, ?_, ?_, fun n hn => ?_⟩
  · rw [power_of_quiet quiet_endP4]
    exact (congrArg (fun p : Power => { p with state := .operational, phase := 5 }) hpower' :)
  · rw [mram_endP4]
    exact (congrArg (·.2.2.counterSnapshot) hsetts :).trans (congrArg Mram.counterSnapshot hmram)
  · rw [lantern_of_quiet quiet_endP4]
    exact (congrArg (·.2.1.countersRestored) hsetts :).trans (hshown.trans (by rw [mram_lightUp]))
  · have hsett : (s.endP4 f).sett n = (s.lightUp f).restoreCounters.bootSetts.sett n := by
      unfold Body.sett
      rw [setts_of_quiet quiet_endP4]
      rfl
    have hlist : (s.lightUp f).restoreCounters.mram.quarantine = s.mram.quarantine := by rw [hmram, mram_lightUp]
    rw [hsett, sett_bootSetts hn, hlist]

/-- Settles O59, phase by phase. -/
theorem bringupPhases : Obligations.BringupPhases := by
  intro s f hboot b v step boot down dead fitted goes stops
  have hrun {b' : Body} (h : b.phaseEnd f s.fuses = b') : becomes (.bringupPhase f) s b' :=
    becomes_of_body (exec_bringupPhase s f) h
  have hstop {x : Body} {cause die stack : Nat} (hpower : x.power = b.power) (h : b.phaseEnd f s.fuses = x.stopWith cause die stack 0) :
      stops (.bringupPhase f) cause die stack :=
    ⟨_, hrun h, rfl, rfl, congrArg (fun p : Power => BitVec.ofNat 8 p.phase) hpower, rfl, rfl, rfl⟩
  refine ⟨fun hn => ?p0, fun hn => ⟨fun hnone => ?fails1, fun hall => ?p1⟩, fun hn => ⟨fun c k hcause => ?fails2, fun hpass => ?p2⟩,
    fun hn => ⟨fun n l hid => ?fails3, fun hid => ⟨fun hparts => ?refuse, fun hparts => ⟨fun n hone hroom => ?lost,
      fun n l hbad hmany => ?untrained,
      fun hgood => ?p3⟩⟩⟩, fun hn => ?p4, fun hn => ?late⟩
  case p0 => exact ⟨_, hrun (phaseEnd_zero hboot hn), hboot, rfl, rfl, rfl⟩
  case fails1 => exact hstop rfl ((phaseEnd_one hboot hn).trans (endP1_of_none hnone))
  case p1 =>
    obtain ⟨hpower, hcount, hactive⟩ := endP1_of_boots hall
    refine ⟨_, hrun (phaseEnd_one hboot hn), ?_, ?_, hcount, hactive⟩
    · exact (congrArg Power.state hpower).trans hboot
    · exact congrArg Power.phase hpower
  case fails2 =>
    obtain h | h := endP2_of_cause hcause
    · exact hstop rfl ((phaseEnd_two hboot hn).trans h)
    · exact hstop (x := b.showFuses s.fuses dead) rfl ((phaseEnd_two hboot hn).trans h)
  case p2 =>
    obtain ⟨p, hruled, hphase⟩ := setUp_ruled (s := b.showFuses s.fuses dead) (f := f) down v (hw_eq s)
    refine ⟨_, hrun ((phaseEnd_two hboot hn).trans (endP2_of_pass hpass)), ?_, hphase, ?_, ?_, ?_⟩
    · exact (congrArg (fun x => x.1.1) hruled :).trans hboot
    · exact (congrArg (fun x => x.1.2.1) hruled :)
    · exact (congrArg (fun x => x.1.2.2) hruled :)
    · have hprofile := (congrArg (fun x => x.2.1.cap) hruled :)
      exact (congrArg (fun x => x.2.2) hruled :).trans hprofile.symm
  case fails3 => exact hstop rfl ((phaseEnd_three hboot hn).trans (endP3_of_badId hid))
  case refuse => exact ⟨_, hrun ((phaseEnd_three hboot hn).trans (endP3_of_parts hid hparts)), hboot, rfl, rfl, rfl⟩
  case lost =>
    have hmemory := memory_enterP4.trans (memory_bootLost (s := b.layOut b.variant fitted) n)
    have hinteg := (congrArg (fun x => x.2.1) hmemory :)
    refine ⟨_, hrun ((phaseEnd_three hboot hn).trans (endP3_of_oneLost hid hparts hone hroom)),
      (congrArg (fun x => x.1) hmemory :).trans hboot, phase_enterP4, ?_, (congrArg Integ.headroomUsed hinteg :)⟩
    exact (congrArg (fun i : Integ => mgetD i.stackSt n .service) hinteg :).trans (mgetD_mset_same ..)
  case untrained => exact hstop rfl ((phaseEnd_three hboot hn).trans (endP3_of_untrained hid hparts hbad hmany))
  case p3 =>
    have hmemory := memory_enterP4 (s := b.layOut b.variant fitted)
    exact ⟨_, hrun ((phaseEnd_three hboot hn).trans (endP3_of_trained hid hparts hgood)), (congrArg (fun x => x.1) hmemory :).trans hboot,
      phase_enterP4, (congrArg (fun x => x.2.2.spillFree) hmemory :)⟩
  case p4 =>
    obtain ⟨hpower, hsaved, hshown, hsetts⟩ := endP4_leaves (s := b) (f := f)
    refine ⟨_, hrun (phaseEnd_four hboot hn), (congrArg Power.state hpower :), (congrArg Power.phase hpower :), hsaved, ?_,
      fun n => hsetts n n.isLt, fun c hc hin hok => ?_⟩
    · rw [hshown, Option.isSome_iff_ne_none]
    · rw [carts_endP4]
      exact cart_lightUp hc hin hok
  case late =>
    exact ⟨_, becomes_of_body (exec_phaseTimeout s) (phaseLate_of_early hboot hn), rfl, rfl, rfl, rfl, rfl, rfl⟩

end Sys2Proof.Machine
end

section
/-! SUPPORT. Fatal stops and the sag: what the last steps before the dark leave (06 R165; 12 R307; 14 R379-R385). -/

namespace Sys2Proof.Machine

variable (s : Body)

/-! ### Reports leave the host links up or down as they are -/

/-- The host links. -/
def Body.linkUps (s : Body) : Bool × Bool := (s.hifA.linkUp, s.hifB.linkUp)

theorem linkUps_setIfc (i : Fin 2) (f : Iface) (h : f.linkUp = (s.ifc i).linkUp) : (s.setIfc i f).linkUps = s.linkUps := by
  unfold Body.setIfc
  unfold Body.ifc at h
  split
  next hi =>
    rw [if_pos hi] at h
    simp [Body.linkUps, h]
  next hi =>
    rw [if_neg hi] at h
    simp [Body.linkUps, h]

theorem linkUps_eventTo (i : Fin 2) (e : Ev) : (s.eventTo i e).linkUps = s.linkUps := by
  unfold Body.eventTo
  dsimp only
  split
  · exact linkUps_setIfc s i _ rfl
  · exact linkUps_setIfc s i _ rfl

theorem linkUps_eventOut (e : Ev) : (s.eventOut e).linkUps = s.linkUps :=
  (linkUps_eventTo _ 1 e).trans (linkUps_eventTo s 0 e)

theorem linkUps_logged (l : List Ev) : ({ s with evlog := l } : Body).linkUps = s.linkUps := rfl

theorem linkUps_held (l : List Ev) : ({ s with events := l } : Body).linkUps = s.linkUps := rfl

@[simp] theorem linkUps_emit (c : Nat) (p : List Nat) : (s.emit c p).linkUps = s.linkUps := by
  unfold Body.emit
  extract_lets e s1
  split
  · exact (linkUps_eventOut s1 e).trans (linkUps_logged s _)
  · exact (linkUps_held s1 _).trans (linkUps_logged s _)

theorem linkUps_withAudit (a : Audit) : ({ s with sec := { s.sec with audit := a } } : Body).linkUps = s.linkUps := rfl

theorem linkUps_gapPaid : ({ s with mram := { s.mram with gapOwed := false } } : Body).linkUps = s.linkUps := rfl

theorem linkUps_exportAudit (a : AuditRec) : (s.exportAudit a).linkUps = s.linkUps := by
  simp [Body.exportAudit]

theorem linkUps_chainOne (b : BitVec 640) : (s.chainOne b).linkUps = s.linkUps := by
  unfold Body.chainOne
  extract_lets
  exact (linkUps_exportAudit _ _).trans (linkUps_withAudit s _)

theorem linkUps_payGap : s.payGap.linkUps = s.linkUps := by
  unfold Body.payGap
  split
  · rw [linkUps_chainOne]
    exact linkUps_gapPaid s
  · rfl

theorem linkUps_audit (a : AuditArgs) : (s.audit a).linkUps = s.linkUps := by
  unfold Body.audit
  extract_lets b x y
  split
  · exact linkUps_withAudit s _
  · exact (linkUps_chainOne _ _).trans (linkUps_payGap s)

/-! ### The view -/

/-- What the fallback map leaves alone: power, the Lantern page, ports, cartridges, a running activation and the host links. -/
structure Dark where
  power : Power
  lantern : Lantern
  lports : Map LPort
  carts : Map Cart
  activation : Option Activation
  links : Bool × Bool

def Body.dark (s : Body) : Dark := ⟨s.power, s.lantern, s.lports, s.carts, s.sec.activation, s.linkUps⟩

theorem dark_of_quiet {a b : Body} (h : a.quiet = b.quiet) (hlinks : a.linkUps = b.linkUps) : a.dark = b.dark := by
  have hact : a.sec.activation = b.sec.activation := (congrArg (·.sec.activation) h :)
  unfold Body.dark
  rw [power_of_quiet h, lantern_of_quiet h, lports_of_quiet h, carts_of_quiet h, hact, hlinks]

theorem dark_emit (c : Nat) (p : List Nat) : (s.emit c p).dark = s.dark := dark_of_quiet (quiet_emit ..) (linkUps_emit ..)

theorem dark_auditModule (c o ob st : Nat) : (s.auditModule c o ob st).dark = s.dark :=
  dark_of_quiet (quiet_auditModule ..) (linkUps_audit ..)

theorem dark_setCell (g : Nat) (w : CellWrite) : (s.setCell g w).dark = s.dark := rfl

theorem dark_logFrozen (g : Nat) (w : CellWrite) : (s.logFrozen g w).dark = s.dark := rfl

theorem dark_raiseWear (g : Nat) (w : CellWrite) : (s.raiseWear g w).dark = s.dark := by
  unfold Body.raiseWear
  dsimp only
  split
  · exact dark_emit ..
  · rfl

theorem dark_finishWrites : s.finishWrites.dark = s.dark := by
  unfold Body.finishWrites
  refine foldl_keeps Body.dark _ (fun b x => ?_) _ _
  split
  · exact dark_setCell ..
  · rfl

@[simp] theorem dark_applyFallback : s.applyFallback.dark = s.dark := by
  have hwrite (g : Nat) (b : Body) (w : CellWrite) :
      (if b.wear g w ≥ 1000000000 then b.logFrozen g w else (b.raiseWear g w).setCell g w : Body).dark = b.dark := by
    split
    · exact dark_logFrozen ..
    · exact (dark_setCell ..).trans (dark_raiseWear ..)
  have hidle : ({ s.finishWrites with portage := { s.finishWrites.portage with trans := [], open_ := [], deferred := [] } } : Body).dark
      = s.dark := dark_finishWrites s
  unfold Body.applyFallback
  dsimp only
  refine (foldl_keeps Body.dark _ (fun b g => ?_) _ _).trans hidle
  exact (dark_auditModule ..).trans (foldl_keeps Body.dark _ (hwrite g) _ _)

/-! ### Launches cut, light gone -/

/-- What else a cut launch leaves alone. -/
def Body.uncut (s : Body) : Body := { s with lports := [], out := [] }

theorem uncut_cutLaunches : s.cutLaunches.uncut = s.uncut := by
  unfold Body.cutLaunches
  refine foldl_keeps Body.uncut _ (fun b x => ?_) _ _
  split
  · split <;> rfl
  · rfl

theorem goDark_lports : ∀ x ∈ s.goDark.lports, x.2.state = .disabled := by
  intro x hx
  obtain ⟨y, -, rfl⟩ := List.mem_map.mp hx
  rfl

theorem goDark_carts : ∀ x ∈ s.goDark.carts, x.2.state ≠ .atPower := by
  intro x hx
  obtain ⟨y, -, rfl⟩ := List.mem_map.mp hx
  dsimp only
  split <;> simp_all

end Sys2Proof.Machine
end

section
/-! SUPPORT. Traffic stays in its place (04 R107, R109): frames that re-enter at Lookup, or that start to drain, change what holds
frames, the tables that lookups write and the clocks of Setts alone. -/

namespace Sys2Proof.Machine

variable (s : Body)

/-- The body without its reports, frames, ports, tables and Setts. -/
def Body.sansTraffic (s : Body) : Body := { s.sansFrames with tables := {}, setts := [] }

theorem sansTraffic_of_sansFrames {a b : Body} (h : a.sansFrames = b.sansFrames) : a.sansTraffic = b.sansTraffic := by
  unfold Body.sansTraffic
  rw [h]

theorem sansTraffic_of_sansMarks {a b : Body} (h : a.sansMarks = b.sansMarks) : a.sansTraffic = b.sansTraffic :=
  sansTraffic_of_sansFrames (sansFrames_of_sansMarks h)

theorem sansTraffic_of_sansGw {a b : Body} (h : a.sansGw = b.sansGw) : a.sansTraffic = b.sansTraffic :=
  (congrArg Body.sansTraffic h :)

theorem sansTraffic_bump (c : Ctr) (i : Nat) : (s.bump c i).sansTraffic = s.sansTraffic := sansTraffic_of_sansFrames (sansFrames_bump ..)

theorem sansTraffic_releaseCopy (fid : Nat) : (s.releaseCopy fid).sansTraffic = s.sansTraffic :=
  sansTraffic_of_sansFrames (sansFrames_releaseCopy ..)

theorem sansTraffic_takeIn (f : BufFrame) (cp : Copy) (l : Nat) : (s.takeIn f cp l).sansTraffic = s.sansTraffic :=
  sansTraffic_of_sansFrames (sansFrames_takeIn ..)

theorem sansTraffic_setFrame (f : BufFrame) : (s.setFrame f).sansTraffic = s.sansTraffic := rfl

theorem sansTraffic_ethDest (l : Nat) (e : Eth) : (s.ethDest l e).2.sansTraffic = s.sansTraffic := by
  have hlook := sansTraffic_of_sansGw (sansGw_gwLookup s (macvEntry (physOf l / 8) e.vid.toNat e.dstMac.toNat))
  unfold Body.ethDest
  dsimp only
  refine keeps_ite (fun p : (Ctr × Nat ⊕ Nat) × Body => p.2.sansTraffic) (fun _ => rfl) fun _ => ?_
  generalize s.gwLookup (macvEntry (physOf l / 8) e.vid.toNat e.dstMac.toNat) = p at hlook ⊢
  obtain ⟨_ | x, t⟩ := p
  · exact hlook
  · exact keeps_ite (fun p : (Ctr × Nat ⊕ Nat) × Body => p.2.sansTraffic) (fun _ => hlook) fun _ => hlook

theorem sansTraffic_reenter (cp : Copy) (l : Nat) : (s.reenter cp l).sansTraffic = s.sansTraffic := by
  unfold Body.reenter
  split
  case h_1 => rfl
  case h_2 f _ =>
    extract_lets s1 byHdr
    have hbump : s1.sansTraffic = s.sansTraffic := sansTraffic_bump ..
    have hbyHdr : ∀ t g, (byHdr t g).sansTraffic = t.sansTraffic := fun t g => by
      dsimp only [byHdr]
      split
      · exact (sansTraffic_releaseCopy ..).trans (sansTraffic_bump ..)
      · exact sansTraffic_releaseCopy ..
      next e m _ =>
        have hspray := sansTraffic_of_sansMarks (sansMarks_spray t (dieOf l) e m)
        split
        next heq => exact (sansTraffic_releaseCopy ..).trans (by rw [heq] at hspray; exact hspray)
        next heq => exact (sansTraffic_takeIn ..).trans (by rw [heq] at hspray; exact hspray)
    split
    next e i _ _ _ =>
      have hdest := (sansTraffic_ethDest s1 i e).trans hbump
      split
      next heq => exact (sansTraffic_releaseCopy ..).trans ((sansTraffic_bump ..).trans (by rw [heq] at hdest; exact hdest))
      next heq =>
        rw [heq] at hdest
        exact keeps_ite Body.sansTraffic (fun _ => (sansTraffic_takeIn ..).trans hdest) fun _ =>
          (sansTraffic_takeIn ..).trans ((sansTraffic_setFrame ..).trans hdest)
    · rw [hbyHdr]
      exact hbump
    · rw [hbyHdr]
      exact hbump

theorem sansTraffic_reenterQueued (l : Nat) : (s.reenterQueued l).sansTraffic = s.sansTraffic := by
  unfold Body.reenterQueued
  refine (foldl_keeps Body.sansTraffic _ (fun b e => ?_) _ _).trans (sansTraffic_of_sansFrames (sansFrames_unqueueAll ..))
  refine (sansTraffic_reenter ..).trans (keeps_ite Body.sansTraffic (fun _ => ?_) fun _ => rfl)
  split <;> rfl

theorem sansTraffic_takeReplay (l : Nat) : (s.takeReplay l).2.sansTraffic = s.sansTraffic := by
  unfold Body.takeReplay
  extract_lets x cs s1 s2
  have h2 : s2.sansTraffic = s.sansTraffic := by
    have h1 : s1.sansTraffic = s.sansTraffic := rfl
    clear_value s1
    simp only [s2]
    split
    · split
      · exact h1
      · exact (sansTraffic_releaseCopy ..).trans h1
    · exact h1
  refine (foldl_keeps Body.sansTraffic _ (fun b c => ?_) _ _).trans h2
  split
  · exact keeps_ite Body.sansTraffic (fun _ => rfl) fun _ => rfl
  · rfl

theorem sansTraffic_reenterReplay (l : Nat) : (s.reenterReplay l).sansTraffic = s.sansTraffic :=
  (foldl_keeps Body.sansTraffic _ (fun b c => sansTraffic_reenter b c l) _ _).trans (sansTraffic_takeReplay s l)

theorem sansTraffic_drainOrDark (l : Nat) (c : DrainCause) : (s.drainOrDark l c).sansTraffic = s.sansTraffic := by
  have hdrain : (s.drainPort l c).sansTraffic = s.sansTraffic := by
    unfold Body.drainPort Body.startDrain
    dsimp only
    refine keeps_ite Body.sansTraffic (fun _ => ?_) fun _ => rfl
    refine keeps_ite Body.sansTraffic (fun _ => rfl) fun _ => keeps_ite Body.sansTraffic (fun _ => rfl) fun _ => ?_
    exact sansTraffic_reenterQueued ..
  unfold Body.drainOrDark
  split
  · exact hdrain
  all_goals rfl

end Sys2Proof.Machine
end

section
/-! SUPPORT. The feed, the pins and removal (14 R366-R385; 17 R424, R425). -/

namespace Sys2Proof.Machine

variable {s : Body}

/-! ### The sag -/

theorem power_cutLaunches : s.cutLaunches.power = s.power := (congrArg Body.power (uncut_cutLaunches s) :)

/-- A sag of a powered module: SAVING, dark, its host links gone. -/
theorem dark_sag (h : s.power.state.saves = true) : s.sag.dark =
    { power := { s.power with state := .saving, removeCmd := none, draining := false }, lantern := s.lantern
      lports := s.cutLaunches.goDark.lports, carts := s.cutLaunches.goDark.carts, activation := none, links := (false, false) } := by
  have hlantern : s.cutLaunches.lantern = s.lantern := (congrArg Body.lantern (uncut_cutLaunches s) :)
  unfold Body.sag
  rw [if_pos h, dark_applyFallback, ← power_cutLaunches (s := s), ← hlantern]
  rfl

/-- What the sag response leaves, for whatever else opened the feed. -/
def Body.saving (t : Body) (p : Power) : Prop :=
  t.power = { p with state := .saving, removeCmd := none, draining := false } ∧ t.hifA.linkUp = false ∧ t.hifB.linkUp = false
  ∧ (∀ x ∈ t.lports, x.2.state = .disabled) ∧ ∀ x ∈ t.carts, x.2.state ≠ .atPower

theorem saving_sag (h : s.power.state.saves = true) : s.sag.saving s.power := by
  have hdark := dark_sag h
  have hlports : s.sag.lports = s.cutLaunches.goDark.lports := congrArg Dark.lports hdark
  have hcarts : s.sag.carts = s.cutLaunches.goDark.carts := congrArg Dark.carts hdark
  refine ⟨congrArg Dark.power hdark, congrArg (·.links.1) hdark, congrArg (·.links.2) hdark, ?_, ?_⟩
  · rw [hlports]
    exact goDark_lports _
  · rw [hcarts]
    exact goDark_carts _

theorem not_unpowered_of_saves {p : PowerState} (h : p.saves = true) : p ≠ .unpowered := by
  rintro rfl
  cases h

theorem saving_fetOpens (h : s.power.state.saves = true) (w : FetWait) :
    (s.fetOpens w).saving { s.power with fetOn := false, fetWait := w } := by
  unfold Body.fetOpens
  rw [if_neg (not_unpowered_of_saves h)]
  exact saving_sag (s := s.setPower fun p => { p with fetOn := false, fetWait := w }) h

theorem saving_overcurrent (h : s.power.state.saves = true) (again : Bool) : (s.overcurrent again).saving
    { s.power with fetOn := false, fetWait := .overcurrent, fetLatched := s.power.ocOpened && again, ocOpened := true } := by
  unfold Body.overcurrent
  rw [if_neg (not_unpowered_of_saves h)]
  exact saving_fetOpens (s := s.setPower fun p => { p with fetLatched := p.ocOpened && again, ocOpened := true }) h .overcurrent

/-- PRESENT# as it has broken. -/
def Power.unseated (p : Power) : Power := { p with present := false, fetLatched := false, ocOpened := false, fetWait := .none }

theorem saving_presentBreak (h : s.power.state.saves = true) (hready : s.power.state ≠ .ready) :
    s.presentBreak.saving s.power.unseated := by
  have hsag := saving_sag (s := s.setPower Power.unseated) h
  unfold Body.presentBreak
  dsimp only
  split
  next heq => exact absurd heq hready
  next heq => exact absurd (show s.power.state = .saving from heq) (by rintro hs; rw [hs] at h; cases h)
  next heq => exact absurd (show s.power.state = .unpowered from heq) (not_unpowered_of_saves h)
  next => exact hsag

theorem presentBreak_of_ready (h : s.power.state = .ready) : s.presentBreak = (s.setPower Power.unseated).powerOff := by
  have hstate : (s.setPower Power.unseated).power.state = .ready := h
  change (match (s.setPower Power.unseated).power.state with
    | .ready => (s.setPower Power.unseated).powerOff
    | .saving | .unpowered => s.setPower Power.unseated
    | _ => (s.setPower Power.unseated).sag) = _
  rw [hstate]

/-! ### Without power -/

/-- What a save of MRAM items leaves alone. -/
def Body.unsaved (s : Body) : Body := { s with mram := {}, free := 0 }

theorem unsaved_withMram (m : Mram) : ({ s with mram := m } : Body).unsaved = s.unsaved := rfl

theorem unsaved_saveItem (n : Nat) : (s.saveItem n).unsaved = s.unsaved := by
  unfold Body.saveItem
  split
  · exact unsaved_withMram _
  · exact unsaved_withMram _
  · split
    · exact unsaved_withMram _
    · rfl
  · rfl

theorem saveItems_succ (n : Nat) : s.saveItems (n + 1) = (s.saveItems n).saveItem (n + 1) := by
  simp [Body.saveItems, List.range_succ]

theorem unsaved_saveItems (n : Nat) : (s.saveItems n).unsaved = s.unsaved :=
  foldl_keeps Body.unsaved _ (fun _ k => unsaved_saveItem (k + 1)) _ s

theorem counters_of_unsaved {a b : Body} (h : a.unsaved = b.unsaved) : a.counters = b.counters := (congrArg Body.counters h :)

theorem power_of_unsaved {a b : Body} (h : a.unsaved = b.unsaved) : a.power = b.power := (congrArg Body.power h :)

theorem clock_of_unsaved {a b : Body} (h : a.unsaved = b.unsaved) : a.clock = b.clock := (congrArg Body.clock h :)

/-- Every regulator off, nothing is left but what a power cycle keeps. -/
theorem lostPower_powerOff {a b : Body} (hsec : a.sec = b.sec) (hportage : a.portage = b.portage) (hprofiles : a.profiles = b.profiles) :
    b.lostPower a.powerOff := by
  refine ⟨rfl, rfl, rfl, rfl, rfl, rfl, rfl, rfl, rfl, rfl, rfl, ?_, ?_, ?_, ?_, ?_, ?_, hprofiles⟩
  · exact (congrArg Sec.operKeys hsec :)
  · exact (congrArg Sec.instKeys hsec :)
  · exact (congrArg Sec.fw hsec :)
  · exact (congrArg (·.audit.chain) hsec :)
  · exact (congrArg Portage.cells hportage :)
  · exact (congrArg Portage.wear hportage :)

theorem lostPower_of_unsaved {a b : Body} (h : a.unsaved = b.unsaved) : b.lostPower a.powerOff :=
  lostPower_powerOff (congrArg Body.sec h :) (congrArg Body.portage h :) (congrArg Body.profiles h :)

theorem snapshot_saveItems (h : 4 ≤ s.power.phase) : (s.saveItems 5).mram.counterSnapshot = some s.counters := by
  have hfour : s.saveItems 5 = ((s.saveItems 3).saveItem 4).saveItem 5 := by
    rw [saveItems_succ, saveItems_succ]
  have hcounters : (s.saveItems 3).counters = s.counters := counters_of_unsaved (unsaved_saveItems 3)
  have hcounting : (s.saveItems 3).counting = true := by
    unfold Body.counting
    rw [power_of_unsaved (unsaved_saveItems 3)]
    exact decide_eq_true h
  have hsaved : ((s.saveItems 3).saveItem 4).mram.counterSnapshot = some (s.saveItems 3).counters := by
    change (if (s.saveItems 3).counting = true then _ else _ : Body).mram.counterSnapshot = _
    rw [if_pos hcounting]
  rw [hfour, ← hcounters]
  exact hsaved

/-! ### Contact -/

/-- The maker sessions end, and those that share no ID with one stay. -/
theorem sessions_endSessions (which : Session → Bool) :
    (s.endSessions which).sec.sessions = s.sec.sessions.filter fun x => x.id ∉ (s.sec.sessions.filter which).map fun x => x.id :=
  (congrArg Sec.sessions (sansAudit_foldl_endSession s _) :)

theorem power_endSession (id : W32) : (s.endSession id).power = s.power := by
  unfold Body.endSession
  split
  · rfl
  · exact (power_of_quiet (quiet_audit ..)).trans rfl

theorem power_endSessions (which : Session → Bool) : (s.endSessions which).power = s.power :=
  foldl_keeps Body.power _ (fun _ id => power_endSession id) _ s

/-! ### Removal -/

/-- The copies of pairs. -/
def Window.paired (w : Window) : Bool := w.state == .primary || w.state == .secondary

theorem windows_detachOne (x : Nat × Window) :
    ((s.setWin x.1 { x.2 with state := .detached, soloAsked := false }).auditWindow x.1).mss.windows
      = mset s.mss.windows x.1 { x.2 with state := .detached, soloAsked := false } := by
  rw [mss_auditWindow]
  rfl

/-- Window `wid` is detached once its turn has come, if it is of a pair. -/
theorem detached_foldl {wid : Nat} {l : List (Nat × Window)}
    (h : (∃ w, (wid, w) ∈ l) ∨ ∀ w, mget s.mss.windows wid = some w → w.paired = false) :
    ∀ w, mget (l.foldl (fun s w => (s.setWin w.1 { w.2 with state := .detached, soloAsked := false }).auditWindow w.1) s).mss.windows wid
      = some w → w.paired = false := by
  induction l generalizing s with
  | nil => exact h.resolve_left fun ⟨_, hw⟩ => List.not_mem_nil hw
  | cons x t ih =>
    refine ih ?_
    by_cases hx : wid = x.1
    · refine .inr fun w hw => ?_
      rw [windows_detachOne, hx, mget_mset_same] at hw
      cases hw
      rfl
    · refine h.imp (fun ⟨w, hw⟩ => ⟨w, (List.mem_cons.mp hw).resolve_left fun e => hx (congrArg Prod.fst e)⟩) fun hall w hw => ?_
      rw [windows_detachOne, mget_mset_other _ _ hx] at hw
      exact hall w hw

theorem detached_detachAll (wid : Nat) : ∀ w, mget s.detachAll.mss.windows wid = some w → w.paired = false := by
  refine detached_foldl ?_
  by_cases h : ∃ w, mget s.mss.windows wid = some w ∧ w.paired = true
  · obtain ⟨w, hw, hpaired⟩ := h
    exact .inl ⟨w, List.mem_filter.mpr ⟨mem_of_mget hw, hpaired⟩⟩
  · exact .inr fun w hw => Bool.eq_false_iff.mpr fun hpaired => h ⟨w, hw, hpaired⟩

theorem sansTraffic_drains (l : List Nat) (c : DrainCause) : (l.foldl (fun s l => s.drainOrDark l c) s).sansTraffic = s.sansTraffic :=
  foldl_keeps Body.sansTraffic _ (fun b l => sansTraffic_drainOrDark b l c) l s

theorem lasersOff_carts : ∀ x ∈ s.lasersOff.carts, x.2.state ≠ .atPower := by
  intro x hx
  obtain ⟨y, -, rfl⟩ := List.mem_map.mp hx
  unfold Cart.off
  dsimp only
  split <;> simp

/-- READY: the command answered, every laser off. -/
theorem ready_of_removable (h : s.removable = true) :
    s.ready.power = { s.power with state := .ready, removeCmd := none, draining := false } ∧ s.ready.carts = s.journal.lasersOff.carts := by
  unfold Body.ready
  rw [if_pos h]
  extract_lets s1 s2
  have hquiet : s2.quiet = s.journal.lasersOff.quiet := by
    simp only [s2]
    split
    · rw [quiet_completeRef, quiet_emit]
    · rw [quiet_emit]
  clear_value s2
  have hpower : s2.power = s.power := (power_of_quiet hquiet).trans rfl
  exact ⟨(congrArg (fun p : Power => { p with state := .ready, removeCmd := none, draining := false }) hpower :),
    (carts_of_quiet hquiet :)⟩

/-! ### The obligation's parts -/

/-- The feed comes back, or is first there (14 R367, R368, R375, R384). -/
theorem precharges (h : s.power.state = .unpowered) {mv : Nat} (hmv : 41000 ≤ mv) :
    (s.power.fetLatched = false → s.power.fetWait = .none → s.debounced mv = (s.setPower fun p => { p with present := true }).precharge mv
      ∧ (s.power.present = true → s.sagRestart mv false = s.precharge mv))
    ∧ (s.power.present = true →
      s.sagRestart mv true = (s.setPower fun p => { p with fetLatched := false, ocOpened := false }).precharge mv
      ∧ (s.power.fetLatched = false → s.power.fetWait ≠ .none → (s.power.fetWait = .overvoltage → mv ≤ 60000) →
        s.controllerRestart mv = s.precharge mv)) := by
  refine ⟨fun hlatch hwait => ⟨?_, fun hpresent => ?_⟩, fun hpresent => ⟨?_, fun hlatch hwait hover => ?_⟩⟩
  · exact if_pos ⟨h, by simp [Body.setPower, hlatch], hwait, hmv⟩
  · simp [Body.sagRestart, h, hpresent, hmv, hlatch, hwait]
  · simp [Body.sagRestart, h, hpresent, hmv]
  · exact if_pos ⟨h, hpresent, by simp [hlatch], hwait, hmv, by tauto⟩

theorem contact_assert (h : s.sensed = true) : s.contact true = s.setPower fun p => { p with ppContact := true } := by
  simp [Body.contact, h]

theorem contact_release (h : s.sensed = true) : s.contact false
    = (s.setPower fun p => { p with ppContact := false }).endSessions fun x => x.role == .maker := by
  simp [Body.contact, h]

/-- A session stays when the pin breaks just when it shares its ID with no maker session. -/
theorem sessions_contact_release (h : s.sensed = true) (x : Session) : x ∈ (s.contact false).sec.sessions ↔
    x ∈ s.sec.sessions ∧ ∀ y ∈ s.sec.sessions, y.id = x.id → y.role ≠ .maker := by
  rw [contact_release h, sessions_endSessions, List.mem_filter]
  change x ∈ s.sec.sessions ∧ _ ↔ _
  refine and_congr_right fun _ => ?_
  simp only [decide_eq_true_eq, List.mem_map, List.mem_filter, beq_iff_eq, not_exists, not_and]
  exact ⟨fun hno y hy hid hmaker => hno y ⟨hy, hmaker⟩ hid, fun hno y ⟨hy, hmaker⟩ hid => hno y hy hid hmaker⟩

/-- Settles O58: each event is one step of the feed, the pins or the removal, and a sag leaves SAVING and the dark. -/
theorem powerEvents : Obligations.PowerEvents := by
  intro s b p charging saving
  have hruns {c : Instr} {f : Body → Body} {q : Power → Prop} {pw : Power} (hc : exec c s = onBody s f) (hf : (f b).saving pw)
      (hq : q { pw with state := .saving, removeCmd := none, draining := false }) : saving c q := by
    obtain ⟨hpower, hlinks⟩ := hf
    exact ⟨_, hc, by rw [hpower], by rw [hpower]; exact hq, hlinks⟩
  refine ⟨fun mv hmv hoff => ?feed, fun hpre => ?good, fun hsaves => ⟨?sag, ?high, fun again => ?current, fun hready => ?unseat,
      fun on hon => ?low⟩,
    fun hsaving => ⟨?saved, ?bank⟩, fun hready => ?gone, fun hresets => ?reset, fun hreset => ?release, fun hsensed => ⟨?on, ?off⟩,
    fun hdrain => ?drain, fun hremove => ?ready⟩
  case feed =>
    obtain ⟨hfirst, hagain⟩ := precharges (s := b) hoff hmv
    refine ⟨fun hlatch hwait => ⟨?_, fun hpresent => ?_⟩, fun hpresent => ⟨?_, fun hlatch hwait hover => ?_⟩⟩
    · exact becomes_of_body (exec_presentDebounce s mv) (hfirst hlatch hwait).1
    · exact becomes_of_body (exec_sagRestart s mv false) ((hfirst hlatch hwait).2 hpresent)
    · exact becomes_of_body (exec_sagRestart s mv true) (hagain hpresent).1
    · exact becomes_of_body (exec_controllerRestart s mv) ((hagain hpresent).2 hlatch hwait hover)
  case good => exact becomes_of_body (exec_powerGood s) (if_neg (not_not_intro hpre))
  case sag => exact hruns (q := fun q => q.fetOn = p.fetOn) (exec_supplySag s) (saving_sag hsaves) rfl
  case high => exact hruns (q := fun q => q.fetOn = false ∧ q.fetWait = .overvoltage) (exec_overvoltage s) (saving_fetOpens hsaves _) ⟨rfl, rfl⟩
  case current =>
    exact hruns (q := fun q => q.fetOn = false ∧ q.fetWait = .overcurrent ∧ q.ocOpened = true ∧ q.fetLatched = (p.ocOpened && again))
      (exec_overcurrent s again) (saving_overcurrent hsaves again) ⟨rfl, rfl, rfl, rfl⟩
  case unseat => exact hruns (q := fun q => q.present = false) (exec_presentBreak s) (saving_presentBreak hsaves hready) rfl
  case low =>
    cases on
    · exact becomes_of_body (exec_lowLineExit s) (if_pos ⟨hsaves, hon⟩)
    · exact becomes_of_body (exec_lowLineEntry s) (if_pos ⟨hsaves, hon⟩)
  case saved =>
    have hunsaved := unsaved_saveItems (s := b) 5
    refine ⟨_, becomes_of_body (exec_sagSaveComplete s) (if_neg (not_not_intro hsaving)),
      lostPower_of_unsaved ((unsaved_withMram _).trans hunsaved), rfl, ?_, fun hphase => ?_⟩
    · exact congrArg Clock.ns (clock_of_unsaved hunsaved)
    · exact snapshot_saveItems hphase
  case bank =>
    refine ⟨_, becomes_of_body (exec_bankExhausted s) (if_neg (not_not_intro hsaving)),
      lostPower_of_unsaved ((unsaved_withMram _).trans ((unsaved_saveItems _).trans rfl)), rfl, rfl⟩
  case gone =>
    exact ⟨_, becomes_of_body (exec_presentBreak s) (presentBreak_of_ready hready), lostPower_powerOff rfl rfl rfl, rfl, rfl⟩
  case reset =>
    have huncut := uncut_cutLaunches b
    have hclock : b.cutLaunches.clock = b.clock := (congrArg Body.clock huncut :)
    refine ⟨_, becomes_of_body (exec_moduleReset s) (if_pos hresets), rfl, rfl, rfl, ?_, ?_, rfl, rfl, rfl, rfl, ?_, ?_, rfl, ?_⟩
    · exact (congrArg Clock.ns hclock :)
    · exact (congrArg Clock.frac hclock :)
    · exact (congrArg (fun x : Body => x.hifA.linkUp) huncut :)
    · exact (congrArg (fun x : Body => x.hifB.linkUp) huncut :)
    · exact (congrArg (fun x : Body => x.portage.cells) huncut :)
  case release => exact becomes_of_body (exec_moduleResetRelease s) (if_pos hreset)
  case on => exact becomes_of_body (exec_ppContactAssert s) (contact_assert hsensed)
  case off =>
    refine ⟨_, becomes_of_body (exec_ppContactRelease s) rfl, ?_, fun x hx => ?_, fun x hx hno => ?_⟩
    · change (b.contact false).power.ppContact = false
      rw [contact_release hsensed, power_endSessions]
      rfl
    · obtain ⟨hmem, hother⟩ := (sessions_contact_release hsensed x).mp hx
      exact hother x hmem rfl
    · exact (sessions_contact_release hsensed x).mpr ⟨hx, hno⟩
  case drain =>
    have hdrains := sansTraffic_drains (s := b.detachAll.setPower fun p => { p with draining := true })
      (b.detachAll.lports.map fun x => x.1) .remove
    refine ⟨_, becomes_of_body (exec_removalDrainStart s) (if_pos hdrain), ?_, fun wid w hw => ?_⟩
    · exact (congrArg (fun x : Body => x.power.draining) hdrains :)
    · have hmss := (congrArg (fun x : Body => x.mss.windows) hdrains :)
      have hfree := detached_detachAll wid w (by rw [← hw]; exact (congrArg (fun m => mget m wid) hmss).symm)
      simpa [Window.paired] using hfree
  case ready =>
    obtain ⟨hpower, hcarts⟩ := ready_of_removable hremove
    refine ⟨_, becomes_of_body (exec_readyToRemove s) rfl, congrArg Power.state hpower, congrArg Power.removeCmd hpower, fun x hx => ?_⟩
    exact lasersOff_carts x (hcarts ▸ hx)

end Sys2Proof.Machine
end

section
/-! SUPPORT. The rotating test of the Setts (12 R328-R330, R315): a helper that is called to a Sett changes neither the Sett it is called
to nor any other, but for the SUBJECT whose test it gives up. -/

namespace Sys2Proof.Machine

variable {s : Body} {n m : Nat}

/-! ### State, test and fault times of a Sett -/

/-- The state of Sett `n`, the phase of its test and the times of its checker's faults. -/
def Body.core (s : Body) (n : Nat) : SettState × TestPhase × List Nat := ((s.sett n).state, (s.sett n).test, (s.sett n).degraded)

theorem core_of_setts {a b : Body} (h : a.setts = b.setts) (n : Nat) : a.core n = b.core n := by
  unfold Body.core
  rw [sett_of_setts h]

theorem core_modSett_other (h : n ≠ m) (f : Sett → Sett) : (s.modSett m f).core n = s.core n := by
  unfold Body.core
  rw [sett_modSett_other s h]

/-- A change of a Sett's use, clock or energy. -/
theorem core_modSett_use (m : Nat) {f : Sett → Sett} (hstate : ∀ x, (f x).state = x.state) (htest : ∀ x, (f x).test = x.test)
    (hdegraded : ∀ x, (f x).degraded = x.degraded) (n : Nat) : (s.modSett m f).core n = s.core n := by
  by_cases h : n = m
  · subst h
    unfold Body.core
    rw [sett_modSett_same, hstate, htest, hdegraded]
  · exact core_modSett_other h f

theorem core_callSpare (m : Nat) (use : SettUse) (n : Nat) : (s.callSpare m use).core n = s.core n :=
  core_modSett_use m (by intro; rfl) (by intro; rfl) (by intro; rfl) n

theorem core_returnSpare (m n : Nat) : (s.returnSpare m).core n = s.core n := by
  unfold Body.returnSpare
  split
  · rfl
  next x _ => exact core_modSett_use (s := s) x.2 (f := fun y => { y with use := .none }) (fun _ => rfl) (fun _ => rfl) (fun _ => rfl) n

theorem setts_reselect : s.reselect.setts = s.setts := by
  unfold Body.reselect Body.fillSelection
  split
  · rfl
  · dsimp only
    split <;> rfl

theorem core_reselect (n : Nat) : s.reselect.core n = s.core n := core_of_setts setts_reselect n

theorem core_bump (c : Ctr) (i n : Nat) : (s.bump c i).core n = s.core n := core_of_setts (setts_of_quiet (quiet_bump ..)) n

/-! ### Helpers -/

/-- A helper is found as things stand, or is another Sett, a SUBJECT whose test is given up. -/
theorem helper_aborts (s : Body) (m : Nat) : (∃ h, s.helper m = (h, s))
    ∨ ∃ k, k ≠ m ∧ (s.sett k).state = .subject ∧ s.helper m = (some k, s.abortTest k) := by
  unfold Body.helper
  dsimp only
  split
  · exact .inl ⟨_, rfl⟩
  · split
    next k hfind =>
      have hsubject := List.find?_some hfind
      simp only [Bool.and_eq_true, bne_iff_ne, beq_iff_eq] at hsubject
      obtain ⟨⟨hne, hstate⟩, -⟩ := hsubject
      exact .inr ⟨k, hne, hstate, rfl⟩
    · exact .inl ⟨_, rfl⟩

theorem core_abortTest_other (h : n ≠ m) : (s.abortTest m).core n = s.core n := by
  unfold Body.abortTest
  exact (core_bump ..).trans ((core_returnSpare ..).trans (core_modSett_other h _))

/-- The Sett a helper is sought for is not touched, nor is any that is no SUBJECT. -/
theorem core_helper (h : n = m ∨ (s.sett n).state ≠ .subject) : (s.helper m).2.core n = s.core n := by
  obtain ⟨k, heq⟩ | ⟨k, hne, hsubject, heq⟩ := helper_aborts s m
  · rw [heq]
  · rw [heq]
    refine core_abortTest_other fun hnk => ?_
    obtain rfl | hother := h
    · exact hne hnk.symm
    · exact hother (hnk ▸ hsubject)

theorem core_takePartner (h : n = m ∨ (s.sett n).state ≠ .subject) : (s.takePartner m).core n = s.core n := by
  have hhelper := core_helper h
  unfold Body.takePartner
  split
  next k b heq =>
    rw [heq] at hhelper
    refine Eq.trans ?_ hhelper
    split
    · exact core_callSpare ..
    · exact core_modSett_use k (by intro; rfl) (by intro; rfl) (by intro; rfl) n
  next b heq =>
    rw [heq] at hhelper
    exact hhelper

/-! ### Into service (12 R315, R330) -/

theorem intoService_of_whole (h : (s.sett m).degraded.length < 3) : s.intoService m = s.modSett m fun x => { x with state := .inService } := by
  unfold Body.intoService
  dsimp only
  rw [sett_modSett_same, if_neg (by simpa using h)]

/-- A Sett whose checker is still out comes back in DUPLICATE. -/
theorem core_intoService_same (h : 3 ≤ (s.sett m).degraded.length) :
    (s.intoService m).core m = (.duplicate, (s.sett m).test, (s.sett m).degraded) := by
  unfold Body.intoService Body.enterDuplicate
  dsimp only
  rw [sett_modSett_same, if_pos (by simpa using h)]
  refine (core_takePartner (.inl rfl)).trans ?_
  unfold Body.core
  rw [sett_modSett_same, sett_modSett_same]

theorem core_intoService_other (hne : n ≠ m) (h : (s.sett n).state ≠ .subject) : (s.intoService m).core n = s.core n := by
  have hput : (s.modSett m fun x => { x with state := .inService }).core n = s.core n := core_modSett_other hne _
  unfold Body.intoService Body.enterDuplicate
  dsimp only
  split
  · refine (core_takePartner (.inr ?_)).trans ((core_modSett_other hne _).trans hput)
    rw [sett_modSett_other _ hne, sett_modSett_other _ hne]
    exact h
  · exact hput

/-! ### A rotation (12 R328) -/

/-- A Sett that becomes its die's subject. -/
def Sett.chosen (x : Sett) : Sett := { x with state := if x.state = .duplicate then .duplicate else .subject, test := .waiting }

theorem setts_makeSubject (n : Nat) : (s.makeSubject n).setts = (s.modSett n Sett.chosen).setts := rfl

theorem sett_subjected (n k : Nat) : (s.makeSubject n).reselect.sett k = if k = n then (s.sett n).chosen else s.sett k := by
  rw [sett_of_setts (setts_reselect.trans (setts_makeSubject n)), sett_modSett]

theorem nextSubject_state {die : Nat} (h : s.nextSubject die = some n) : (s.sett n).state = .inService ∨ (s.sett n).state = .duplicate := by
  unfold Body.nextSubject at h
  dsimp only at h
  split at h
  next k hfind =>
    cases h
    have hok := List.find?_some hfind
    simp only [Bool.and_eq_true, Bool.or_eq_true, beq_iff_eq] at hok
    exact hok.2
  next =>
    split at h
    next k hfind =>
      cases h
      exact .inr (by simpa using List.find?_some hfind)
    next =>
      have hok := List.find?_some h
      simpa only [Bool.or_eq_true, beq_iff_eq] using hok

theorem rotationSpare_state {die p : Nat} {subject : Option Nat} {lent : Bool} (h : s.rotationSpare die subject = some (p, lent)) :
    (s.sett p).state = .spare := by
  unfold Body.rotationSpare at h
  dsimp only at h
  split at h
  next k hfind =>
    cases h
    have hown := List.find?_some hfind
    simp only [Bool.and_eq_true, Bool.or_eq_true, beq_iff_eq] at hown
    tauto
  next =>
    obtain ⟨k, hfind, heq⟩ := Option.map_eq_some_iff.mp h
    cases heq
    have hfree := List.find?_some hfind
    simp only [Bool.and_eq_true, beq_iff_eq] at hfree
    exact hfree.1

/-- The body in which the SPARE has taken the subject's place: lent by a neighbour, or in service. -/
def Body.replaced (s : Body) (n p : Nat) (lent : Bool) : Body :=
  if lent then { s.callSpare p (.standIn n) with integ := { s.integ with borrowed := s.integ.borrowed ++ [(n, p)] } }
  else (s.callSpare p (s.sett p).use).intoService p

theorem rotate_of_spare {die p : Nat} {lent : Bool} (hidle : s.testing die = false) (hnext : s.nextSubject die = some n)
    (hspare : s.rotationSpare die (some n) = some (p, lent)) : s.rotate die = ((s.replaced n p lent).makeSubject n).reselect := by
  unfold Body.rotate
  rw [hidle, hnext, hspare]
  rfl

theorem rotate_of_none {die : Nat}
    (h : s.testing die = true ∨ s.rotationSpare die (s.nextSubject die) = none ∨ s.nextSubject die = none) :
    s.rotate die = s.bump .testSkipped die := by
  unfold Body.rotate
  split
  · rfl
  next hidle =>
    split
    next p lent k hspare hnext =>
      obtain h | h | h := h
      · exact absurd h hidle
      · exact absurd (hspare.symm.trans h) (by simp)
      · exact absurd (hnext.symm.trans h) (by simp)
    next => rfl

theorem sett_callSpare_core (p : Nat) (use : SettUse) : (s.callSpare p use).core p = s.core p ∧ ((s.callSpare p use).sett p).use = use := by
  refine ⟨core_callSpare p use p, ?_⟩
  unfold Body.callSpare
  rw [sett_modSett_same]

theorem sett_callSpare_other {p k : Nat} (h : k ≠ p) (use : SettUse) : (s.callSpare p use).sett k = s.sett k :=
  sett_modSett_other s h _

/-- A SPARE that takes a place: the others are as they were, itself lent or in service, its use kept or the place it stands in for. -/
theorem sett_replaced {p : Nat} {lent : Bool} (hspare : (s.sett p).state = .spare) (h : lent = true ∨ (s.sett p).degraded.length < 3) :
    ((s.replaced n p lent).sett p).state = (if lent then .spare else .inService)
    ∧ ((s.replaced n p lent).sett p).use = (if lent then .standIn n else (s.sett p).use)
    ∧ ∀ k, k ≠ p → (s.replaced n p lent).sett k = s.sett k := by
  cases lent with
  | true =>
    obtain ⟨hcore, huse⟩ := sett_callSpare_core (s := s) p (.standIn n)
    exact ⟨(congrArg Prod.fst hcore).trans hspare, huse, fun k hk => sett_callSpare_other hk _⟩
  | false =>
    obtain ⟨hcore, huse⟩ := sett_callSpare_core (s := s) p (s.sett p).use
    have hdegraded : ((s.callSpare p (s.sett p).use).sett p).degraded = (s.sett p).degraded := congrArg (·.2.2) hcore
    have hwhole : (s.sett p).degraded.length < 3 := h.resolve_left (by decide)
    have hput : s.replaced n p false = (s.callSpare p (s.sett p).use).modSett p fun x => { x with state := .inService } :=
      intoService_of_whole (by rw [hdegraded]; exact hwhole)
    rw [hput]
    refine ⟨by rw [sett_modSett_same]; rfl, by rw [sett_modSett_same]; exact huse, fun k hk => ?_⟩
    rw [sett_modSett_other _ hk, sett_callSpare_other hk]

theorem core_replaced_subject {p : Nat} {lent : Bool} (hne : n ≠ p) (h : (s.sett n).state ≠ .subject) :
    (s.replaced n p lent).core n = s.core n := by
  cases lent with
  | true => exact core_callSpare p (.standIn n) n
  | false =>
    refine (core_intoService_other hne ?_).trans (core_callSpare ..)
    rw [sett_callSpare_other hne]
    exact h

theorem state_replaced_degraded {p : Nat} (h : 3 ≤ (s.sett p).degraded.length) : ((s.replaced n p false).sett p).state = .duplicate := by
  obtain ⟨hcore, -⟩ := sett_callSpare_core (s := s) p (s.sett p).use
  have hdegraded : ((s.callSpare p (s.sett p).use).sett p).degraded = (s.sett p).degraded := congrArg (·.2.2) hcore
  exact congrArg Prod.fst (core_intoService_same (s := s.callSpare p (s.sett p).use) (m := p) (by rw [hdegraded]; exact h))

end Sys2Proof.Machine
end

section
/-! SUPPORT. The end of a Sett's test (12 R329, R330), Den clusters and HBM stacks (12 R321-R327). -/

namespace Sys2Proof.Machine

variable {s : Body} {n : Nat}

/-! ### The test starts and ends -/

/-- A Sett that is `n`'s partner no more. -/
def Sett.freedOf (n : Nat) (x : Sett) : Sett := if x.use = .partner n then { x with use := .none } else x

theorem sett_mapFreed (n k : Nat) :
    ({ s with setts := s.setts.map fun (x : Nat × Sett) => (x.1, x.2.freedOf n) } : Body).sett k = (s.sett k).freedOf n := by
  unfold Body.sett mgetD
  dsimp only
  rw [mget_map_snd (Sett.freedOf n)]
  cases mget s.setts k with
  | none => rfl
  | some x => rfl

theorem testStart_of_clear (h : (s.sett n).test = .waiting) (hclear : ∀ c ∈ s.coll.ctxs, s.settFor c ≠ n) :
    s.testStart n = ({ s with setts := s.setts.map fun (x : Nat × Sett) => (x.1, x.2.freedOf n) } : Body).modSett n fun x =>
      { x with state := .subject, test := .running } :=
  if_pos ⟨h, by simpa using hclear⟩

/-- A Sett out of its test, SPARE. -/
def Sett.rested (x : Sett) : Sett := { x with state := .spare, use := .none, test := .none }

theorem core_rested (s : Body) (n : Nat) : ((s.modSett n Sett.rested).returnSpare n).core n = (.spare, .none, (s.sett n).degraded) := by
  rw [core_returnSpare]
  unfold Body.core
  rw [sett_modSett_same]
  rfl

theorem use_returnSpare {k m : Nat} (h : (s.sett k).use = .none) : ((s.returnSpare m).sett k).use = .none := by
  unfold Body.returnSpare
  split
  · exact h
  next x _ =>
    change ((s.modSett x.2 fun y => { y with use := .none }).sett k).use = .none
    rw [sett_modSett]
    split
    · rfl
    · exact h

theorem coll_returnSpare (m : Nat) : (s.returnSpare m).coll = s.coll := by
  unfold Body.returnSpare
  split <;> rfl

theorem coll_reselect : s.reselect.coll = s.coll := by
  unfold Body.reselect Body.fillSelection
  split
  · rfl
  · dsimp only
    split <;> rfl

/-- A whole Sett's round ends: SPARE, or in service. -/
theorem testOver_of_whole (h : (s.sett n).degraded = []) (back : Bool) :
    ((s.testOver n back).sett n).state = (if back then .inService else .spare)
    ∧ ((s.testOver n back).sett n).test = .none ∧ ((s.testOver n back).sett n).use = .none
    ∧ ((s.testOver n back).sett n).degraded = [] ∧ (s.testOver n back).coll = s.coll := by
  have hcore := core_rested s n
  have huse : (((s.modSett n Sett.rested).returnSpare n).sett n).use = .none :=
    use_returnSpare (by rw [sett_modSett_same]; rfl)
  have hcoll : ((s.modSett n Sett.rested).returnSpare n).coll = s.coll := coll_returnSpare n
  have hover : s.testOver n back = if back then (((s.modSett n Sett.rested).returnSpare n).intoService n).reselect
      else (s.modSett n Sett.rested).returnSpare n := rfl
  rw [hover]
  generalize (s.modSett n Sett.rested).returnSpare n = b at hcore huse hcoll
  have htest : (b.sett n).test = .none := (congrArg (·.2.1) hcore :)
  have hdegraded : (b.sett n).degraded = [] := (congrArg (·.2.2) hcore :).trans h
  cases back with
  | false => exact ⟨(congrArg Prod.fst hcore :), htest, huse, hdegraded, hcoll⟩
  | true =>
    have hsett : ((b.intoService n).reselect).sett n = { b.sett n with state := .inService } := by
      rw [sett_of_setts setts_reselect, intoService_of_whole (by rw [hdegraded]; decide), sett_modSett_same]
    simp only [if_true, hsett]
    refine ⟨trivial, htest, huse, hdegraded, ?_⟩
    rw [coll_reselect, intoService_of_whole (by rw [hdegraded]; decide)]
    exact hcoll

/-- An untested Sett's round ends: SPARE, or back as its count of faults allows. -/
theorem core_testOver (s : Body) (n : Nat) (back : Bool) : (s.testOver n back).core n =
    (if back then if 3 ≤ (s.sett n).degraded.length then .duplicate else .inService else .spare, .none, (s.sett n).degraded) := by
  have hcore := core_rested s n
  have hover : s.testOver n back = if back then (((s.modSett n Sett.rested).returnSpare n).intoService n).reselect
      else (s.modSett n Sett.rested).returnSpare n := rfl
  rw [hover]
  generalize (s.modSett n Sett.rested).returnSpare n = b at hcore
  have htest : (b.sett n).test = .none := (congrArg (·.2.1) hcore :)
  have hdegraded : (b.sett n).degraded = (s.sett n).degraded := (congrArg (·.2.2) hcore :)
  cases back with
  | false => exact hcore
  | true =>
    rw [if_pos rfl, if_pos rfl, core_reselect]
    split
    next hmany => rw [core_intoService_same (by rw [hdegraded]; exact hmany), htest, hdegraded]
    next hfew =>
      rw [intoService_of_whole (by rw [hdegraded]; omega)]
      unfold Body.core
      rw [sett_modSett_same, htest, hdegraded]

/-! ### The round's count -/

/-- The deferred tests of a die. -/
def Body.deferred (s : Body) (die : Nat) : Nat := s.count .testBudgetDefer die

theorem deferred_returnSpare (m die : Nat) : (s.returnSpare m).deferred die = s.deferred die := by
  unfold Body.returnSpare
  split <;> rfl

theorem deferred_helper (m die : Nat) : (s.helper m).2.deferred die = s.deferred die := by
  obtain ⟨k, heq⟩ | ⟨k, -, -, heq⟩ := helper_aborts s m
  · rw [heq]
  · rw [heq]
    exact (count_bumpBy_other _ (by decide) (by decide) _ _ _).trans ((deferred_returnSpare ..).trans rfl)

theorem deferred_takePartner (m die : Nat) : (s.takePartner m).deferred die = s.deferred die := by
  have hhelper := deferred_helper (s := s) m die
  unfold Body.takePartner
  split
  next k b heq =>
    rw [heq] at hhelper
    refine Eq.trans ?_ hhelper
    split <;> rfl
  next b heq =>
    rw [heq] at hhelper
    exact hhelper

theorem deferred_intoService (m die : Nat) : (s.intoService m).deferred die = s.deferred die := by
  unfold Body.intoService Body.enterDuplicate
  dsimp only
  split
  · exact (deferred_takePartner ..).trans rfl
  · rfl

theorem deferred_reselect (die : Nat) : s.reselect.deferred die = s.deferred die := by
  unfold Body.reselect Body.fillSelection
  split
  · rfl
  · dsimp only
    split <;> rfl

theorem deferred_testOver (n : Nat) (back : Bool) (die : Nat) : (s.testOver n back).deferred die = s.deferred die := by
  have hrest : ((s.modSett n Sett.rested).returnSpare n).deferred die = s.deferred die := deferred_returnSpare (s := s.modSett n Sett.rested) n die
  cases back with
  | false => exact hrest
  | true => exact (deferred_reselect ..).trans ((deferred_intoService ..).trans hrest)

/-! ### HBM stacks (12 R324-R327) -/

theorem integ_returnAllot (l : Nat) : (s.returnAllot l).integ = s.integ := by
  unfold Body.returnAllot
  dsimp only
  split <;> rfl

theorem integ_loseHeld (die : Nat) : (s.loseHeld die).integ = s.integ := by
  unfold Body.loseHeld
  refine (foldl_keeps Body.integ _ (fun b e => ?_) _ _).trans rfl
  exact (integ_of_quiet (quiet_bump ..)).trans ((integ_returnAllot ..).trans
    ((congrArg Body.integ (sansFrames_collect _ e.copy.fid) :).trans rfl))

theorem integ_rebuild (c : Ctx) (g : Group) (t : Stage) (keep : Input → Bool) : (s.rebuild c g t keep).integ = s.integ := by
  have hdisown := (sansFrames_disown (s.settleSlots (s.settFor c) t .tdWasted).1 c g (s.settleSlots (s.settFor c) t .tdWasted).2).trans
    (sansFrames_settleSlots ..)
  exact (congrArg Body.integ hdisown :)

theorem integ_poisonChunk (c : Ctx) (g : Group) (k : StageKey) : (s.poisonChunk c g k).integ = s.integ := by
  unfold Body.poisonChunk
  split
  · exact integ_rebuild ..
  · rfl

theorem integ_loseSpill : s.loseSpill.integ = s.integ := by
  unfold Body.loseSpill
  refine foldl_keeps Body.integ _ (fun b c => foldl_keeps Body.integ _ (fun b t => ?_) _ _) _ _
  split
  · exact integ_poisonChunk ..
  · rfl

theorem integ_logGap : s.logGap.integ = s.integ := (integ_of_quiet (quiet_emit ..)).trans rfl

/-- The stack can be spared: the headroom takes its units. -/
def Body.roomy (s : Body) : Prop := s.profiles.inForce.headroom ≠ 0 ∧ s.integ.headroomUsed = false

theorem stackLost_of_roomy (hlive : s.stackSt n ≠ .lost ∧ s.stackSt n ≠ .retired ∧ s.stackSt n ≠ .absent) (h : s.roomy) :
    ∃ b : Body, s.stackLost n = b.damageWindows ∧ b.integ = { s.integ with stackSt := mset s.integ.stackSt n .lost, headroomUsed := true } := by
  obtain ⟨hlost, hretired, habsent⟩ := hlive
  obtain ⟨hroom, hunused⟩ := h
  unfold Body.stackLost
  split
  · contradiction
  · contradiction
  · contradiction
  · rw [if_neg (by simp [hroom, hunused])]
    refine ⟨_, rfl, ?_⟩
    rw [integ_loseSpill, integ_loseHeld]
    have hemit : ((s.setStack n .lost).emit 0x505 [n]).integ = (s.setStack n .lost).integ := integ_of_quiet (quiet_emit ..)
    split
    · exact (congrArg (fun i : Integ => { i with headroomUsed := true }) hemit :)
    · exact (integ_logGap).trans (congrArg (fun i : Integ => { i with headroomUsed := true }) hemit :)

theorem stackLost_of_full (hlive : s.stackSt n ≠ .lost ∧ s.stackSt n ≠ .retired ∧ s.stackSt n ≠ .absent) (h : ¬ s.roomy) :
    s.stackLost n = s.fatalStop 0x0A (n / 5) 0xFF 8 := by
  obtain ⟨hlost, hretired, habsent⟩ := hlive
  unfold Body.stackLost
  split
  · contradiction
  · contradiction
  · contradiction
  · refine if_pos ?_
    simp only [Bool.or_eq_true, decide_eq_true_eq]
    unfold Body.roomy at h
    by_contra hno
    simp_all

/-- Every window is damaged. -/
theorem damaged_damageWindows : ∀ x ∈ s.damageWindows.mss.windows, x.2.damaged = true := by
  intro x hx
  obtain ⟨y, -, rfl⟩ := List.mem_map.mp hx
  rfl

/-- A stack that is lost or retired is shown. -/
theorem getLsbD_stackShown (w : BitVec 20) (n : Fin 20) : (w ||| ((1 : BitVec 20) <<< n.val)).getLsbD n = true := by
  simp [n.isLt]

/-! ### Fatal stops (12 R307) -/

theorem runs_of_serves (h : s.serves = true) : s.power.state.runs = true := by
  simp only [Body.serves, Bool.and_eq_true, Bool.or_eq_true, beq_iff_eq] at h
  obtain ⟨-, h | h⟩ := h <;> rw [h] <;> rfl

/-- What a fatal stop leaves: STOPPED with its cause shown, the dark, and no activation. -/
theorem dark_fatalStop (h : s.power.state.runs = true) (cause die stack subsys : Nat) :
    (s.fatalStop cause die stack subsys).dark = (s.cutLaunches.goDark.dropActivation.stopWith cause die stack subsys).dark := by
  unfold Body.fatalStop
  rw [if_pos h, dark_applyFallback]

theorem becomes_of_stack {s : State} {n : Fin 20} {f : Body → Body} {c : Instr} (hfit : s.hw.fittedHbm.getLsbD n = true)
    (hserves : s.toBody.serves = true) (hc : exec c s = onStack s n f) : becomes c s (f s.toBody) := by
  rw [becomes, hc, onStack, if_pos hfit, onBody, if_pos hserves]

end Sys2Proof.Machine
end

section
/-! SUPPORT. Live tests (12 R321-R330). -/

namespace Sys2Proof.Machine

/-- A rotation finds its subject and the SPARE for its place. -/
theorem rotation_puts {s : Body} {n p : Nat} {lent : Bool} (hsubject : (s.sett n).state = .inService ∨ (s.sett n).state = .duplicate)
    (hspare : (s.sett p).state = .spare) :
    let t := ((s.replaced n p lent).makeSubject n).reselect
    (t.sett n).test = .waiting ∧ (t.sett n).state = (if (s.sett n).state = .duplicate then .duplicate else .subject)
    ∧ (lent = false → 3 ≤ (s.sett p).degraded.length → (t.sett p).state = .duplicate)
    ∧ (lent = true ∨ (s.sett p).degraded.length < 3 →
        (t.sett p).state = (if lent then .spare else .inService) ∧ (t.sett p).use = (if lent then .standIn n else (s.sett p).use)
        ∧ ∀ k, k ≠ n → k ≠ p → t.sett k = s.sett k) := by
  have hne : n ≠ p := by
    rintro rfl
    obtain h | h := hsubject <;> exact absurd (h.symm.trans hspare) (by decide)
  have hlive : (s.sett n).state ≠ .subject := by obtain h | h := hsubject <;> rw [h] <;> decide
  have hcore := core_replaced_subject (lent := lent) hne hlive
  have hstate : ((s.replaced n p lent).sett n).state = (s.sett n).state := congrArg Prod.fst hcore
  intro t
  have hn : t.sett n = ((s.replaced n p lent).sett n).chosen := by rw [sett_subjected, if_pos rfl]
  have hother : ∀ k, k ≠ n → t.sett k = (s.replaced n p lent).sett k := fun k hk => by rw [sett_subjected, if_neg hk]
  refine ⟨by rw [hn]; rfl, by rw [hn, ← hstate]; rfl, fun hown hmany => ?_, fun hwhole => ?_⟩
  · subst hown
    rw [hother p hne.symm]
    exact state_replaced_degraded hmany
  · obtain ⟨hpstate, hpuse, hkept⟩ := sett_replaced (n := n) hspare hwhole
    rw [hother p hne.symm]
    exact ⟨hpstate, hpuse, fun k hk hkp => (hother k hk).trans (hkept k hkp)⟩

/-- A failed test bans the Sett. -/
theorem banned_testDone {s : Body} {n : Nat} (hrun : (s.sett n).test = .running) (h : (s.sett n).state ≠ .quarantined) (pattern : Nat) :
    (s.testDone n false pattern).banned n := by
  have hban : ((s.returnSpare n).quarantine n 3).banned n :=
    banned_quarantine _ (by rw [settStates_returnSpare]; exact h) 3
  have hdone : s.testDone n false pattern = ((s.returnSpare n).quarantine n 3).emit 0x502 [put pattern 16 + n] := by
    unfold Body.testDone
    rw [if_neg (not_not_intro hrun)]
    rfl
  rw [hdone]
  exact ⟨(congrFun (settStates_emit ..) n).trans hban.1, by rw [quarantine_of_quiet (quiet_emit ..)]; exact hban.2⟩

theorem testDone_of_pass {s : Body} {n : Nat} (hrun : (s.sett n).test = .running) (pattern : Nat) : s.testDone n true pattern
    = (s.modSett n fun x => { x with degraded := [] }).testOver n (s.lentFor n || decide ((s.sett n).degraded.length ≥ 3)) := by
  unfold Body.testDone
  rw [if_neg (not_not_intro hrun)]
  rfl

theorem testDefer_of_running {s : Body} {n : Nat} (hrun : (s.sett n).test = .running) :
    s.testDefer n = (s.testOver n (s.lentFor n)).bump .testBudgetDefer (n / 5) :=
  if_neg (not_not_intro hrun)

/-! ### Den clusters (12 R321-R323) -/

/-- The module with its Den clusters so. -/
def Body.dens (s : Body) (a b : DenState) : Body := { s with integ := { s.integ with denA := a, denB := b } }

theorem denLoss_takeover {s : Body} :
    (s.integ.denA = .active → s.integ.denB = .standby → s.denLoss.quiet = (s.dens .failed .active).quiet)
    ∧ (s.integ.denB = .active → s.integ.denA = .standby → s.denLoss.quiet = (s.dens .active .failed).quiet)
    ∧ (¬(s.integ.denA = .active ∧ s.integ.denB = .standby) → ¬(s.integ.denB = .active ∧ s.integ.denA = .standby) →
      s.denLoss = s.restartControl) := by
  unfold Body.denLoss
  refine ⟨fun ha hb => ?_, fun hb ha => ?_, fun hno hno' => ?_⟩
  · rw [if_pos ⟨ha, hb⟩, quiet_emit]
    rfl
  · rw [if_neg (by simp [ha]), if_pos ⟨hb, ha⟩, quiet_emit]
    rfl
  · rw [if_neg hno, if_neg hno']

theorem denTest_starts {s : Body} :
    (s.integ.denA = .active → s.integ.denB = .standby ∨ s.integ.denB = .failed → s.denTest = s.dens s.integ.denA .testing)
    ∧ (s.integ.denB = .active → s.integ.denA = .standby ∨ s.integ.denA = .failed → s.denTest = s.dens .testing s.integ.denB) := by
  unfold Body.denTest
  refine ⟨fun ha hb => if_pos ⟨ha, hb⟩, fun hb ha => ?_⟩
  rw [if_neg (by rintro ⟨h, -⟩; simp [h] at ha), if_pos ⟨hb, ha⟩]
  rfl

theorem denTested_rejoins {s : Body} (pass : Bool) :
    (s.integ.denA = .testing →
      (s.denTested pass).quiet = (s.dens (if pass then .standby else .failed) s.integ.denB).quiet)
    ∧ (s.integ.denA ≠ .testing → s.integ.denB = .testing →
      (s.denTested pass).quiet = (s.dens s.integ.denA (if pass then .standby else .failed)).quiet) := by
  unfold Body.denTested
  refine ⟨fun ha => ?_, fun ha hb => ?_⟩
  · rw [if_pos ha]
    cases pass
    · exact (quiet_emit ..).trans rfl
    · rfl
  · rw [if_neg ha, if_pos hb]
    cases pass
    · exact (quiet_emit ..).trans rfl
    · rfl

/-! ### HBM stacks (12 R324-R327) -/

theorem stackTested_fails {s : Body} {n : Fin 20} (h : s.stackSt n = .testing) :
    (s.stackTested n false).integ = (s.setStack n .retired).integ ∧ (s.stackTested n false).lantern.stacksLost.getLsbD n = true := by
  have hfails : s.stackTested n false = ((s.setStack n .retired).emit 0x506 [n.val]).lanternPut fun l =>
      { l with stacksLost := l.stacksLost ||| ((1 : BitVec 20) <<< n.val) } := if_neg (not_not_intro h)
  rw [hfails]
  have hinteg := integ_of_quiet (quiet_emit (s.setStack n .retired) 0x506 [n.val])
  exact ⟨hinteg, getLsbD_stackShown _ n⟩

theorem stackLost_spared {s : Body} {n : Nat} (hlive : s.stackSt n ≠ .lost ∧ s.stackSt n ≠ .retired ∧ s.stackSt n ≠ .absent)
    (h : s.roomy) : (s.stackLost n).stackSt n = .lost ∧ (s.stackLost n).integ.headroomUsed = true
      ∧ ∀ x ∈ (s.stackLost n).mss.windows, x.2.damaged = true := by
  obtain ⟨b, hlost, hinteg⟩ := stackLost_of_roomy hlive h
  rw [hlost]
  refine ⟨?_, (congrArg Integ.headroomUsed hinteg :), damaged_damageWindows⟩
  exact (congrArg (fun i : Integ => mgetD i.stackSt n .service) hinteg :).trans (mgetD_mset_same ..)

theorem stackLost_stops {s : Body} {n : Nat} (hlive : s.stackSt n ≠ .lost ∧ s.stackSt n ≠ .retired ∧ s.stackSt n ≠ .absent)
    (h : ¬ s.roomy) (hserves : s.serves = true) :
    (s.stackLost n).power.state = .stopped ∧ (s.stackLost n).lantern.stopCause = 0x0A := by
  have hdark := dark_fatalStop (runs_of_serves hserves) 0x0A (n / 5) 0xFF 8
  rw [stackLost_of_full hlive h]
  exact ⟨(congrArg (·.power.state) hdark :), (congrArg (·.lantern.stopCause) hdark :)⟩

/-- Settles O55: the rotation, its test and its end for a Sett; the Den clusters; the stacks. -/
theorem liveTestsRun : Obligations.LiveTestsRun := by
  intro s hserves b
  refine ⟨fun hdata => ⟨fun die hcontrol => ?rotation, fun n hwait hclear => ?starts, fun n pattern hrun => ?ends⟩, ?den, fun n hfit => ?hbm⟩
  case rotation =>
    have hguard : (b.dataRuns && !b.planes.controlRestart) = true := by rw [hdata, hcontrol]; rfl
    have hrotate : becomes (.testRotation die) s (b.rotate die) := becomes_of_body (exec_testRotation s die) (if_pos hguard)
    refine ⟨fun hskip => ?_, fun n p lent hidle hnext hspare => ?_⟩
    · rw [rotate_of_none hskip] at hrotate
      exact ⟨⟨_, hrotate, quiet_bump .., rfl, rfl⟩, _, hrotate, count_bump_self ..⟩
    · rw [rotate_of_spare hidle hnext hspare] at hrotate
      exact ⟨_, hrotate, rotation_puts (nextSubject_state hnext) (rotationSpare_state hspare)⟩
  case starts =>
    refine ⟨_, becomes_of_body (exec_settTestStart s n) ((if_pos hdata).trans (testStart_of_clear hwait hclear)), ?_, ?_, rfl, rfl,
      fun k hk => ?_⟩
    · rw [sett_modSett_same]
    · rw [sett_modSett_same]
    · rw [sett_modSett_other _ hk, sett_mapFreed]
      rfl
  case ends =>
    intro lent back
    have hdegraded : ((b.modSett n fun x => { x with degraded := [] }).sett n).degraded = [] := by rw [sett_modSett_same]
    refine ⟨⟨_, becomes_of_body (exec_settTestComplete s n true pattern) ((if_pos hdata).trans (testDone_of_pass hrun _)),
      testOver_of_whole hdegraded back⟩, fun hfree => ?_, ?_⟩
    · exact ⟨_, becomes_of_body (exec_settTestComplete s n false pattern) (if_pos hdata), banned_testDone hrun hfree _⟩
    · have hcore := (core_bump (s := b.testOver n lent) .testBudgetDefer (n / 5) n).trans (core_testOver b n lent)
      refine ⟨_, becomes_of_body (exec_testBudgetDefer s n) ((if_pos hdata).trans (testDefer_of_running hrun)),
        (congrArg Prod.fst hcore :), (congrArg (·.2.1) hcore :), (congrArg (·.2.2) hcore :), ?_⟩
      refine (count_bump_self _ .testBudgetDefer (n / 5)).trans ?_
      exact congrArg (fun k => (k + 1) % 2 ^ 64) (deferred_testOver (s := b) n lent (n / 5))
  case den =>
    intro i
    have hloss : becomes .denHeartbeatLoss s b.denLoss := becomes_of_body (exec_denHeartbeatLoss s) (if_pos hserves)
    have htest : becomes .denTestStart s b.denTest := becomes_of_body (exec_denTestStart s) (if_pos hserves)
    obtain ⟨hA, hB, hnone⟩ := denLoss_takeover (s := b)
    obtain ⟨htestB, htestA⟩ := denTest_starts (s := b)
    refine ⟨fun ha hb => ⟨_, hloss, hA ha hb, rfl, rfl⟩, fun hb ha => ⟨_, hloss, hB hb ha, rfl, rfl⟩, fun hno hno' => ?_, fun ha hb => ?_,
      fun hb ha => ?_, fun pass => ?_⟩
    · rw [hnone hno hno'] at hloss
      exact hloss
    · rw [htestB ha hb] at htest
      exact htest
    · rw [htestA hb ha] at htest
      exact htest
    · have htested : becomes (.denTestComplete pass) s (b.denTested pass) :=
        becomes_of_body (exec_denTestComplete s pass) (if_pos hserves)
      obtain ⟨hrejoinA, hrejoinB⟩ := denTested_rejoins (s := b) pass
      exact ⟨fun ha => ⟨_, htested, hrejoinA ha, rfl, rfl⟩, fun ha hb => ⟨_, htested, hrejoinB ha hb, rfl, rfl⟩⟩
  case hbm =>
    intro at_ roomy
    refine ⟨fun hlost hretired habsent => ⟨fun hroomy => ?_, fun hfull => ?_⟩, fun hroomy hservice => ?_, fun hdraining => ?_,
      fun htesting => ⟨?_, ?_⟩, fun hback => ?_⟩
    · exact ⟨_, becomes_of_stack hfit hserves (exec_stackLost s n), stackLost_spared ⟨hlost, hretired, habsent⟩ hroomy⟩
    · exact ⟨_, becomes_of_stack hfit hserves (exec_stackLost s n), stackLost_stops ⟨hlost, hretired, habsent⟩ hfull hserves⟩
    · have hstart : b.drainStart n = ({ b with integ := { b.integ with headroomUsed := true } } : Body).setStack n .draining :=
        if_pos ⟨hroomy.1, by simp [b, hroomy.2], hservice⟩
      have h := becomes_of_stack hfit hserves (exec_stackDrainStart s n)
      rw [hstart] at h
      exact h
    · have hcopied : b.drainCopied n = b.setStack n .testing := if_pos hdraining
      exact hcopied ▸ becomes_of_stack hfit hserves (exec_stackDrainCopyComplete s n)
    · have hpass : b.stackTested n true = b.setStack n .copyBack := if_neg (not_not_intro htesting)
      exact hpass ▸ becomes_of_stack hfit hserves (exec_stackTestComplete s n true)
    · exact ⟨_, becomes_of_stack hfit hserves (exec_stackTestComplete s n false), stackTested_fails htesting⟩
    · have hcopied : b.copiedBack n =
          ({ b with integ := { b.integ with headroomUsed := false } } : Body).setStack n .service := if_pos hback
      have h := becomes_of_stack hfit hserves (exec_stackCopyBackComplete s n)
      rw [hcopied] at h
      exact h

end Sys2Proof.Machine
end

section
/-! SUPPORT. What a restart of the data plane closes (01 Table 1-5; 08 R206): every context, while groups and planes stay. -/

namespace Sys2Proof.Machine

variable {s : Body}

/-- The planes, the tables, the keys of the open contexts in order, and which descriptor indices hold a group. -/
structure Roster where
  planes : Planes
  tables : Tables
  keys : List CtxKey
  held : Nat → Bool

def Body.roster (s : Body) : Roster :=
  ⟨s.planes, s.tables, s.coll.ctxs.map fun c => c.key, fun i => (mget s.coll.groups i).isSome⟩

/-- A group address leads to a descriptor. -/
def Roster.knows (r : Roster) (a : W32) : Bool :=
  match r.tables.group.act.find groupB (groupKey a) (groupSame a) with
  | some x => r.held (fld x.2 83 64)
  | none => false

theorem knows_roster (a : W32) : s.roster.knows a = (s.group a).isSome := by
  unfold Roster.knows Body.group Body.groupIndex
  dsimp only [Body.roster]
  cases s.tables.group.act.find groupB (groupKey a) (groupSame a) <;> rfl

theorem roster_of_sansFrames {a b : Body} (h : a.sansFrames = b.sansFrames) : a.roster = b.roster :=
  (congrArg Body.roster h :)

theorem isSome_mget_mset {α : Type} (m : Map α) {k : Nat} (v : α) (hk : (mget m k).isSome = true) (j : Nat) :
    (mget (mset m k v) j).isSome = (mget m j).isSome := by
  by_cases h : j = k
  · rw [h, mget_mset_same, hk]
    rfl
  · rw [mget_mset_other _ _ h]

/-! ### What a close leaves of the roster -/

theorem roster_modGroup (a : W32) (f : Group → Group) : (s.modGroup a f).roster = s.roster := by
  unfold Body.modGroup
  split
  · rfl
  · split
    · rfl
    next i _ _ g hg =>
      have hheld : (fun j => (mget (mset s.coll.groups i (f g)) j).isSome) = fun j => (mget s.coll.groups j).isSome :=
        funext (isSome_mget_mset s.coll.groups (f g) (by rw [hg]; rfl))
      exact congrArg (fun held => (⟨s.planes, s.tables, s.coll.ctxs.map fun c => c.key, held⟩ : Roster)) hheld

theorem roster_dropStages (c : Ctx) : (s.dropStages c).roster = s.roster := by
  unfold Body.dropStages
  refine foldl_keeps Body.roster _ (fun b t => ?_) _ s
  exact (roster_of_sansFrames (sansFrames_settleTd ..)).trans rfl

theorem roster_dropWaiting (c : Ctx) : (s.dropWaiting c).roster = s.roster :=
  foldl_keeps Body.roster _ (fun b _ => roster_of_sansFrames ((sansFrames_doneHere ..).trans (sansFrames_bump b ..))) _ s

theorem roster_modCtx (k : CtxKey) {f : Ctx → Ctx} (h : ∀ c, (f c).key = c.key) : (s.modCtx k f).roster = s.roster := by
  have hkeys : (s.coll.ctxs.map fun d => if d.key = k then f d else d).map (fun c => c.key) = s.coll.ctxs.map fun c => c.key := by
    rw [List.map_map]
    refine List.map_congr_left fun c _ => ?_
    dsimp only [Function.comp_apply]
    split
    · exact h c
    · rfl
  exact congrArg (fun keys => (⟨s.planes, s.tables, keys, fun i => (mget s.coll.groups i).isSome⟩ : Roster)) hkeys

theorem roster_releaseCtx (c : Ctx) : (s.releaseCtx c).roster = s.roster := by
  unfold Body.releaseCtx
  refine keeps_ite Body.roster (fun _ => rfl) fun _ => ?_
  extract_lets s1 n s2
  have hfreed : s1.roster = s.roster := rfl
  refine (roster_modCtx c.key (by intro; rfl)).trans ?_
  exact keeps_ite Body.roster (fun _ => hfreed) fun _ => hfreed

theorem roster_raiseOplow (a : W32) : (s.raiseOplow a).roster = s.roster := by
  unfold Body.raiseOplow
  split
  · rfl
  · exact Eq.trans rfl (roster_modGroup a _)

/-- The roster with a key's context closed. -/
def Roster.sans (r : Roster) (k : CtxKey) : Roster := { r with keys := r.keys.filter fun x => x != k }

theorem roster_closeCtx {k : CtxKey} (hgroup : s.roster.knows k.g = true) (status cause : Nat) :
    (s.closeCtx k status cause).roster = s.roster.sans k := by
  rw [knows_roster] at hgroup
  unfold Body.closeCtx
  split
  next c g _ _ =>
    extract_lets ranks list s1 s2 s3 s4 coll s5
    have hrecord : s1.roster = s.roster := keeps_ite Body.roster (fun _ => roster_of_sansFrames (sansFrames_sendRecord ..)) fun _ => rfl
    have hevent : s2.roster = s.roster :=
      keeps_ite Body.roster (fun _ => hrecord) fun _ => (roster_of_sansFrames (sansFrames_of_quiet (quiet_emit ..))).trans hrecord
    have hfreed : s4.roster = s.roster :=
      (roster_releaseCtx c).trans ((roster_dropWaiting c).trans ((roster_dropStages c).trans hevent))
    have hgone : s5.roster = s4.roster.sans k := by
      have hkeys : (s4.coll.ctxs.filter fun d => d.key != k).map (fun c => c.key) = (s4.coll.ctxs.map fun c => c.key).filter fun x => x != k := by
        rw [List.filter_map]
        rfl
      exact congrArg (fun keys => (⟨s4.planes, s4.tables, keys, fun i => (mget s4.coll.groups i).isSome⟩ : Roster)) hkeys
    rw [roster_of_sansFrames (sansFrames_retryAll _), roster_raiseOplow, hgone, hfreed]
  next hnone =>
    obtain ⟨g, hg⟩ := Option.isSome_iff_exists.mp hgroup
    have hctx : s.ctx k = none := by
      cases hc : s.ctx k with
      | none => rfl
      | some c => exact absurd hg (hnone c g hc)
    have hkeys : (s.coll.ctxs.map fun c => c.key).filter (fun x => x != k) = s.coll.ctxs.map fun c => c.key := by
      refine List.filter_eq_self.mpr fun x hx => ?_
      obtain ⟨c, hc, rfl⟩ := List.mem_map.mp hx
      simpa using List.find?_eq_none.mp hctx c hc
    exact (congrArg (fun keys => ({ s.roster with keys } : Roster)) hkeys).symm

/-- Closing every listed context whose group is known leaves the others. -/
theorem roster_foldl_closeCtx (status cause : Nat) : ∀ (ks : List CtxKey) {s : Body}, (∀ k ∈ ks, s.roster.knows k.g = true) →
    (ks.foldl (fun s k => s.closeCtx k status cause) s).roster = ks.foldl Roster.sans s.roster
  | [], _, _ => rfl
  | k :: ks, s, h => by
    have hclose := roster_closeCtx (h k (.head _)) status cause
    rw [List.foldl_cons, List.foldl_cons, roster_foldl_closeCtx status cause ks, hclose]
    rw [hclose]
    exact fun x hx => h x (.tail _ hx)

theorem foldl_sans (ks : List CtxKey) (r : Roster) : ks.foldl Roster.sans r = { r with keys := r.keys.filter fun x => !ks.contains x } := by
  induction ks generalizing r with
  | nil => simp
  | cons k ks ih =>
    rw [List.foldl_cons, ih]
    simp only [Roster.sans, List.filter_filter, List.contains_cons, Bool.not_or, bne, Bool.and_comm]

/-- Every context is aborted with CAUSE DATAPLANE_RESTART. -/
def Body.abortAll (s : Body) : Body := (s.coll.ctxs.map fun c => c.key).foldl (fun s k => s.closeCtx k 4 3) s

theorem roster_abortAll (hgroups : ∀ c ∈ s.coll.ctxs, s.roster.knows c.key.g = true) : s.abortAll.roster = { s.roster with keys := [] } := by
  have hclosed := roster_foldl_closeCtx 4 3 s.roster.keys (s := s) fun k hk => by
    obtain ⟨c, hc, rfl⟩ := List.mem_map.mp hk
    exact hgroups c hc
  have hnone : s.roster.keys.filter (fun x => !s.roster.keys.contains x) = [] :=
    List.filter_eq_nil_iff.mpr fun x hx => by simp [hx]
  rw [foldl_sans, hnone] at hclosed
  exact hclosed

/-! ### The frames that are lost -/

theorem roster_freshPools : s.freshPools.roster = s.roster := by
  unfold Body.freshPools
  refine (foldl_keeps Body.roster _ (fun b d => ?_) _ _).trans rfl
  rfl

theorem roster_commitPools : s.commitPools.roster = s.roster := by
  unfold Body.commitPools
  refine foldl_keeps Body.roster _ (fun b x => ?_) _ s
  rfl

theorem roster_loseFrames : s.loseFrames.roster = s.roster :=
  roster_commitPools.trans (roster_freshPools.trans rfl)

theorem roster_cutLaunches : s.cutLaunches.roster = s.roster := (congrArg Body.roster (uncut_cutLaunches s) :)

/-- A restart of the data plane closes every context and changes no other plane. -/
theorem restartData_closes (hrun : s.planes.dataRestart = false) (hgroups : ∀ c ∈ s.coll.ctxs, (s.group c.key.g).isSome = true) :
    s.restartData.planes = { s.planes with dataRestart := true } ∧ s.restartData.coll.ctxs = [] := by
  let lost := s.cutLaunches.loseFrames
  have hlost : lost.roster = s.roster := roster_loseFrames.trans roster_cutLaunches
  have hrestart : s.restartData = { lost.abortAll with planes := { lost.abortAll.planes with dataRestart := true } } :=
    if_neg (by simp [hrun])
  have hclosed : lost.abortAll.roster = { s.roster with keys := [] } := by
    rw [roster_abortAll, hlost]
    intro c hc
    have hkey : c.key ∈ lost.roster.keys := List.mem_map_of_mem hc
    rw [hlost] at hkey ⊢
    obtain ⟨d, hd, heq⟩ := List.mem_map.mp hkey
    rw [knows_roster, ← heq]
    exact hgroups d hd
  rw [hrestart]
  exact ⟨(congrArg (fun r : Roster => { r.planes with dataRestart := true }) hclosed :),
    List.map_eq_nil_iff.mp (congrArg Roster.keys hclosed :)⟩

end Sys2Proof.Machine
end

section
/-! SUPPORT. The planes restart and serve again (01 Table 1-5). -/

namespace Sys2Proof.Machine

variable {s : Body}

/-! ### The control plane -/

/-- A banked table that a load was writing is dirty. -/
def Banked.marked {n : Nat} (b : Banked n) : Banked n :=
  if b.writer.isSome then { b with dirty := true, rewritten := [], undo := b.undo.map fun u => { u with dirty := true, rewritten := [] } } else b

theorem banks_marked {n : Nat} (b : Banked n) : b.marked.dirty = (b.dirty || b.writer.isSome) ∧ b.marked.a = b.a ∧ b.marked.b = b.b
    ∧ b.marked.active = b.active := by
  unfold Banked.marked
  cases h : b.writer <;> simp

theorem gw_markDirty : s.markDirty.tables.gw = { s.tables.gw with dirty := s.tables.gw.dirty || s.tables.gw.writer.isSome } := by
  have hgw : s.markDirty.tables.gw = if s.tables.gw.writer.isSome then { s.tables.gw with dirty := true } else s.tables.gw := rfl
  rw [hgw]
  cases h : s.tables.gw.writer <;> simp

/-- What marking banks dirty leaves alone. -/
def Body.untabled (s : Body) : Body := { s with tables := {} }

theorem untabled_onBanks (f : (n : Nat) → Banked n → Banked n) (b : Body) (t : Nat) : (b.onBanks t f).untabled = b.untabled := rfl

theorem untabled_markDirty : s.markDirty.untabled = s.untabled := by
  unfold Body.markDirty
  extract_lets mark s1 g x
  have hbanks : s1.untabled = s.untabled :=
    foldl_keeps Body.untabled (fun s t => s.onBanks t mark) (untabled_onBanks mark) [1, 2, 3, 0x10, 0x11, 0x12, 0x13, 0x14] s
  clear_value s1
  exact Eq.trans rfl hbanks

theorem expressEnable_of_none (hexpress : ∀ x ∈ s.lports, x.2.express = none) : s.expressEnable = s := by
  have hports : s.lports.filter (fun x => x.2.express.isSome && !(s.lpe x.1).enable) = [] :=
    List.filter_eq_nil_iff.mpr fun x hx => by simp [hexpress x hx]
  unfold Body.expressEnable
  rw [hports]
  exact ite_self _

theorem clpSettle_of_none (howed : s.tables.clpOwed = []) (hexpress : ∀ x ∈ s.lports, x.2.express = none) (t : Nat) : s.clpSettle t = s := by
  have hkept : ({ s with tables := { s.tables with clpOwed := [] } } : Body) = s := by rw [← howed]
  unfold Body.clpSettle
  rw [howed]
  dsimp only [List.filter_nil, List.foldl_nil]
  rw [hkept, expressEnable_of_none hexpress, ite_self]

theorem grantAll_of_none (hadmitted : ∀ c ∈ s.coll.ctxs, c.st ≠ .admitting) : ∀ n, s.grantAll n = s
  | 0 => rfl
  | n + 1 => by
    have hnone : s.coll.ctxs.filter (fun c => c.st == .admitting) = [] :=
      List.filter_eq_nil_iff.mpr fun c hc => by simpa using hadmitted c hc
    unfold Body.grantAll
    rw [hnone]
    rfl

/-- With no work queued or owed, the control plane serves again and does nothing else. -/
theorem controlBack_of_idle (hdown : s.planes.controlRestart = true) (hqueue : s.planes.ctlQueue = []) (howed : s.tables.clpOwed = [])
    (hexpress : ∀ x ∈ s.lports, x.2.express = none) (hadmitted : ∀ c ∈ s.coll.ctxs, c.st ≠ .admitting) :
    s.controlBack = { s with planes := { s.planes with controlRestart := false } } := by
  have hserves : ({ s with planes := { s.planes with controlRestart := false, ctlQueue := [] } } : Body)
      = { s with planes := { s.planes with controlRestart := false } } := by rw [← hqueue]
  unfold Body.controlBack
  rw [if_neg (by simp [hdown]), hqueue]
  dsimp only [List.foldl_nil]
  rw [hserves]
  have hsettle := clpSettle_of_none (s := { s with planes := { s.planes with controlRestart := false } }) howed hexpress
  rw [hsettle, hsettle]
  exact grantAll_of_none (s := { s with planes := { s.planes with controlRestart := false } }) hadmitted _

/-! ### The data plane -/

/-- What credit granted anew leaves alone. -/
def Body.uncredited (s : Body) : Body := { s with lports := [], fwc := { s.fwc with pools := [] } }

theorem uncredited_grantLane (l v : Nat) : (s.grantLane l v).uncredited = s.uncredited := by
  unfold Body.grantLane
  dsimp only
  split <;> rfl

theorem uncredited_dataBack : s.dataBack.uncredited = ({ s with planes := { s.planes with dataRestart := false } } : Body).uncredited := by
  unfold Body.dataBack
  refine foldl_keeps Body.uncredited _ (fun b l => ?_) _ _
  exact foldl_keeps Body.uncredited _ (fun b v => uncredited_grantLane l v) _ b

/-! ### The management plane -/

theorem quiet_restartMgmt : s.restartMgmt.quiet = ({ s with
    planes := { s.planes with mgmtRestart := true }
    clock := if s.clock.state = .locked then { s.clock with state := .holdover, settled := none } else s.clock } : Body).quiet := by
  have hheld : ((s.holdEngine 0).holdEngine 1).quiet = s.quiet := (quiet_holdEngine _ 1).trans (quiet_holdEngine s 0)
  unfold Body.restartMgmt
  extract_lets locked s1 p s2
  have hstopped : s2.quiet = ({ s with planes := { s.planes with mgmtRestart := true } } : Body).quiet :=
    (congrArg (fun x : Body => { x with planes := { x.planes with mgmtRestart := true } }) hheld :)
  clear_value s2
  by_cases h : s.clock.state = .locked
  · rw [if_pos (by simpa [locked] using h), if_pos h, quiet_timeEvent]
    have hheldOver := (congrArg (fun x : Body => { x with clock := { x.clock with state := .holdover, settled := none } }) hstopped :)
    exact hheldOver
  · rw [if_neg (by simpa [locked] using h), if_neg h]
    exact hstopped

theorem quiet_mgmtBack : s.mgmtBack.quiet = ({ s with planes := { s.planes with mgmtRestart := false } } : Body).quiet := by
  unfold Body.mgmtBack
  extract_lets a p x s1 s2 s3
  have h1 : s1.quiet = ({ s with planes := { s.planes with mgmtRestart := false } } : Body).quiet := rfl
  have h2 : s2.quiet = s1.quiet := foldl_keeps Body.quiet _ (fun b x => (quiet_chainOne _ x).trans (quiet_payGap b)) _ s1
  have h3 : s3.quiet = s2.quiet := keeps_ite Body.quiet (fun _ => rfl) fun _ => quiet_audit s2 _
  exact (quiet_drainIfc _ 1).trans ((quiet_drainIfc _ 0).trans ((quiet_flushEvents _).trans (h3.trans (h2.trans h1))))

/-- Whether the management plane restarts, and the audit records that wait for it. -/
def Body.unchained (s : Body) : Bool × List (BitVec 640) × Nat := (s.planes.mgmtRestart, s.sec.audit.buffered, s.sec.audit.lost)

theorem unchained_of_sec {a b : Body} (hquiet : a.quiet = b.quiet) (hsec : a.sec = b.sec) : a.unchained = b.unchained := by
  have hplanes : a.planes = b.planes := planes_of_quiet hquiet
  unfold Body.unchained
  rw [hplanes, hsec]

theorem unchained_longer (p : Bool) (x : Sec) (c : BitVec 384) (n : W64) (k : Nat) (r : List AuditRec) :
    (p, { x with audit := { x.audit with chain := c, seq := n, since := k, ring := r } }.audit.buffered,
      { x with audit := { x.audit with chain := c, seq := n, since := k, ring := r } }.audit.lost)
      = (p, x.audit.buffered, x.audit.lost) := rfl

theorem unchained_chainOne (b : BitVec 640) : (s.chainOne b).unchained = s.unchained := by
  have hplanes : (s.chainOne b).planes = s.planes := planes_of_quiet (quiet_chainOne s b)
  unfold Body.unchained
  rewrite [hplanes, sec_chainOne]
  exact unchained_longer ..

theorem unchained_payGap : s.payGap.unchained = s.unchained := by
  unfold Body.payGap
  split
  · rw [unchained_chainOne]
    rfl
  · rfl

/-- A record made while the plane serves is chained at once. -/
theorem unchained_audit (h : s.unchained.1 = false) (a : AuditArgs) : (s.audit a).unchained = s.unchained := by
  have hserves : s.planes.mgmtRestart = false := h
  unfold Body.audit
  rw [if_neg (by simp [hserves]), unchained_chainOne, unchained_payGap]

theorem sec_flushEvents : s.flushEvents.sec = s.sec := by
  unfold Body.flushEvents
  refine (foldl_keeps Body.sec _ (fun b e => ?_) _ _).trans rfl
  exact (sec_eventTo _ 1 e).trans (sec_eventTo b 0 e)

theorem sec_signal (i : Fin 2) (v : Nat) : (s.signal i v).sec = s.sec := by
  unfold Body.signal
  dsimp only
  exact keeps_ite Body.sec (fun _ => rfl) fun _ => keeps_ite Body.sec (fun _ => Body.setIfc_sec ..) fun _ => rfl

theorem sec_writeCompl (i : Fin 2) (q : Nat) (c : Compl) : (s.writeCompl i q c).sec = s.sec := by
  unfold Body.writeCompl
  extract_lets f x ph o s1
  have hwritten : s1.sec = s.sec := Body.setIfc_sec ..
  exact keeps_ite Body.sec (fun _ => (sec_signal ..).trans hwritten) fun _ => hwritten

theorem sec_drainHeld (i : Fin 2) (q n : Nat) : (s.drainHeld i q n).sec = s.sec := by
  induction n generalizing s with
  | zero => rfl
  | succ n ih =>
    unfold Body.drainHeld
    dsimp only
    split
    · rfl
    · refine keeps_ite Body.sec (fun _ => ?_) fun _ => rfl
      rw [ih, sec_writeCompl, Body.setIfc_sec]

theorem sec_drainIfc (i : Fin 2) : (s.drainIfc i).sec = s.sec := by
  unfold Body.drainIfc
  exact foldl_keeps Body.sec _ (fun b (x : Nat × Nat) => sec_drainHeld i x.1 x.2) _ s

/-- What was buffered is chained once the plane serves. -/
theorem unchained_mgmtBack : s.mgmtBack.unchained = (false, [], 0) := by
  unfold Body.mgmtBack
  extract_lets a p x s1 s2 s3
  have h1 : s1.unchained = (false, [], 0) := rfl
  have h2 : s2.unchained = (false, [], 0) :=
    (foldl_keeps Body.unchained _ (fun b x => (unchained_chainOne x).trans unchained_payGap) _ s1).trans h1
  have h3 : s3.unchained = (false, [], 0) := keeps_ite Body.unchained (fun _ => h2) fun _ => (unchained_audit (by rw [h2]) _).trans h2
  have hsec : ((s3.flushEvents.drainIfc 0).drainIfc 1).sec = s3.sec := (sec_drainIfc 1).trans ((sec_drainIfc 0).trans sec_flushEvents)
  refine Eq.trans (unchained_of_sec ?_ hsec) h3
  exact (quiet_drainIfc _ 1).trans ((quiet_drainIfc _ 0).trans (quiet_flushEvents _))

end Sys2Proof.Machine
end

section
/-! SUPPORT. Lanes, probe cells and suspects (12 R319, R331-R333; 15 R390). -/

namespace Sys2Proof.Machine

variable {s : Body}

/-! ### Ridgepole lanes -/

theorem laneFault_spared {die b lane : Nat} (hup : 192 * die + b ∉ s.integ.blockDown)
    (hnew : lane ∉ mgetD s.integ.blockLanes (192 * die + b) []) (hspare : (mgetD s.integ.blockLanes (192 * die + b) []).length < 4) :
    s.laneFault die b lane =
      { s with
        integ := { s.integ with
          blockLanes := mset s.integ.blockLanes (192 * die + b) (mgetD s.integ.blockLanes (192 * die + b) [] ++ [lane]) }
        mram := { s.mram with laneMap := mset s.mram.laneMap (192 * die + b) (mgetD s.mram.laneMap (192 * die + b) [] ++ [lane]) } } :=
  (if_neg (by simp [hup, hnew])).trans (if_pos hspare)

/-- The parts that say which blocks serve, and their lane map. -/
def Body.blocks (s : Body) : Integ × Map (List Nat) × Profiles × BitVec 8 := (s.integ, s.mram.laneMap, s.profiles, s.lantern.fittedOe)

theorem blocks_of_quiet {a b : Body} (h : a.quiet = b.quiet) : a.blocks = b.blocks := (congrArg Body.blocks h :)

/-- Block `k` out of service, as the lane map shows by `lane`. -/
def Body.blockLost (s : Body) (k lane : Nat) : Body :=
  { s with integ := { s.integ with blockDown := s.integ.blockDown ++ [k] }
           mram := { s.mram with laneMap := mset s.mram.laneMap k (mgetD s.mram.laneMap k [] ++ [lane]) } }

theorem blocks_laneFault {die b lane : Nat} (hup : 192 * die + b ∉ s.integ.blockDown)
    (hnew : lane ∉ mgetD s.integ.blockLanes (192 * die + b) []) (hspent : 4 ≤ (mgetD s.integ.blockLanes (192 * die + b) []).length) :
    (s.laneFault die b lane).blocks = (s.blockLost (192 * die + b) lane).blocks := by
  unfold Body.laneFault
  extract_lets k used i m role p was s1
  have hlost : s1.blocks = (s.blockLost k lane).blocks := blocks_of_quiet (quiet_emit ..)
  rw [if_neg (by simp [k, used, hup, hnew]), if_neg (by simp only [used, k]; omega)]
  refine keeps_ite Body.blocks (fun _ => ?_) fun _ => hlost
  exact Eq.trans (blocks_of_quiet (quiet_emit s1 0x509 [p]) :) hlost

theorem blockRole_congr {a b : Body} (hprofiles : a.profiles = b.profiles) (hboot : a.integ.bootDown = b.integ.bootDown)
    (hfitted : a.lantern.fittedOe = b.lantern.fittedOe) (die k : Nat) : a.blockRole die k = b.blockRole die k := by
  unfold Body.blockRole
  rw [hprofiles, hboot, hfitted]

/-- A block that leaves service raises no role's count. -/
theorem roleCount_le_of_lost {t : Body} {k lane : Nat} (h : t.blocks = (s.blockLost k lane).blocks) (die : Nat) (role : Role4) (g : Nat) :
    t.roleCount die role g ≤ s.roleCount die role g := by
  have hinteg : t.integ = (s.blockLost k lane).integ := (congrArg (·.1) h :)
  have hrole := blockRole_congr (a := t) (b := s) (congrArg (·.2.2.1) h :) (by rw [hinteg]; rfl) (congrArg (·.2.2.2) h :) die
  have hdown : t.integ.blockDown = s.integ.blockDown ++ [k] := by rw [hinteg]; rfl
  refine (List.monotone_filter_right _ fun b hb => ?_).length_le
  simp only [hrole, hdown, Bool.and_eq_true] at hb ⊢
  refine ⟨hb.1, ?_⟩
  have hup := hb.2
  simp only [List.contains_append, Bool.not_or, Bool.and_eq_true] at hup
  exact hup.1

/-! ### Probe cells -/

theorem quiet_probe (die port : Nat) : (s.probe die port).quiet =
    ({ s with integ := { s.integ with probeSeq := s.integ.probeSeq + 1
                                      probeAt := mset s.integ.probeAt (512 * die + port) s.clock.ns.toNat } } : Body).quiet := by
  unfold Body.probe
  extract_lets k now s1
  have hcounted : s1.quiet = s.quiet := by
    dsimp only [s1]
    split
    · exact keeps_ite Body.quiet (fun _ => quiet_bump ..) fun _ => rfl
    · rfl
  clear_value s1
  exact (congrArg (fun x : Body => { x with integ := { x.integ with probeSeq := x.integ.probeSeq + 1, probeAt := mset x.integ.probeAt k now } })
    hcounted :)

/-- A path's failure is noted with its time. -/
def Body.failedAt (s : Body) (k : Nat) : Body :=
  { s with integ := { s.integ with probeFails := mset s.integ.probeFails k s.clock.ns.toNat } }

/-- The path has failed within the last 10 ms. -/
def Body.failsAgain (s : Body) (k : Nat) : Prop := ∃ t, mget s.integ.probeFails k = some t ∧ s.clock.ns.toNat ≤ t + 10000000

theorem probeFailed_once {die port : Nat} (h : ¬ s.failsAgain (512 * die + port)) :
    s.probeFailed die port = (s.failedAt (512 * die + port)).bump .probeFail die := by
  refine if_pos (Bool.or_eq_true_iff.mpr (.inl ?_))
  cases hfails : mget s.integ.probeFails (512 * die + port) with
  | none => rfl
  | some t =>
    have hlate : ¬ s.clock.ns.toNat ≤ t + 10000000 := fun hle => h ⟨t, hfails, hle⟩
    exact congrArg (!·) (Bool.eq_false_iff.mpr fun hle => hlate (Nat.le_of_ble_eq_true hle))

/-- A port barred, with its event. -/
def Body.portBarred (s : Body) (die port : Nat) : Body :=
  ({ s with integ := { s.integ with xbarBad := s.integ.xbarBad ++ [port] } } : Body).emit 0x209 [put die 16 + port]

theorem probeFailed_again {die port : Nat} (h : s.failsAgain (512 * die + port)) (hnew : port ∉ s.integ.xbarBad) :
    let b := ((s.failedAt (512 * die + port)).bump .probeFail die).portBarred die port
    s.probeFailed die port = if (b.integ.xbarBad.filter fun p => dieOfPort p == dieOfPort port).length ≥ 8
      then b.fatalStop 0x0A (dieOfPort port) 0xFF 3 else (b.lportsOf port).foldl (fun s l => (s.reenterQueued l).reenterReplay l) b := by
  obtain ⟨t, hfails, hsoon⟩ := h
  refine if_neg ?_
  have hbad : ((s.failedAt (512 * die + port)).bump .probeFail die).integ.xbarBad = s.integ.xbarBad :=
    (congrArg Integ.xbarBad (integ_of_quiet (quiet_bump (s.failedAt (512 * die + port)) .probeFail die)) :)
  simp only [Bool.or_eq_true, not_or]
  refine ⟨?_, ?_⟩
  · rw [hfails]
    simpa using hsoon
  · exact fun hin => hnew (by rw [← hbad]; exact List.contains_iff_mem.mp hin)

/-! ### The failure detector -/

theorem quiet_suspect {a : W32} {rank : Nat} {missing : Bool} {g : Group} {m : Member} (hgroup : s.group a = some g)
    (hmember : g.members[rank]? = some m) (hfenced : m.fenced = false) (hnew : m.suspect = false)
    (hmissing : missing = true → preRank g m = false ∧ s.inputMissing a g rank = true) (hgone : missing = false → s.podLive m.ep = false) :
    (s.suspect a rank missing).quiet =
      (s.modGroup a fun g => { g with members := setNth g.members rank { m with suspect := true, noPath := !missing } }).quiet := by
  have hseen : (if missing then !preRank g m && s.inputMissing a g rank else !s.podLive m.ep) = true := by
    cases missing with
    | false => simp [hgone rfl]
    | true => simp [hmissing rfl]
  unfold Body.suspect
  rw [hgroup]
  dsimp only
  rw [hmember]
  dsimp only
  rw [if_neg (by simp only [hseen, hfenced, hnew]; decide)]
  exact quiet_emit ..

end Sys2Proof.Machine
end

section
/-! SUPPORT. Faults are contained (01 Table 1-5; 12 R307, R319, R331-R333; 10 R279, R280; 15 R390). -/

namespace Sys2Proof.Machine

variable {s : Body}

/-! ### Fatal stops (12 R307) -/

theorem integ_setCell (g : Nat) (w : CellWrite) : (s.setCell g w).integ = s.integ := rfl

theorem integ_raiseWear (g : Nat) (w : CellWrite) : (s.raiseWear g w).integ = s.integ := by
  unfold Body.raiseWear
  dsimp only
  split
  · exact (integ_of_quiet (quiet_emit ..)).trans rfl
  · rfl

theorem integ_finishWrites : s.finishWrites.integ = s.integ := by
  unfold Body.finishWrites
  refine foldl_keeps Body.integ _ (fun b x => ?_) _ _
  split
  · exact integ_setCell ..
  · rfl

theorem integ_applyFallback : s.applyFallback.integ = s.integ := by
  have hwrite (g : Nat) (b : Body) (w : CellWrite) :
      (if b.wear g w ≥ 1000000000 then b.logFrozen g w else (b.raiseWear g w).setCell g w : Body).integ = b.integ :=
    keeps_ite Body.integ (fun _ => rfl) fun _ => (integ_setCell ..).trans (integ_raiseWear ..)
  unfold Body.applyFallback
  dsimp only
  refine (foldl_keeps Body.integ _ (fun b g => ?_) _ _).trans (integ_finishWrites (s := s))
  exact (integ_of_quiet (quiet_auditModule ..)).trans (foldl_keeps Body.integ _ (hwrite g) _ _)

theorem integ_fatalStop (cause die stack subsys : Nat) : (s.fatalStop cause die stack subsys).integ = s.integ := by
  unfold Body.fatalStop
  refine keeps_ite Body.integ (fun _ => ?_) fun _ => rfl
  exact integ_applyFallback.trans (congrArg Body.integ (uncut_cutLaunches s) :)

/-- The module has stopped, dark, and shows why (15 R394, Table 15-9). -/
theorem fatalStop_stops (h : s.power.state.runs = true) (cause die stack subsys : Nat) :
    let t := s.fatalStop cause die stack subsys
    t.power.state = .stopped ∧ t.power.thermalStop = (cause == 0x0B) ∧ t.lantern.stopCause = BitVec.ofNat 8 cause
      ∧ t.lantern.die = BitVec.ofNat 8 die ∧ t.lantern.stack = BitVec.ofNat 8 stack ∧ t.lantern.subsys = BitVec.ofNat 8 subsys
      ∧ (∀ x ∈ t.lports, x.2.state = .disabled) ∧ (∀ x ∈ t.carts, x.2.state ≠ .atPower) ∧ t.sec.activation = none := by
  intro t
  have hdark := dark_fatalStop h cause die stack subsys
  have hports : t.lports = s.cutLaunches.goDark.lports := (congrArg Dark.lports hdark :)
  have hcarts : t.carts = s.cutLaunches.goDark.carts := (congrArg Dark.carts hdark :)
  refine ⟨(congrArg (·.power.state) hdark :), (congrArg (·.power.thermalStop) hdark :), (congrArg (·.lantern.stopCause) hdark :),
    (congrArg (·.lantern.die) hdark :), (congrArg (·.lantern.stack) hdark :), (congrArg (·.lantern.subsys) hdark :), ?_, ?_,
    (congrArg Dark.activation hdark :)⟩
  · rw [hports]
    exact goDark_lports _
  · rw [hcarts]
    exact goDark_carts _

/-- With the IOD stopped nothing is shown, and the circuits hold. -/
theorem silentStop_stops (h : s.power.state.runs = true) :
    let t := s.silentStop
    t.power.state = .stopped ∧ t.power.iodStopped = true ∧ t.power.thermalStop = false ∧ t.hifA.linkUp = false ∧ t.hifB.linkUp = false
      ∧ t.portage = s.portage ∧ t.mram = s.mram ∧ t.lantern = s.lantern ∧ (∀ x ∈ t.lports, x.2.state = .disabled)
      ∧ (∀ x ∈ t.carts, x.2.state ≠ .atPower) ∧ t.sec.activation = none := by
  have hcut := uncut_cutLaunches s
  dsimp only
  unfold Body.silentStop
  rw [if_pos h]
  exact ⟨rfl, rfl, rfl, rfl, rfl, (congrArg Body.portage hcut :), (congrArg Body.mram hcut :), (congrArg Body.lantern hcut :),
    goDark_lports s.cutLaunches, goDark_carts s.cutLaunches, rfl⟩

/-! ### A path that fails again (12 R333) -/

theorem integ_of_sansTraffic {a b : Body} (h : a.sansTraffic = b.sansTraffic) : a.integ = b.integ := (congrArg Body.integ h :)

theorem power_of_sansTraffic {a b : Body} (h : a.sansTraffic = b.sansTraffic) : a.power = b.power := (congrArg Body.power h :)

/-- The port is barred and its frames go elsewhere; with eight ports of a die barred the module stops. -/
theorem probeFailed_bars {die port : Nat} (hruns : s.power.state.runs = true) (h : s.failsAgain (512 * die + port))
    (hnew : port ∉ s.integ.xbarBad) :
    (s.probeFailed die port).retryAll.integ = { (s.failedAt (512 * die + port)).integ with xbarBad := s.integ.xbarBad ++ [port] }
    ∧ (8 ≤ ((s.integ.xbarBad ++ [port]).filter fun p => dieOfPort p == dieOfPort port).length →
      (s.probeFailed die port).retryAll.power.state = .stopped) := by
  have hfailed := probeFailed_again h hnew
  dsimp only at hfailed
  have hbumped : ((s.failedAt (512 * die + port)).bump .probeFail die).quiet = (s.failedAt (512 * die + port)).quiet := quiet_bump ..
  generalize (s.failedAt (512 * die + port)).bump .probeFail die = b at hfailed hbumped
  have hbarred : (b.portBarred die port).quiet = ({ b with integ := { b.integ with xbarBad := b.integ.xbarBad ++ [port] } } : Body).quiet :=
    quiet_emit ..
  generalize b.portBarred die port = c at hfailed hbarred
  have hinteg : c.integ = { (s.failedAt (512 * die + port)).integ with xbarBad := s.integ.xbarBad ++ [port] } := by
    rw [integ_of_quiet hbarred]
    exact (congrArg (fun x : Body => { x.integ with xbarBad := x.integ.xbarBad ++ [port] }) hbumped :)
  have hpower : c.power = s.power := (power_of_quiet hbarred).trans (congrArg Body.power hbumped :)
  have hmoved := sansTraffic_of_sansFrames (sansFrames_retryAll (s.probeFailed die port))
  rw [integ_of_sansTraffic hmoved, power_of_sansTraffic hmoved, hfailed]
  refine ⟨?_, fun hmany => ?_⟩
  · refine (keeps_ite Body.integ (fun _ => integ_fatalStop ..) fun _ => ?_).trans hinteg
    exact integ_of_sansTraffic (foldl_keeps Body.sansTraffic _
      (fun b l => (sansTraffic_reenterReplay _ l).trans (sansTraffic_reenterQueued b l)) _ c)
  · rw [if_pos (by rw [hinteg]; exact hmany)]
    exact (fatalStop_stops (by rw [hpower]; exact hruns) ..).1

/-! ### The commands -/

/-- Settles O56: each fault by the lemma of its kind, each plane by what its restart and its return leave. -/
theorem faultsAreContained : Obligations.FaultsAreContained := by
  intro s hserves b now stops
  have hruns : b.power.state.runs = true := runs_of_serves hserves
  refine ⟨fun die blk lane => ?lanes, fun die port hport hdata => ?probes,
    fun a rank missing g m hgroup hmember hfenced hnew hmissing hgone => ?suspects, fun subsys unit => ?stopped,
    fun u hengine hstack => ?hot, fun hrun _ hgroups => ?data, ?mgmt, ?control, fun hdown => ?dataBack, fun hdown => ?mgmtBack,
    fun hdown hqueue howed hexpress hadmitted => ?controlBack⟩
  case lanes =>
    intro k used map hup hfresh
    have hfault : becomes (.ridgepoleLaneFault die blk lane) s (b.laneFault die blk lane) :=
      becomes_of_body (exec_ridgepoleLaneFault s die blk lane) (if_pos hserves)
    refine ⟨fun hspare => ?_, fun hspent => ?_⟩
    · rw [laneFault_spared hup hfresh hspare] at hfault
      exact hfault
    · have hblocks := blocks_laneFault hup hfresh hspent
      exact ⟨_, hfault, (congrArg (·.1) hblocks :), (congrArg (·.2.1) hblocks :), roleCount_le_of_lost hblocks ..⟩
  case probes =>
    intro k failed again
    have hfail : exec (.probeFail die port) s = onData s fun b => b.probeFailed die port := (exec_probeFail s die port).trans (if_pos hport)
    refine ⟨⟨_, becomes_of_body ((exec_probeCell s die port).trans (if_pos hport)) (if_pos hdata.runs), quiet_probe .., rfl, rfl⟩,
      fun honce => ?_, fun hagain hfresh => ?_⟩
    · have hfailed : b.probeFailed die port = (b.failedAt k).bump .probeFail die := probeFailed_once honce
      have hwait : ((b.failedAt k).bump .probeFail die).fwc.origWait = [] :=
        (congrArg (·.fwc.origWait) (quiet_bump (b.failedAt k) .probeFail die) :).trans hdata.none_waits
      exact ⟨_, becomes_of_data_of_none hdata hfail hfailed hwait, quiet_bump .., rfl, rfl⟩
    · obtain ⟨hinteg, hstop⟩ := probeFailed_bars hruns hagain hfresh
      exact ⟨_, becomes_of_data hdata hfail rfl, hinteg, hstop⟩
  case suspects =>
    exact runsTo_of_serves hserves _ (exec_memberSuspect s a rank missing)
      (quiet_suspect hgroup hmember hfenced hnew hmissing hgone)
  case stopped => exact ⟨⟨_, rfl, fatalStop_stops hruns ..⟩, _, rfl, silentStop_stops hruns⟩
  case hot =>
    cases u with
    | engine e => exact ⟨_, (exec_thermalStop s _).trans (if_pos (hengine e rfl)), fatalStop_stops hruns ..⟩
    | stack n => exact ⟨_, (exec_thermalStop s _).trans (if_pos (hstack n rfl)), fatalStop_stops hruns ..⟩
    | die n => exact ⟨_, rfl, fatalStop_stops hruns ..⟩
    | sett n => exact ⟨_, rfl, fatalStop_stops hruns ..⟩
  case data =>
    obtain ⟨t, ht, hb⟩ := next_of_serves hserves Body.restartData (exec_dataplaneFault s)
    obtain ⟨hplanes, hctxs⟩ := restartData_closes hrun hgroups
    exact ⟨t, ht, by rw [hb]; exact hplanes, by rw [hb]; exact hctxs⟩
  case mgmt => exact runsTo_of_serves hserves Body.restartMgmt (exec_managementPlaneFault s) quiet_restartMgmt
  case control =>
    obtain ⟨hdirty, ha, hb, hactive⟩ := banks_marked b.tables.pod
    have hkept := untabled_markDirty (s := b)
    have hrestart : becomes .controlPlaneRestart s b.restartControl := becomes_of_body (exec_controlPlaneRestart s) (if_pos hserves)
    exact ⟨_, hrestart, rfl, gw_markDirty (s := b), hdirty, ha, hb, hactive, (congrArg Body.fwc hkept :),
      (congrArg Body.coll hkept :), (congrArg Body.lports hkept :)⟩
  case dataBack =>
    have hback : b.planeBack .data = b.dataBack := if_pos hdown
    have hkept := uncredited_dataBack (s := b)
    refine ⟨_, becomes_of_body (exec_planeRestartComplete s .data) ((if_pos hserves).trans hback), (congrArg Body.planes hkept :),
      (congrArg Body.coll hkept :), (congrArg (·.fwc.frames) hkept :)⟩
  case mgmtBack =>
    have hback : becomes (.planeRestartComplete .management) s b.mgmtBack :=
      becomes_of_body (exec_planeRestartComplete s .management) ((if_pos hserves).trans (if_pos hdown))
    have hchained := unchained_mgmtBack (s := b)
    exact ⟨⟨_, hback, quiet_mgmtBack, rfl, rfl⟩, _, hback, (congrArg (·.2.1) hchained :), (congrArg (·.2.2) hchained :)⟩
  case controlBack =>
    exact becomes_of_body (exec_planeRestartComplete s .control)
      ((if_pos hserves).trans (controlBack_of_idle hdown hqueue howed hexpress hadmitted))

end Sys2Proof.Machine
end
